-- ==== Sys2Proof/Word.lean ====
section
/-! DEFINITION. The tagged word of the module (R19, R22) and the plainest arithmetic on it: 64-bit values,
8-bit tags, and the two's-complement reading of a value. -/

namespace Sys2Proof

/-- A byte. -/
abbrev Byte := BitVec 8

/-- The 64-bit value part of a word. -/
abbrev Val := BitVec 64

/-- A 72-bit word: an 8-bit tag byte and a 64-bit value (R19). -/
structure Word where
  tag : BitVec 8
  val : BitVec 64
deriving DecidableEq, Repr, Inhabited

namespace Word

/-- The type code, tag bits [5:0] (R19). -/
def type (w : Word) : Nat := w.tag.toNat % 64

/-- The immutable bit I, tag bit [6] (R19). -/
def imm (w : Word) : Bool := w.tag.getLsbD 6

/-- The weak bit W, tag bit [7] (R19). -/
def weak (w : Word) : Bool := w.tag.getLsbD 7

end Word

/-- Type codes of R22, by name. -/
def tyNIL : Nat := 0x00
def tyFIX : Nat := 0x01
def tyFLO : Nat := 0x02
def tyCHAR : Nat := 0x03
def tyTRUE : Nat := 0x04
def tyUNBOUND : Nat := 0x05
def tyCONS : Nat := 0x08
def tySYMBOL : Nat := 0x09
def tyVECTOR : Nat := 0x0A
def tySTRING : Nat := 0x0B
def tyBIGNUM : Nat := 0x0C
def tyRATIO : Nat := 0x0D
def tyCLOSURE : Nat := 0x0E
def tyCODE : Nat := 0x0F
def tyHEADER : Nat := 0x10
def tyFORWARD : Nat := 0x11
def tyREMOTE : Nat := 0x12
def tyBINREF : Nat := 0x13
def tyGATE : Nat := 0x14
def tyFUTURE : Nat := 0x15
def tyRAW : Nat := 0x16
def tyRETLINK : Nat := 0x17
def tyMSGHDR : Nat := 0x18

/-- `word(t, v)` of the pseudocode, the tag given by its type code with I and W clear. -/
def mkWord (t : Nat) (v : BitVec 64) : Word := ⟨BitVec.ofNat 8 t, v⟩

/-- word(NIL, 0). -/
def nilWord : Word := ⟨0x00, 0⟩
/-- word(TRUE, 0). -/
def trueWord : Word := ⟨0x04, 0⟩
/-- word(FIX, v). -/
def fixWord (v : BitVec 64) : Word := ⟨0x01, v⟩
/-- word(FLO, v). -/
def floWord (v : BitVec 64) : Word := ⟨0x02, v⟩
/-- word(RAW, v). -/
def rawWord (v : BitVec 64) : Word := ⟨0x16, v⟩
/-- word(TRUE, 0) or word(NIL, 0), as a compare writes (R81). -/
def boolWord (b : Bool) : Word := if b then trueWord else nilWord

/-- Bits [hi:lo] of a 64-bit value, as a number. -/
def bits (v : BitVec 64) (hi lo : Nat) : Nat := (v.toNat >>> lo) % 2 ^ (hi + 1 - lo)

/-- `v` with bits [hi:lo] replaced by `x` (taken modulo the field's size). -/
def setBits (v : BitVec 64) (hi lo x : Nat) : BitVec 64 :=
  let m : Nat := (2 ^ (hi + 1 - lo) - 1) <<< lo
  BitVec.ofNat 64 ((v.toNat &&& (2 ^ 64 - 1 - m)) ||| ((x % 2 ^ (hi + 1 - lo)) <<< lo))

/-- Bit `i` of a 64-bit value. -/
def bit (v : BitVec 64) (i : Nat) : Bool := v.getLsbD i

/-- A 64-bit value from a number, modulo 2^64. -/
def v64 (n : Nat) : BitVec 64 := BitVec.ofNat 64 n

end Sys2Proof
end

