-- ==== Sys2Proof/Syntax.lean ====
section
/-! DEFINITION. The commands of the block: one constructor of `Instr` per row of the opcode table, with the operands
the row's rule gives it. A core instruction carries its core and the operand fields of its encoding (R68); a register
write carries who writes and what; a packet row carries the link it came on and the packet; a Reeve command carries
the port it came by, its sequence number and its parameters. -/

namespace Sys2Proof

/-- Format T of R68: rd [25:21], rs1 [20:16], rs2 [15:11], ext [10:4]. -/
structure TForm where
  rd : BitVec 5
  rs1 : BitVec 5
  rs2 : BitVec 5
  ext : BitVec 7
deriving DecidableEq, Repr, Inhabited

/-- Format I of R68: rd [25:21], rs1 [20:16], imm12 [15:4]. -/
structure IForm where
  rd : BitVec 5
  rs1 : BitVec 5
  imm : BitVec 12
deriving DecidableEq, Repr, Inhabited

/-- Format M of R68: rd, rs or mask [25:21], base [20:16] and the twelve bits [15:4], which are a displacement or
a three-bit field over a nine-bit displacement. -/
structure MForm where
  r : BitVec 5
  base : BitVec 5
  disp : BitVec 12
deriving DecidableEq, Repr, Inhabited

/-- Format B of R68: rs [25:21] and disp17 [20:4]. -/
structure BForm where
  rs : BitVec 5
  disp : BitVec 17
deriving DecidableEq, Repr, Inhabited

/-- An arithmetic or compare instruction with a register form and an immediate form (R78, R81). -/
inductive AForm where
  | t (f : TForm)
  | i (f : IForm)
deriving DecidableEq, Repr, Inhabited

/-- The control-store structures that hold parity per word (R219, R229). -/
inductive CsStore where
  | dispatch
  | micro
  | nano
  | attr
deriving DecidableEq, Repr, Inhabited

/-- Who writes or reads a register of the module register space: the Reeve (REGRD, REGWR), a bank of a core through
the device region, or the host through a window. -/
inductive RegSrc where
  | reeve
  | bank (c : Fin 96) (b : Fin 4)
  | host
deriving DecidableEq, Repr, Inhabited

/-- The name of a source at a bin engine (R325): a bin of a node and the bin it sends from, or the host data port. -/
structure SrcKey where
  bin : BitVec 12
  node : BitVec 16
  sbin : BitVec 12
  host : Bool
deriving DecidableEq, Repr, Inhabited

/-- What training finds on one physical lane (R338). -/
structure LaneInfo where
  map : Fin 4
  pol : Bool
deriving DecidableEq, Repr, Inhabited

/-- A flit of 40 bytes (R342): four words, the link control field, the CRC. -/
structure Flit where
  w0 : Word
  w1 : Word
  w2 : Word
  w3 : Word
  ctl : BitVec 16
  crc : BitVec 16
deriving DecidableEq, Repr, Inhabited

/-- A packet of the fabric (R357): the four words of its HEAD flit and the words of its DATA flits. -/
structure Packet where
  w0 : Word
  w1 : Word
  w2 : Word
  w3 : Word
  data : List Word
deriving DecidableEq, Repr, Inhabited

/-- The ports by which a command reaches the Reeve (R415); a link port instance belongs to the source node. -/
inductive Port where
  | mgmt
  | debug
  | host
  | link (l : Fin 6) (node : BitVec 16)
  | core (w : Fin 2)
deriving DecidableEq, Repr, Inhabited

/-- The two I3C targets of the package (R403). -/
inductive I3CTarget where
  | reeve
  | bushel
deriving DecidableEq, Repr, Inhabited

/-- One sample of the metered rails VDD_CORE and VDD_MEM (R440): for each the 24-bit codes of its current and its voltage
channel. -/
structure BshSample where
  rails : List (BitVec 24 × BitVec 24)
deriving DecidableEq, Repr, Inhabited

/-- The commands of the block, in the opcode table's order. -/
inductive Instr where
  /-- ADD_F (R78). Adds two FIX operands and raises ARITH on overflow. -/
  | addF (c : Fin 96) (f : AForm)
  /-- SUB_F (R78). Subtracts two FIX operands and raises ARITH on overflow. -/
  | subF (c : Fin 96) (f : AForm)
  /-- ADD_R (R78). Adds two RAW operands modulo 2^64. -/
  | addR (c : Fin 96) (f : AForm)
  /-- SUB_R (R78). Subtracts two RAW operands modulo 2^64. -/
  | subR (c : Fin 96) (f : AForm)
  /-- AND (R78). Bitwise AND of FIX or RAW operands, keeping the tag of rs1. -/
  | and (c : Fin 96) (f : AForm)
  /-- OR (R78). Bitwise OR of FIX or RAW operands. -/
  | or (c : Fin 96) (f : AForm)
  /-- XOR (R78). Bitwise XOR of FIX or RAW operands. -/
  | xor (c : Fin 96) (f : AForm)
  /-- ANDN (R78). Computes rs1 AND NOT rs2. -/
  | andn (c : Fin 96) (f : AForm)
  /-- SLL (R78). Logical left shift, with no overflow check. -/
  | sll (c : Fin 96) (f : AForm)
  /-- SRL (R78). Logical right shift. -/
  | srl (c : Fin 96) (f : AForm)
  /-- SRA (R78). Arithmetic right shift. -/
  | sra (c : Fin 96) (f : AForm)
  /-- ADD_FL (R80). IEEE binary64 add. -/
  | addFl (c : Fin 96) (f : TForm)
  /-- SUB_FL (R80). IEEE binary64 subtract. -/
  | subFl (c : Fin 96) (f : TForm)
  /-- MUL_FL (R80). IEEE binary64 multiply. -/
  | mulFl (c : Fin 96) (f : TForm)
  /-- DIV_FL (R80). IEEE binary64 divide on the shared divider. -/
  | divFl (c : Fin 96) (f : TForm)
  /-- SQRT_FL (R80). IEEE binary64 square root. -/
  | sqrtFl (c : Fin 96) (f : TForm)
  /-- NEG_FL (R80). Inverts the sign bit of a FLO. -/
  | negFl (c : Fin 96) (f : TForm)
  /-- ABS_FL (R80). Clears the sign bit of a FLO. -/
  | absFl (c : Fin 96) (f : TForm)
  /-- CVT_FL (R80). Converts a FIX to a FLO, rounding. -/
  | cvtFl (c : Fin 96) (f : TForm)
  /-- CVT_FX (R80). Converts a FLO to a FIX, truncating toward zero. -/
  | cvtFx (c : Fin 96) (f : TForm)
  /-- CMP_EQ (R81). Writes TRUE when the operands are identical. -/
  | cmpEq (c : Fin 96) (f : AForm)
  /-- CMP_NE (R81). Writes TRUE when the operands are not identical. -/
  | cmpNe (c : Fin 96) (f : AForm)
  /-- CMP_LT (R81). Signed FIX less-than compare. -/
  | cmpLt (c : Fin 96) (f : AForm)
  /-- CMP_LE (R81). Signed FIX less-or-equal compare. -/
  | cmpLe (c : Fin 96) (f : AForm)
  /-- CMP_LTU (R81). Unsigned less-than compare on values. -/
  | cmpLtu (c : Fin 96) (f : AForm)
  /-- CMP_LEU (R81). Unsigned less-or-equal compare on values. -/
  | cmpLeu (c : Fin 96) (f : AForm)
  /-- CMP_TY (R81). Tests the type code of rs1 against an immediate. -/
  | cmpTy (c : Fin 96) (f : IForm)
  /-- CMP_FEQ (R81). FLO equality compare. -/
  | cmpFeq (c : Fin 96) (f : TForm)
  /-- CMP_FLT (R81). FLO less-than compare. -/
  | cmpFlt (c : Fin 96) (f : TForm)
  /-- CMP_FLE (R81). FLO less-or-equal compare. -/
  | cmpFle (c : Fin 96) (f : TForm)
  /-- CMP_FUN (R81). Tests whether either FLO operand is NaN. -/
  | cmpFun (c : Fin 96) (f : TForm)
  /-- BA (R82). Branches always. -/
  | ba (c : Fin 96) (f : BForm)
  /-- BNIL (R82). Branches when rs is NIL. -/
  | bnil (c : Fin 96) (f : BForm)
  /-- BNN (R82). Branches when rs is not NIL. -/
  | bnn (c : Fin 96) (f : BForm)
  /-- BZ (R82). Branches when the value is zero. -/
  | bz (c : Fin 96) (f : BForm)
  /-- BNZ (R82). Branches when the value is not zero. -/
  | bnz (c : Fin 96) (f : BForm)
  /-- BLTZ (R82). Branches when the FIX value is negative. -/
  | bltz (c : Fin 96) (f : BForm)
  /-- BGEZ (R82). Branches when the FIX value is not negative. -/
  | bgez (c : Fin 96) (f : BForm)
  /-- MOV (R83). Copies a full word between registers. -/
  | mov (c : Fin 96) (f : TForm)
  /-- SETTAG_R (R33). Retags rs1 with a tag taken from register rs2, subject to level rules. -/
  | settagR (c : Fin 96) (f : TForm)
  /-- TAGOF (R83). Returns the tag byte of any word as a FIX. -/
  | tagof (c : Fin 96) (f : TForm)
  /-- MOVI (R83). Loads a sign-extended immediate FIX. -/
  | movi (c : Fin 96) (f : IForm)
  /-- SETTAG (R33). Retags rs1 with an immediate tag, subject to level rules. -/
  | settag (c : Fin 96) (f : IForm)
  /-- MUL_S (R84). Starts a signed 128-bit multiply into PH:PL. -/
  | mulS (c : Fin 96) (f : TForm)
  /-- MUL_U (R84). Starts an unsigned 128-bit multiply into PH:PL. -/
  | mulU (c : Fin 96) (f : TForm)
  /-- DIV_S (R84). Starts a signed divide into QT and RM. -/
  | divS (c : Fin 96) (f : TForm)
  /-- DIV_U (R84). Starts an unsigned divide into QT and RM. -/
  | divU (c : Fin 96) (f : TForm)
  /-- MULDIV_RESULT_WRITE (R61). A pending MUL or DIV result is written to its bank's product or quotient registers. -/
  | muldivResultWrite (c : Fin 96) (b : Fin 4)
  /-- LD_W (R89). Loads a whole word through the read barrier. -/
  | ldW (c : Fin 96) (f : MForm)
  /-- LD_B (R89). Loads a sign-extended byte from a RAW word. -/
  | ldB (c : Fin 96) (f : MForm)
  /-- LD_BU (R89). Loads a zero-extended byte from a RAW word. -/
  | ldBu (c : Fin 96) (f : MForm)
  /-- LD_H (R89). Loads a sign-extended half-word from a RAW word. -/
  | ldH (c : Fin 96) (f : MForm)
  /-- LD_HU (R89). Loads a zero-extended half-word from a RAW word. -/
  | ldHu (c : Fin 96) (f : MForm)
  /-- LD_S (R89). Loads a sign-extended 32-bit value from a RAW word. -/
  | ldS (c : Fin 96) (f : MForm)
  /-- LD_SU (R89). Loads a zero-extended 32-bit value from a RAW word. -/
  | ldSu (c : Fin 96) (f : MForm)
  /-- ST_W (R90). Stores a whole word into the store buffer after the I and HEADER checks. -/
  | stW (c : Fin 96) (f : MForm)
  /-- ST_B (R90). Stores a byte into a RAW word. -/
  | stB (c : Fin 96) (f : MForm)
  /-- ST_H (R90). Stores a half-word into a RAW word. -/
  | stH (c : Fin 96) (f : MForm)
  /-- ST_S (R90). Stores 32 bits into a RAW word. -/
  | stS (c : Fin 96) (f : MForm)
  /-- STM (R91). Stores the registers selected by a mask, unchecked. -/
  | stm (c : Fin 96) (f : MForm)
  /-- LDM (R91). Loads the registers selected by a mask, unchecked, through the read barrier. -/
  | ldm (c : Fin 96) (f : MForm)
  /-- PREF (R92). Moves a granule into the prefetch side buffer without faulting. -/
  | pref (c : Fin 96) (f : MForm)
  /-- LDRV (R243). Loads a word and reserves its granule with write permission. -/
  | ldrv (c : Fin 96) (f : MForm)
  /-- STCN (R243). Stores only if the reservation holds and reports success. -/
  | stcn (c : Fin 96) (f : TForm)
  /-- CAS (R93). Atomically compares all 72 bits and swaps. -/
  | cas (c : Fin 96) (f : TForm)
  /-- SWAP (R93). Atomically exchanges a register and a memory word. -/
  | swap (c : Fin 96) (f : TForm)
  /-- FADD (R93). Atomically adds a FIX to a FIX memory word. -/
  | fadd (c : Fin 96) (f : TForm)
  /-- RESERVATION_TIMEOUT (R243). Deferred coherence requests for a reserved granule are answered after 256 cycles. -/
  | reservationTimeout (c : Fin 96) (b : Fin 4)
  /-- CALL (R95). Writes a RETLINK to out7 and branches. -/
  | call (c : Fin 96) (f : BForm)
  /-- JMPL (R95). Jumps to a CODE or RAW target, optionally linking. -/
  | jmpl (c : Fin 96) (f : TForm)
  /-- RET (R96). Returns through a RETLINK, restoring a window if needed. -/
  | ret (c : Fin 96) (f : TForm)
  /-- CALLG (R185). Enters a gate after checking its descriptor and arguments. -/
  | callg (c : Fin 96) (f : TForm)
  /-- RETG (R187). Returns from a gate to user level. -/
  | retg (c : Fin 96) (f : TForm)
  /-- RFE (R182). Returns from a trap or escalation, checking the saved PC and STATUS. -/
  | rfe (c : Fin 96) (f : TForm)
  /-- ESCRET (R118). Sets PC from ESCPC. -/
  | escret (c : Fin 96) (f : TForm)
  /-- SAVE (R97). Advances the window and writes a computed value in the new window. -/
  | save (c : Fin 96) (f : IForm)
  /-- RESTORE (R97). Moves back one window and writes a computed value. -/
  | restore (c : Fin 96) (f : IForm)
  /-- MFS (R98). Reads a special register. -/
  | mfs (c : Fin 96) (f : IForm)
  /-- MTS (R57). Writes a special register, effective for the next instruction. -/
  | mts (c : Fin 96) (f : IForm)
  /-- MFB (R201). Reads a register of the bank BANKWIN selects. -/
  | mfb (c : Fin 96) (f : IForm)
  /-- MTB (R201). Writes a register of the bank BANKWIN selects. -/
  | mtb (c : Fin 96) (f : IForm)
  /-- BAR_C_O (R239). Core-scope ordering barrier. -/
  | barCO (c : Fin 96) (f : TForm)
  /-- BAR_C_E (R239). Core-scope completion barrier. -/
  | barCE (c : Fin 96) (f : TForm)
  /-- BAR_K_O (R239). Cluster-scope ordering barrier. -/
  | barKO (c : Fin 96) (f : TForm)
  /-- BAR_K_E (R239). Cluster-scope completion barrier. -/
  | barKE (c : Fin 96) (f : TForm)
  /-- BAR_D_O (R239). Module-scope ordering barrier. -/
  | barDO (c : Fin 96) (f : TForm)
  /-- BAR_D_E (R239). Module-scope completion barrier. -/
  | barDE (c : Fin 96) (f : TForm)
  /-- BAR_S_O (R239). System-scope ordering barrier, waiting for remote operations. -/
  | barSO (c : Fin 96) (f : TForm)
  /-- BAR_S_E (R239). System-scope completion barrier. -/
  | barSE (c : Fin 96) (f : TForm)
  /-- BARRIER_RELEASE (R240). A waiting barrier's condition holds, ending the wait and setting BEVT bit 2. -/
  | barrierRelease (c : Fin 96) (b : Fin 4)
  /-- CWB_A (R100). Writes back a modified granule, keeping copies. -/
  | cwbA (c : Fin 96) (f : TForm)
  /-- CINV_A (R100). Writes back and removes every copy of a granule. -/
  | cinvA (c : Fin 96) (f : TForm)
  /-- CLOCK_A (R270). Fills and locks a granule into L2 ways 0-7. -/
  | clockA (c : Fin 96) (f : TForm)
  /-- CUNLK_A (R270). Releases an L2 lock. -/
  | cunlkA (c : Fin 96) (f : TForm)
  /-- TLBINV_ALL (R263). Invalidates every unlocked TLB entry of the world on all walkers. -/
  | tlbinvAll (c : Fin 96) (f : TForm)
  /-- TLBINV_ASID (R263). Invalidates the world's non-global entries of an ASID. -/
  | tlbinvAsid (c : Fin 96) (f : TForm)
  /-- TLBINV_VA (R263). Invalidates the world's entries covering an address. -/
  | tlbinvVa (c : Fin 96) (f : TForm)
  /-- TLBLOCK (R265). Walks and installs a lockable translation on every core. -/
  | tlblock (c : Fin 96) (f : TForm)
  /-- TLBUNLK (R265). Frees a lockable entry on every core. -/
  | tlbunlk (c : Fin 96) (f : TForm)
  /-- TLBINV_RECEIVE (R264). A core or Winnower removes matching entries, restarts walks, waits for accesses and acknowledges. -/
  | tlbinvReceive (a : Fin 108) (id : Nat)
  /-- TLBINV_ACKNOWLEDGED (R264). All 108 acknowledgements arrive and the TLB instruction retires. -/
  | tlbinvAcknowledged (id : Nat)
  /-- BSEND (R321). Sends a message to a bin and waits for its answer. -/
  | bsend (c : Fin 96) (f : TForm)
  /-- BRECV (R329). Copies the oldest message to a buffer and frees its slots. -/
  | brecv (c : Fin 96) (f : TForm)
  /-- BPEEK (R102). Returns the MSGHDR of the oldest message without changing the ring. -/
  | bpeek (c : Fin 96) (f : TForm)
  /-- BCRED (R329). Returns credit left and free ring slots. -/
  | bcred (c : Fin 96) (f : TForm)
  /-- YOKE_ON (R299). Checks and starts the hand-over of a pair into yoked mode. -/
  | yokeOn (c : Fin 96) (f : TForm)
  /-- YOKE_OFF (R301). Releases a yoked pair to split mode at the next tick. -/
  | yokeOff (c : Fin 96) (f : TForm)
  /-- WAITE (R195). Waits until a BEVT bit in the mask is set. -/
  | waite (c : Fin 96) (f : IForm)
  /-- ASYNC (R176). Waits for earlier arithmetic and reports a pending imprecise exception. -/
  | async (c : Fin 96) (f : TForm)
  /-- DISPATCHSYNC (R208). Reloads the core's dispatch copy. -/
  | dispatchsync (c : Fin 96) (f : TForm)
  /-- PLOTSYNC (R135). Writes one plot-table entry and propagates it to every cluster. -/
  | plotsync (c : Fin 96) (f : TForm)
  /-- WCS (R225). Writes Allotment control-store words one per step. -/
  | wcs (c : Fin 96) (f : TForm)
  /-- SAVEH (R204). Saves a register half into a save area and advances the list. -/
  | saveh (c : Fin 96) (f : MForm)
  /-- LOADH (R204). Loads a register half from the previous save area. -/
  | loadh (c : Fin 96) (f : MForm)
  /-- ADD_G (R109). Generic add by type-pair table. -/
  | addG (c : Fin 96) (f : TForm)
  /-- SUB_G (R109). Generic subtract by type-pair table. -/
  | subG (c : Fin 96) (f : TForm)
  /-- MUL_G (R109). Generic multiply in microcode. -/
  | mulG (c : Fin 96) (f : TForm)
  /-- DIV_G (R111). Generic exact divide. -/
  | divG (c : Fin 96) (f : TForm)
  /-- QUO_G (R111). Generic truncating quotient. -/
  | quoG (c : Fin 96) (f : TForm)
  /-- REM_G (R111). Generic remainder. -/
  | remG (c : Fin 96) (f : TForm)
  /-- NEG_G (R112). Generic negation. -/
  | negG (c : Fin 96) (f : TForm)
  /-- ABS_G (R112). Generic absolute value. -/
  | absG (c : Fin 96) (f : TForm)
  /-- ADDI_G (R112). Generic add of a 7-bit immediate. -/
  | addiG (c : Fin 96) (f : TForm)
  /-- FLOAT_G (R112). Generic conversion to FLO. -/
  | floatG (c : Fin 96) (f : TForm)
  /-- TRUNC_G (R112). Generic truncation to FIX. -/
  | truncG (c : Fin 96) (f : TForm)
  /-- ZEROP_G (R112). Generic zero test. -/
  | zeropG (c : Fin 96) (f : TForm)
  /-- NUMP_G (R112). Generic number test. -/
  | numpG (c : Fin 96) (f : TForm)
  /-- CMP_G_EQ (R113). Generic numeric equality. -/
  | cmpGEq (c : Fin 96) (f : TForm)
  /-- CMP_G_LT (R113). Generic numeric less-than. -/
  | cmpGLt (c : Fin 96) (f : TForm)
  /-- CMP_G_LE (R113). Generic numeric less-or-equal. -/
  | cmpGLe (c : Fin 96) (f : TForm)
  /-- CMP_G_EQL (R113). Identity compare that escapes for same-type BIGNUM or RATIO. -/
  | cmpGEql (c : Fin 96) (f : TForm)
  /-- ESCRD (R119). Reads a register named by the escaping instruction. -/
  | escrd (c : Fin 96) (f : TForm)
  /-- ESCWR (R119). Writes a register named by the escaping instruction. -/
  | escwr (c : Fin 96) (f : TForm)
  /-- CAR (R122). Returns the car of a cell, or reads it remotely. -/
  | car (c : Fin 96) (f : TForm)
  /-- CDR (R122). Returns the cdr of a cell, or reads it remotely. -/
  | cdr (c : Fin 96) (f : TForm)
  /-- SETCAR (R123). Stores into the car of a local or remote cell. -/
  | setcar (c : Fin 96) (f : TForm)
  /-- SETCDR (R123). Stores into the cdr of a local or remote cell. -/
  | setcdr (c : Fin 96) (f : TForm)
  /-- CONS (R124). Allocates and initialises a cell at ALLOCP. -/
  | cons (c : Fin 96) (f : TForm)
  /-- ALLOC (R124). Allocates an object by descriptor and register length. -/
  | alloc (c : Fin 96) (f : TForm)
  /-- ALLOC_I (R124). Allocates an object by descriptor and immediate length. -/
  | allocI (c : Fin 96) (f : IForm)
  /-- VREF (R126). Reads a vector element with a bounds check. -/
  | vref (c : Fin 96) (f : TForm)
  /-- VSET (R126). Writes a vector element with a bounds check. -/
  | vset (c : Fin 96) (f : TForm)
  /-- VLEN (R126). Returns the length of a headered object. -/
  | vlen (c : Fin 96) (f : TForm)
  /-- ASSQ (R129). Walks an alist by steps looking for a key. -/
  | assq (c : Fin 96) (f : TForm)
  /-- MEMQ (R129). Walks a list by steps looking for an element. -/
  | memq (c : Fin 96) (f : TForm)
  /-- NTHCDR (R129). Advances a list cursor a counted number of steps. -/
  | nthcdr (c : Fin 96) (f : TForm)
  /-- LEN (R129). Counts a list's length by steps. -/
  | len (c : Fin 96) (f : TForm)
  /-- COPYW (R130). Copies words unchecked by resumable steps. -/
  | copyw (c : Fin 96) (f : TForm)
  /-- SCANT (R130). Scans words for a matching or non-matching type. -/
  | scant (c : Fin 96) (f : TForm)
  /-- ALLOTMENT_INSTRUCTION (R207). Runs an Allotment opcode through its dispatch entry and microcode routine. -/
  | allotmentInstruction (c : Fin 96) (m : Fin 4) (fn : BitVec 4) (f : TForm)
  /-- CS_PARITY_REPAIR (R219). A failed control-store word is recopied from another cluster and MCHK is raised. -/
  | csParityRepair (k : Fin 108) (st : CsStore) (adr : BitVec 14) (w : Fin 2) (c : Fin 96)
  /-- CS_BOUND_EXCEEDED (R217). An uncommitted segment passes 1,024 cycles and raises CS_BOUND. -/
  | csBoundExceeded (c : Fin 96)
  /-- TRAP_ENTRY (R177). Saves state to the TSB and enters the world's trap handler. -/
  | trapEntry (c : Fin 96)
  /-- IMPRECISE_EXCEPTION_DUE (R176). 32 retired instructions after IMPP is set, an imprecise ARITH is reported. -/
  | impreciseExceptionDue (c : Fin 96)
  /-- HARROW_DECISION (R196). The Harrow chooses, preempts or routes banks at a boundary or when idle. -/
  | harrowDecision (c : Fin 96)
  /-- QUANTUM_EXPIRY (R196). The Running bank uses up its quantum and an equal-priority bank is chosen. -/
  | quantumExpiry (c : Fin 96)
  /-- BTMR_EXPIRY (R203). A bank timer reaches zero and sets BEVT bit 1. -/
  | btmrExpiry (c : Fin 96) (b : Fin 4)
  /-- STCMP_MATCH (R202). TIMEC reaches STCMP and the supervisor timer interrupt becomes pending. -/
  | stcmpMatch (c : Fin 96) (w : Fin 2)
  /-- BANK_START (R193). BCTL START makes a Free bank Ready with reset STATUS and PC from BPC. -/
  | bankStart (r : RegSrc) (c : Fin 96) (b : Fin 4)
  /-- BANK_PARK (R193). BCTL PARK parks a bank. -/
  | bankPark (r : RegSrc) (c : Fin 96) (b : Fin 4)
  /-- BANK_UNPARK (R193). BCTL UNPARK returns a bank to Ready or Waiting. -/
  | bankUnpark (r : RegSrc) (c : Fin 96) (b : Fin 4)
  /-- BANK_RELEASE (R193). BCTL RELEASE frees a bank and discards its transaction results. -/
  | bankRelease (r : RegSrc) (c : Fin 96) (b : Fin 4)
  /-- BPC_WRITE (R194). Writes a bank's PC and cancels a Parked bank's outstanding wait. -/
  | bpcWrite (r : RegSrc) (c : Fin 96) (b : Fin 4) (v : Val)
  /-- ICSIG_WRITE (R202). Sets the writer's bit in the target core's ICPEND. -/
  | icsigWrite (r : RegSrc) (c : Fin 96) (w : Fin 2) (v : Val)
  /-- DBELL_WRITE (R202). Reeve write that sets IPEND.DB. -/
  | dbellWrite (r : RegSrc) (c : Fin 96) (w : Fin 2) (v : Val)
  /-- CORE_POWER_GATE (R205). After PGDLY bouts with every bank Free, the core drains, writes back and powers off. -/
  | corePowerGate (c : Fin 96)
  /-- CORE_POWER_RESTORE (R205). Power returns to a gated core and its started bank issues. -/
  | corePowerRestore (c : Fin 96)
  /-- STORE_PERFORM (R245). The oldest store buffer entry is performed in its L2 line or at memory. -/
  | storePerform (c : Fin 96)
  /-- RSPOP_READ (R138). Reading RSPOP returns and removes the oldest RSLOG entry. -/
  | rspopRead (c : Fin 96) (b : Fin 4)
  /-- WINNOWER_ASSIST (R158). A Winnower serves an assist by copying or finding the object and replies. -/
  | winnowerAssist (k : Fin 12)
  /-- ASSIST_REPLY (R147). The assist reply ends the wait; the bank heals the slot and delivers. -/
  | assistReply (c : Fin 96) (b : Fin 4)
  /-- SATBLOG_TAKE (R142). The cluster's Winnower takes a SATBLOG entry during Mark. -/
  | satblogTake (c : Fin 96) (b : Fin 4)
  /-- GO_WRITE (R153). Writing GCCTL.GO requests a collection cycle. -/
  | goWrite (r : RegSrc) (w : Fin 2) (v : Val)
  /-- ABORT_WRITE (R162). Writing GCCTL.ABORT in Mark requests an abort. -/
  | abortWrite (r : RegSrc) (w : Fin 2) (v : Val)
  /-- DESTQ_PUSH (R154). Pushes a destination plot, or refuses it with BADDEST. -/
  | destqPush (r : RegSrc) (k : Fin 12) (w : Fin 2) (v : Val)
  /-- WCTL_EN_WRITE (R163). Requests a Winnower to leave or enter service, or is refused. -/
  | wctlEnWrite (r : RegSrc) (k : Fin 12) (v : Val)
  /-- BOUT_BOUNDARY (R13). The bout number advances and every boundary action takes effect together. -/
  | boutBoundary
  /-- REGISTER_SCAN (R144). A bank's registers are scanned into the SATBLOG on entering Mark. -/
  | registerScan (c : Fin 96) (b : Fin 4)
  /-- REGISTER_FLIP (R156). A bank's pointers into Evacuating plots are replaced on entering Evacuate. -/
  | registerFlip (c : Fin 96) (b : Fin 4)
  /-- WINNOWER_MARK (R158). A Winnower marks an object and scans its words. -/
  | winnowerMark (k : Fin 12) (w : Fin 2)
  /-- WINNOWER_COPY (R158). A Winnower copies one object and writes FORWARD at its old address. -/
  | winnowerCopy (k : Fin 12) (w : Fin 2)
  /-- WINNOWER_FIXUP (R159). A Winnower rewrites a slot by CAS during Fix-up. -/
  | winnowerFixup (k : Fin 12) (w : Fin 2)
  /-- BITMAP_CLEAR_DONE (R162). Bitmap clearing after an abort completes and BUSY clears. -/
  | bitmapClearDone (w : Fin 2)
  /-- HOME_RD (R278). The home serves a read request from memory or a cache. -/
  | homeRd (a : Fin 108) (g : BitVec 34) (w : Fin 2)
  /-- HOME_RO (R278). The home serves a request for data with ownership. -/
  | homeRo (a : Fin 108) (g : BitVec 34) (w : Fin 2)
  /-- HOME_UPG (R278). The home grants ownership of a shared line. -/
  | homeUpg (a : Fin 108) (g : BitVec 34) (w : Fin 2)
  /-- HOME_WB (R283). The home takes or discards a writeback and answers WBACK. -/
  | homeWb (a : Fin 108) (g : BitVec 34)
  /-- HOME_EVN (R278). The home records an eviction notice. -/
  | homeEvn (a : Fin 108) (g : BitVec 34)
  /-- HOME_CWB (R278). The home writes a granule back to DRAM. -/
  | homeCwb (a : Fin 108) (g : BitVec 34) (w : Fin 2)
  /-- HOME_CINV (R278). The home removes every copy of a granule. -/
  | homeCinv (a : Fin 108) (g : BitVec 34) (w : Fin 2)
  /-- HOME_UC (R278). The home removes copies and performs an uncached access. -/
  | homeUc (a : Fin 108) (g : BitVec 34) (w : Fin 2) (wr : (Option (Fin 8 × Word)))
  /-- HOME_CMP (R280). A completion unblocks the line and the next queued request is taken. -/
  | homeCmp (a : Fin 108) (g : BitVec 34)
  /-- PROBE_ACKNOWLEDGE (R282). A probe acknowledgement reaches the home and may end a transient state. -/
  | probeAcknowledge (a : Fin 108) (g : BitVec 34)
  /-- PRD (R277). An agent answers a read probe. -/
  | prd (a : Fin 108) (g : BitVec 34)
  /-- PRO (R277). An agent answers an ownership probe and gives up the line. -/
  | pro (a : Fin 108) (g : BitVec 34)
  /-- PINV (R277). An agent invalidates its copy. -/
  | pinv (a : Fin 108) (g : BitVec 34)
  /-- PCLN (R277). An agent cleans a modified line to the home. -/
  | pcln (a : Fin 108) (g : BitVec 34)
  /-- FDEM (R277). An agent demotes from F to S. -/
  | fdem (a : Fin 108) (g : BitVec 34)
  /-- AGENT_FILL (R281). An agent receives data and grants, then sends CMP. -/
  | agentFill (a : Fin 108) (g : BitVec 34)
  /-- WBACK (R276). An agent frees its victim buffer entry. -/
  | wback (a : Fin 108) (g : BitVec 34)
  /-- AGENT_EVICTION (R276). An agent evicts a line, sending WB or EVN as its state needs. -/
  | agentEviction (a : Fin 108) (g : BitVec 34)
  /-- REQUEST_RETRY (R280). A NACKed request is retried after 32 cycles. -/
  | requestRetry (a : Fin 108) (g : BitVec 34)
  /-- DIRECTORY_REBUILD (R274). A double-bit directory error rebuilds the set from agent replies. -/
  | directoryRebuild (k : Fin 12) (set : Fin 16384)
  /-- PATROL_SCRUB (R292). The scrubber reads the next granule of a channel. -/
  | patrolScrub (ch : Fin 16)
  /-- YOKE_TICK (R300). The pair's event latch releases its contents at a 256-cycle tick. -/
  | yokeTick (p : Fin 48)
  /-- CLRDBG_WRITE (R311). Writing YKCTL.CLRDBG clears DBGBREAK. -/
  | clrdbgWrite (r : RegSrc) (p : Fin 48) (v : Val)
  /-- MSG (R362). A message packet arrives and is checked and given to the bin's engine. -/
  | msg (l : Fin 6) (p : Packet)
  /-- SOURCE_ENTRY_EXPIRY (R324). A source entry inactive for 64 bouts is removed. -/
  | sourceEntryExpiry (k : Fin 12) (src : SrcKey)
  /-- ACTIVATE (R318). Makes a Free or Disabled bin Active. -/
  | activate (r : RegSrc) (n : Fin 4096)
  /-- BIN_DISABLE (R318). Makes an Active bin Draining. -/
  | binDisable (r : RegSrc) (n : Fin 4096)
  /-- BIN_FORCE (R330). Abandons messages in flight and disables the bin. -/
  | binForce (r : RegSrc) (n : Fin 4096)
  /-- BIN_RELEASE (R318). Frees a Disabled bin and removes its source entries. -/
  | binRelease (r : RegSrc) (n : Fin 4096)
  /-- CLEAR (R318). Moves an Error bin with ERRC not 1 to Disabled. -/
  | clear (r : RegSrc) (n : Fin 4096)
  /-- BIN_DRAIN_COMPLETE (R330). A Draining bin with nothing in flight becomes Disabled. -/
  | binDrainComplete (n : Fin 4096)
  /-- LINK_ENABLE (R340). Moves a Disabled or Failed link to Detect. -/
  | linkEnable (l : Fin 6)
  /-- LINK_DISABLE (R354). Quiesces a link and disables it. -/
  | linkDisable (l : Fin 6)
  /-- LINK_FORCE (R354). Disables a link at once and hands back its packets. -/
  | linkForce (l : Fin 6)
  /-- LINK_RETRAIN (R340). Commands an Up link into Retrain. -/
  | linkRetrain (l : Fin 6)
  /-- LINK_DETECT (R339). All lanes see a signal and the link enters Train. -/
  | linkDetect (l : Fin 6)
  /-- TRAIN_COMPLETE (R339). Equalisation and precoding are agreed and the link enters Align. -/
  | trainComplete (l : Fin 6) (pre : Bool)
  /-- ALIGN_COMPLETE (R339). Lane map, deskew and codeword boundary are found and the link enters Param. -/
  | alignComplete (l : Fin 6) (lanes : (List LaneInfo))
  /-- CTRL_PARAMETERS (R339). A parameters CTRL flit is received and the link comes Up or Fails. -/
  | ctrlParameters (l : Fin 6) (f : Flit)
  /-- LINK_AUTO_RETRY (R339). A Failed link returns to Detect after 100 ms. -/
  | linkAutoRetry (l : Fin 6)
  /-- LANE_LOCK_LOSS (R349). Lost lock or uncorrectable codewords put the link into Retrain. -/
  | laneLockLoss (l : Fin 6)
  /-- RETRAIN_LOCK (R349). A retraining link reaches lock and sends RESUME. -/
  | retrainLock (l : Fin 6)
  /-- RETRAIN_TIMEOUT (R349). A link not done retraining in 1 ms becomes Failed. -/
  | retrainTimeout (l : Fin 6)
  /-- SEQUENCED_FLIT_RECEIVE (R345). A flit is accepted in sequence or found in error and NAKR is sent. The row
  carries a codeword as it came (R341): the 160 bytes `f` of its four flits and its four parity bytes `rs`. -/
  | sequencedFlitReceive (l : Fin 6) (f rs : List Byte)
  /-- NAKR (R348). A NAKR acknowledges earlier flits and starts a replay. -/
  | nakr (l : Fin 6) (f : Flit)
  /-- CRED (R352). A credit flit updates the partner's FREED counts. -/
  | cred (l : Fin 6) (f : Flit)
  /-- MARK (R378). A bout marker is received and used for alignment and numbering. -/
  | mark (l : Fin 6) (f : Flit) (ta : Nat)
  /-- CTRL_RESUME (R349). A RESUME sets the replay point and the link is Up. -/
  | ctrlResume (l : Fin 6) (f : Flit)
  /-- CTRL_QUIESCE (R354). The partner's QUIESCE stops new packets on this side. -/
  | ctrlQuiesce (l : Fin 6) (f : Flit)
  /-- CTRL_RETRAIN_REQUEST (R349). The partner's request puts the link into Retrain. -/
  | ctrlRetrainRequest (l : Fin 6) (f : Flit)
  /-- REPLAY_TIMEOUT (R348). No ACK advance for 4,096 slots replays from the oldest flit. -/
  | replayTimeout (l : Fin 6)
  /-- NAKR_REPEAT (R348). A NAKR is repeated after 1,024 slots. -/
  | nakrRepeat (l : Fin 6)
  /-- DISABLE_TIMEOUT (R354). A quiescing link disables after 65,536 slots. -/
  | disableTimeout (l : Fin 6)
  /-- RLOAD (R390). The owner performs a remote load. -/
  | rload (l : Fin 6) (p : Packet)
  /-- RCELL (R390). The owner performs a remote cell read. -/
  | rcell (l : Fin 6) (p : Packet)
  /-- RSTORE (R390). The owner performs a posted remote store. -/
  | rstore (l : Fin 6) (p : Packet)
  /-- RCAS (R390). The owner performs a remote compare-and-swap. -/
  | rcas (l : Fin 6) (p : Packet)
  /-- RSWAP (R390). The owner performs a remote swap. -/
  | rswap (l : Fin 6) (p : Packet)
  /-- RFADD (R390). The owner performs a remote fetch-and-add. -/
  | rfadd (l : Fin 6) (p : Packet)
  /-- LEASE (R395). The owner renews the entries a LEASE packet names. -/
  | lease (l : Fin 6) (p : Packet)
  /-- RDATA (R391). A result arrives, resolving a FUTURE or ending a wait. -/
  | rdata (l : Fin 6) (p : Packet)
  /-- RACK (R389). A store or lease acknowledgement completes its transaction. -/
  | rack (l : Fin 6) (p : Packet)
  /-- RERR (R391). An error answer fails its transaction. -/
  | rerr (l : Fin 6) (p : Packet)
  /-- BANS (R321). A bin answer ends a BSEND wait. -/
  | bans (l : Fin 6) (p : Packet)
  /-- FNAK (R374). A refusal marks the destination or schedules a resend. -/
  | fnak (l : Fin 6) (p : Packet)
  /-- DISC (R365). A discovery packet updates root candidate and distance. -/
  | disc (l : Fin 6) (p : Packet)
  /-- JOIN (R366). A join is forwarded, or assigned a node by the root. -/
  | join (l : Fin 6) (p : Packet)
  /-- ASSIGN (R366). An assignment sets the node or records a refusal. -/
  | assign (l : Fin 6) (p : Packet)
  /-- RTUPD (R368). A route update from the root writes route tables. -/
  | rtupd (l : Fin 6) (p : Packet)
  /-- RESYNC (R375). Sets the expected order numbers for a source and answers RSACK. -/
  | resync (l : Fin 6) (p : Packet)
  /-- RSACK (R375). Lets a source resume sending to a destination. -/
  | rsack (l : Fin 6) (p : Packet)
  /-- EPOCH (R398). Invalidates matching remote object cache lines and floods the epoch. -/
  | epoch (l : Fin 6) (p : Packet)
  /-- RCMD (R415). A Reeve command packet arrives from a link port. -/
  | rcmd (l : Fin 6) (p : Packet)
  /-- RRPL (R424). A reply to a FABSEND arrives. -/
  | rrpl (l : Fin 6) (p : Packet)
  /-- NBOOT (R461). A neighbour-boot packet stages, ends or requests image bytes. -/
  | nboot (l : Fin 6) (p : Packet)
  /-- DISC_PERIODIC (R365). A DISC is sent every 256 bouts. -/
  | discPeriodic
  /-- ROOT_ELECTION (R365). A module holding its own key for 16 bouts becomes root. -/
  | rootElection
  /-- JOIN_REFRESH (R367). A JOIN is resent every 4,096 bouts. -/
  | joinRefresh
  /-- NODE_EXPIRY (R367). The root frees a node not refreshed for 16,384 bouts. -/
  | nodeExpiry (node : BitVec 16)
  /-- JOIN_RECORD_LAPSE (R366). A parent's record of a join lapses after 64 bouts. -/
  | joinRecordLapse (l : Fin 6)
  /-- REORDER_TIMEOUT (R374). An unfilled expected number for 64 bouts sends FNAK RESEND. -/
  | reorderTimeout (node : BitVec 16) (vc : Fin 2)
  /-- RESEND (R374). A source resends a packet 256 cycles after FNAK RESEND. -/
  | resend (node : BitVec 16) (vc : Fin 2) (oseq : BitVec 16)
  /-- ROUTE_CACHE_EXPIRY (R371). A route cache entry becomes invalid at its second boundary. -/
  | routeCacheExpiry (node : BitVec 16)
  /-- FLUSH_WRITE (R371). Writing FABRTF.FLUSH invalidates the route cache. -/
  | flushWrite (r : RegSrc) (v : Val)
  /-- BOUTREF_EDGE (R377). A BOUTREF edge sets the root's boundary or is ignored. -/
  | boutrefEdge (dev : Int)
  /-- TRANSACTION_TIMEOUT (R393). A transaction with no answer in RTMO bouts fails. -/
  | transactionTimeout (ix : Fin 131072)
  /-- EXPREQ_WRITE (R386). Exports a pointer and sets EXPRES. -/
  | expreqWrite (r : RegSrc) (w : Fin 2) (v : Val)
  /-- EPOCHW_GO (R398). Sends an epoch flush. -/
  | epochwGo (r : RegSrc) (w : Fin 2) (v : Val)
  /-- LEASE_PASS (R394). Every 4,096 bouts the lease list is read and sent as LEASE packets. -/
  | leasePass (w : Fin 2)
  /-- EXPORT_SWEEP (R396). The owner visits 256 entries per bout and frees expired ones. -/
  | exportSweep (w : Fin 2)
  /-- MBGO_WRITE (R416). Submits a mailbox command. -/
  | mbgoWrite (r : RegSrc) (w : Fin 2) (v : Val)
  /-- MBDONE_WRITE (R416). Delivers a mailbox reply and clears RPLV. -/
  | mbdoneWrite (r : RegSrc) (w : Fin 2) (v : Val)
  /-- PRIVATE_WRITE (R404). An I3C private write carries a command packet to the Reeve. -/
  | privateWrite (bs : (List Byte))
  /-- PRIVATE_READ (R404). An I3C private read returns the next reply. -/
  | privateRead
  /-- ENEC (R403). Enables ENINT. -/
  | enec (bs : Byte)
  /-- DISEC (R403). Disables ENINT. -/
  | disec (bs : Byte)
  /-- ENTAS (R403). Accepted activity-state CCC with no effect. -/
  | entas (n : Fin 4)
  /-- RSTDAA (R403). Returns the target to its static address. -/
  | rstdaa
  /-- ENTDAA (R403). Takes part in dynamic address assignment. -/
  | entdaa (t : I3CTarget) (adr : BitVec 7)
  /-- SETMWL (R403). Sets the maximum write length. -/
  | setmwl (n : BitVec 16)
  /-- SETMRL (R403). Sets the maximum read length. -/
  | setmrl (n : BitVec 16) (ibi : BitVec 8)
  /-- ENTHDR0 (R403). Enters HDR-DDR. -/
  | enthdr0
  /-- SETAASA (R403). Makes the static address the dynamic address. -/
  | setaasa
  /-- RSTACT (R447). Restarts the target's I3C interface alone. -/
  | rstact (t : I3CTarget) (df : Byte)
  /-- SETDASA (R403). Assigns a dynamic address from the static one. -/
  | setdasa (t : I3CTarget) (adr : BitVec 7)
  /-- SETNEWDA (R403). Changes the dynamic address. -/
  | setnewda (t : I3CTarget) (adr : BitVec 7)
  /-- GETMWL (R403). Returns the maximum write length. -/
  | getmwl
  /-- GETMRL (R403). Returns the maximum read length. -/
  | getmrl
  /-- GETPID (R403). Returns the provisional ID. -/
  | getpid (t : I3CTarget)
  /-- GETBCR (R403). Returns BCR. -/
  | getbcr (t : I3CTarget)
  /-- GETDCR (R403). Returns DCR. -/
  | getdcr (t : I3CTarget)
  /-- GETSTATUS (R403). Returns the target status. -/
  | getstatus (t : I3CTarget)
  /-- GETMXDS (R403). Returns maximum data speed. -/
  | getmxds
  /-- GETCAPS (R403). Returns capabilities. -/
  | getcaps
  /-- NOP (R417). Does nothing and replies. -/
  | nop (p : Port) (seq : BitVec 16)
  /-- SYNC (R412). Returns the port's sequence and event state ahead of queued replies. -/
  | sync (p : Port) (seq : BitVec 16)
  /-- EVREAD (R417). Returns logged events from a number. -/
  | evread (p : Port) (seq : BitVec 16) (frm : BitVec 16) (mx : Byte)
  /-- EVACK (R405). Sets the MGMT event cursor. -/
  | evack (p : Port) (seq : BitVec 16) (upto : BitVec 16)
  /-- EVMASK (R414). Sets the classes that raise IBIs. -/
  | evmask (p : Port) (seq : BitVec 16) (mask : BitVec 16)
  /-- IDENT (R417). Returns identity and firmware data. -/
  | ident (p : Port) (seq : BitVec 16)
  /-- STATUS (R417). Returns freeze, violation and temperature status. -/
  | status (p : Port) (seq : BitVec 16)
  /-- VLOGRD (R417). Returns violation log entries. -/
  | vlogrd (p : Port) (seq : BitVec 16) (frm : Byte) (n : Byte)
  /-- REGRD (R418). Reads module registers by offset. -/
  | regrd (p : Port) (seq : BitVec 16) (adr : BitVec 32) (n : BitVec 16)
  /-- REGWR (R418). Writes module registers by offset. -/
  | regwr (p : Port) (seq : BitVec 16) (adr : BitVec 32) (vs : (List Val))
  /-- CFGSET (R419). Sets carve-out, remote object cache or bout period before release. -/
  | cfgset (p : Port) (seq : BitVec 16) (key : BitVec 16) (v : Val)
  /-- BANKWLD (R420). Gives a Free bank to a world and resets its registers. -/
  | bankwld (p : Port) (seq : BitVec 16) (core : Byte) (bank : Byte) (wld : Byte)
  /-- FENCE (R169). Closes, flushes and reassigns a fence granule. -/
  | fence (p : Port) (seq : BitVec 16) (space : Byte) (gran : BitVec 16) (owner : Byte)
  /-- PLOTOWN (R420). Changes the owner world of a Free plot. -/
  | plotown (p : Port) (seq : BitVec 16) (plot : BitVec 16) (own : Byte)
  /-- SHARE (R222). Closes, disables and reassigns an Allotment share. -/
  | share (p : Port) (seq : BitVec 16) (sh : Byte) (owner : Byte)
  /-- LINKCLS (R420). Sets a link's class, world, direction and bin range. -/
  | linkcls (p : Port) (seq : BitVec 16) (link : Byte) (cls : Byte) (wld : Byte) (up : Byte) (lo : BitVec 16) (hi : BitVec 16)
  /-- BINWLD (R420). Gives a Free bin to a world. -/
  | binwld (p : Port) (seq : BitVec 16) (bin : BitVec 16) (wld : Byte)
  /-- SCRLOAD (R425). Loads bytecode into a script slot. -/
  | scrload (p : Port) (seq : BitVec 16) (slot : Byte) (code : (List Byte))
  /-- SCRCTL_START (R425). Starts a script from instruction 0. -/
  | scrctlStart (p : Port) (seq : BitVec 16) (slot : Byte)
  /-- SCRCTL_STOP (R425). Stops a script at once. -/
  | scrctlStop (p : Port) (seq : BitVec 16) (slot : Byte)
  /-- SCRSTAT (R417). Returns a script's state. -/
  | scrstat (p : Port) (seq : BitVec 16) (slot : Byte)
  /-- SCRIPT_WAIT_EXPIRY (R425). A script's WAIT of IMM bouts ends. -/
  | scriptWaitExpiry (slot : Fin 4)
  /-- SCRIPT_BUDGET_FAULT (R426). A script cut off in 64 consecutive slices stops with FAULT 5. -/
  | scriptBudgetFault (slot : Fin 4)
  /-- MEMRD (R420). Reads physical memory in packed form. -/
  | memrd (p : Port) (seq : BitVec 16) (adr : BitVec 40) (n : Byte)
  /-- MEMWR (R420). Writes physical memory in packed form, clearing poison of whole granules. -/
  | memwr (p : Port) (seq : BitVec 16) (adr : BitVec 40) (ws : (List Word))
  /-- MEMFILL (R420). Fills granules with one word. -/
  | memfill (p : Port) (seq : BitVec 16) (adr : BitVec 40) (count : BitVec 32) (w : Word)
  /-- ALOAD (R227). Writes Allotment words with checks and no world check. -/
  | aload (p : Port) (seq : BitVec 16) (kind : Byte) (index : BitVec 16) (n : BitVec 16) (vs : (List Val))
  /-- IMGLOAD (R422). Writes bytes into the image staging area. -/
  | imgload (p : Port) (seq : BitVec 16) (off : BitVec 32) (bs : (List Byte))
  /-- IMGAPPLY_PATCH (R422). Verifies and applies a microcode patch. -/
  | imgapplyPatch (p : Port) (seq : BitVec 16)
  /-- IMGAPPLY_FLASH (R422). Writes verified firmware to serial NOR. -/
  | imgapplyFlash (p : Port) (seq : BitVec 16)
  /-- IMGAPPLY_RUN (R422). Runs verified firmware from the boot ROM wait. -/
  | imgapplyRun (p : Port) (seq : BitVec 16)
  /-- CRELEASE (R460). Closes configuration, loads dispatch copies and releases the cores. -/
  | crelease (p : Port) (seq : BitVec 16)
  /-- BANKCMD (R423). Writes a bank's BPC and issues a BCTL command. -/
  | bankcmd (p : Port) (seq : BitVec 16) (core : Byte) (bank : Byte) (cmd : Byte) (pc : Val)
  /-- FREEZE (R423). Freezes a core, link, host port or bin. -/
  | freeze (p : Port) (seq : BitVec 16) (kind : Byte) (index : BitVec 16)
  /-- THAW (R190). Releases a frozen master. -/
  | thaw (p : Port) (seq : BitVec 16) (kind : Byte) (index : BitVec 16)
  /-- RESET (R423). Resets a core, link, host port, bin or pair. -/
  | reset (p : Port) (seq : BitVec 16) (kind : Byte) (index : BitVec 16)
  /-- WARMRST (R463). Performs a warm reset of the module. -/
  | warmrst (p : Port) (seq : BitVec 16)
  /-- DOORBELL (R417). Rings a world's doorbell on a core. -/
  | doorbell (p : Port) (seq : BitVec 16) (core : Byte) (wld : Byte)
  /-- WNWCTL (R420). Enables or disables a Winnower. -/
  | wnwctl (p : Port) (seq : BitVec 16) (cl : Byte) (en : Byte)
  /-- LINKCMD (R340). Issues a link command. -/
  | linkcmd (p : Port) (seq : BitVec 16) (link : Byte) (cmd : Byte)
  /-- ROUTEFLUSH (R371). Invalidates the route cache. -/
  | routeflush (p : Port) (seq : BitVec 16)
  /-- EPOCHALL (R398). Sends an epoch flush of every line. -/
  | epochall (p : Port) (seq : BitVec 16) (wld : Byte)
  /-- FABSEND (R424). Sends a command packet to another node and returns its reply. -/
  | fabsend (p : Port) (seq : BitVec 16) (node : BitVec 16) (pkt : (List Byte))
  /-- BINCMD (R318). Issues a bin command. -/
  | bincmd (p : Port) (seq : BitVec 16) (bin : BitVec 16) (cmd : Byte)
  /-- BINSTAT (R417). Returns a bin descriptor. -/
  | binstat (p : Port) (seq : BitVec 16) (bin : BitVec 16)
  /-- BINPROG (R420). Writes handler program store entries. -/
  | binprog (p : Port) (seq : BitVec 16) (engine : Byte) (index : BitVec 16) (ws : (List (BitVec 32)))
  /-- MTRRD (R418). Reads the Bushel mirror. -/
  | mtrrd (p : Port) (seq : BitVec 16) (off : BitVec 32) (n : BitVec 16)
  /-- HALT (R473). Requests a debug halt of a core. -/
  | halt (p : Port) (seq : BitVec 16) (core : Byte)
  /-- RESUME (R473). Resumes a halted core. -/
  | resume (p : Port) (seq : BitVec 16) (core : Byte)
  /-- STEP (R473). Resumes a halted core for a counted number of instructions. -/
  | step (p : Port) (seq : BitVec 16) (core : Byte) (count : BitVec 16) (flags : Byte)
  /-- STEP_COMPLETE (R473). A stepping core halts after COUNT instructions. -/
  | stepComplete (c : Fin 96)
  /-- BRKSET (R474). Writes a breakpoint slot. -/
  | brkset (p : Port) (seq : BitVec 16) (core : Byte) (slot : Byte) (v0 : Val) (v1 : Val)
  /-- BRKCLR (R473). Clears breakpoint slots. -/
  | brkclr (p : Port) (seq : BitVec 16) (core : Byte) (slot : Byte)
  /-- STATERD (R473). Reads core state unchecked. -/
  | staterd (p : Port) (seq : BitVec 16) (core : Byte) (bank : Byte) (sel : Byte) (frm : Byte) (n : Byte)
  /-- STATEWR (R473). Writes core state unchecked. -/
  | statewr (p : Port) (seq : BitVec 16) (core : Byte) (bank : Byte) (sel : Byte) (frm : Byte) (ws : (List Word))
  /-- TRACERD (R473). Returns trace entries. -/
  | tracerd (p : Port) (seq : BitVec 16) (cl : Byte) (frm : BitVec 16) (n : Byte)
  /-- DEBUG_HALT_TAKEN (R472). A core enters debug halt at a boundary. -/
  | debugHaltTaken (c : Fin 96)
  /-- CMDDATA_UPDATE (R471). Update-DR appends a byte to the DEBUG command packet. -/
  | cmddataUpdate (d : BitVec 10)
  /-- CMDDATA_CAPTURE (R471). Capture-DR loads the next reply byte. -/
  | cmddataCapture
  /-- TEST_LOGIC_RESET (R470). TRST_N or Test-Logic-Reset selects IDCODE. -/
  | testLogicReset
  /-- COUNTER_OVERFLOW (R480). An event counter wraps, sets OVF and may make an interrupt pending. -/
  | counterOverflow (c : Fin 96) (n : Fin 8)
  /-- HOST_BAR2_WRITE (R431). A host write through a window writes granules or freezes the port. -/
  | hostBar2Write (off : BitVec 36) (bs : (List Byte)) (rid : BitVec 16)
  /-- HOST_BAR2_READ (R431). A host read through a window returns packed granules. -/
  | hostBar2Read (off : BitVec 36) (n : Nat) (rid : BitVec 16)
  /-- HOST_DOORBELL (R433). A doorbell write sends a message from a host channel. -/
  | hostDoorbell (n : Fin 4096) (v : Val) (rid : BitVec 16)
  /-- SLOT_RELEASE (R434). Advances RD of a host-bound bin. -/
  | slotRelease (n : Fin 4096) (v : Val)
  /-- HOST_CHANNEL_ANSWER (R433). An answer updates HCHST and sends the channel's vector. -/
  | hostChannelAnswer (ch : Fin 32)
  /-- FUNCTION_LEVEL_RESET (R437). Clears channels, HNOTE, command window and MSI-X state. -/
  | functionLevelReset
  /-- PERST (R462). PERST# or hot reset resets the host port. -/
  | perst
  /-- BUSHEL_POWER_UP (R452). VDD_BSH rises and the Bushel restarts its accounts and logs power-up. -/
  | bushelPowerUp (tamper : Bool)
  /-- CONVERTER_SAMPLE (R440). Each rail is sampled and power set for the next 750 ticks. -/
  | converterSample (dt : Nat) (s : BshSample)
  /-- COUNT_FRAME_RECEIVE (R444). A frame is accepted or lost and the span closes. -/
  | countFrameReceive (dt : Nat) (bs : (List Byte))
  /-- DET_CLOSE (R445). With no close for 4,096 ticks, a span closes to account 64 and DET is set. -/
  | detClose (dt : Nat)
  /-- TAMPER_FALL (R451). BSH_TAMPER_N falls, sets TAMPER and logs an audit entry. -/
  | tamperFall
  /-- TAMPER_CLEAR (R451). A write clears TAMPER and logs it. -/
  | tamperClear
  /-- STAGED_PARAMETER_WRITE (R450). A CALPAR or CALWT write stages a value or is logged as ignored. -/
  | stagedParameterWrite (off : BitVec 16) (v : Val)
  /-- PROGRAM (R450). Writes the staged values into the next OTP record. -/
  | program
  /-- ARM (R450). Arms sealing. -/
  | arm
  /-- SEAL (R450). Blows the SEALED fuse after ARM. -/
  | seal
  /-- BUSHEL_PRIVATE_WRITE (R448). Sets the read range or writes Bushel registers. -/
  | bushelPrivateWrite (bs : (List Byte))
  /-- BUSHEL_PRIVATE_READ (R448). Returns the read range with a CRC. -/
  | bushelPrivateRead (n : Nat)
  /-- RESET_N_RISE (R459). Samples straps and starts the cold start sequence. -/
  | resetNRise (boot : Fin 4) (ias : Fin 4) (dbg : Bool)
  /-- RESET_N_FALL (R462). Begins a cold reset. -/
  | resetNFall
  /-- PWRGOOD_FALL (R457). A low PWRGOOD pulse causes a cold reset. -/
  | pwrgoodFall
  /-- RAIL_FAULT (R457). A rail below threshold for 1 µs causes a cold reset. -/
  | railFault
  /-- MICROCODE_LOAD_COMPLETE (R459). The base image is in all copies and CSLOADED is set. -/
  | microcodeLoadComplete
  /-- MEMORY_TRAINING_COMPLETE (R459). Channels are trained and TRAINED is set. -/
  | memoryTrainingComplete (chok : BitVec 16)
  /-- DRAM_INIT_COMPLETE (R45). Every granule holds NIL and DRAMINIT is set. -/
  | dramInitComplete
  /-- FIRMWARE_RUN (R401). Firmware is obtained and runs, and FWRUN is set. -/
  | firmwareRun
  /-- NBOOT_REQUEST (R461). A booting module sends REQ every 1 ms. -/
  | nbootRequest
  /-- THERMAL_SAMPLE (R466). Sensors are read each bout and warn and throttle states change. -/
  | thermalSample (ts : (List (Option (BitVec 16))))
  /-- SENSOR_INVALID (R466). A sensor without valid readings for 16 bouts is ignored. -/
  | sensorInvalid (n : Fin 13)
  /-- REGISTER_WRITE (R4). Writes a register field that has no behaviour of its own, under its access code. -/
  | registerWrite (r : RegSrc) (off : BitVec 32) (v : Val)
  /-- FABSEND_TIMEOUT (R424). A FABSEND that receives no RRPL within 10 ms completes with NOT_READY. -/
  | fabsendTimeout
  /-- HALT_TIMEOUT (R473). A HALT whose core has not halted within 100 µs of acceptance completes with NOT_READY and the request is withdrawn. -/
  | haltTimeout (c : Fin 96)
  /-- FLIT_SLOT (R341). In each flit slot a link transmitter sends its next flit: a MARK, a NAKR, a replayed or new sequenced flit within credit, a CRED, or an IDLE carrying the latest ACK. -/
  | flitSlot (l : Fin 6)
  /-- HARDWARE_PREFETCH (R269). The hardware prefetcher of a core fills a line into its L2 and side buffer, dropping it on a NACK or poison. -/
  | hardwarePrefetch (c : Fin 96) (g : BitVec 34)
  /-- VDD_BSH_LOSS (R452). VDD_BSH falls, the Bushel stops metering and answering, and its accounts, remainders and non-NV fields are lost. -/
  | vddBshLoss
  /-- PCI_EXPRESS_LINK_CHANGE (R432). The PCI Express link comes up or goes down and HPSTAT.LINKUP follows it. -/
  | pciExpressLinkChange (up : Bool)
  /-- INSTRUCTION_REGISTER_UPDATE (R470). An update of the JTAG instruction register selects IDCODE, boundary scan, CMDDATA or BYPASS, with CMDDATA taken as BYPASS when DBG_EN was sampled low. -/
  | instructionRegisterUpdate (ir : Byte)
  /-- REEVE_BOOT_ROM_START (R459). The PLLs lock, the Reeve boot ROM runs, the I3C target answers at its static address, and event 0 is logged. -/
  | reeveBootRomStart
deriving DecidableEq, Repr

end Sys2Proof
end

