-- ==== Sys2Proof/Decode.lean ====
section
/-! DEFINITION. Words and commands. The opcode table gives no row any bits, so `decodeTableWord` knows no word. The 32-bit
instruction words of R68 reach the module as bytes of memory: here are their formats, the command that names each word
(R69-R72), and the word of each command. -/

namespace Sys2Proof

/-- The command that `nbits` bits of value `w` spell by the opcode table: the table gives no row an encoding of its
own (a row's word of R68 reaches the module as bytes of memory, not as a command). -/
def decodeTableWord (_nbits _w : Nat) : Option Instr := none

/-- Instruction words of the four formats (R68). -/
def encT (major func : Nat) (f : TForm) : Nat :=
  major * 2 ^ 26 + f.rd.toNat * 2 ^ 21 + f.rs1.toNat * 2 ^ 16 + f.rs2.toNat * 2 ^ 11 + f.ext.toNat * 16 + func
def encI (major func : Nat) (f : IForm) : Nat :=
  major * 2 ^ 26 + f.rd.toNat * 2 ^ 21 + f.rs1.toNat * 2 ^ 16 + f.imm.toNat * 16 + func
def encM (major func : Nat) (f : MForm) : Nat :=
  major * 2 ^ 26 + f.r.toNat * 2 ^ 21 + f.base.toNat * 2 ^ 16 + f.disp.toNat * 16 + func
def encB (major func : Nat) (f : BForm) : Nat :=
  major * 2 ^ 26 + f.rs.toNat * 2 ^ 21 + f.disp.toNat * 16 + func

/-- A word of the register form under one major, of the immediate form under another (R78, R81). -/
def encA (majT majI func : Nat) : AForm → Nat
  | .t f => encT majT func f
  | .i f => encI majI func f

/-- The dispatch key of an instruction word: its major opcode and its func (R72). -/
def keyOf (word : Nat) : Nat := word / 2 ^ 26 % 64 * 16 + word % 16

/-- The fields of a word in each format (R68). -/
def fieldsT (w : Nat) : TForm := ⟨BitVec.ofNat 5 (w / 2 ^ 21), BitVec.ofNat 5 (w / 2 ^ 16), BitVec.ofNat 5 (w / 2 ^ 11), BitVec.ofNat 7 (w / 16)⟩
def fieldsI (w : Nat) : IForm := ⟨BitVec.ofNat 5 (w / 2 ^ 21), BitVec.ofNat 5 (w / 2 ^ 16), BitVec.ofNat 12 (w / 16)⟩
def fieldsM (w : Nat) : MForm := ⟨BitVec.ofNat 5 (w / 2 ^ 21), BitVec.ofNat 5 (w / 2 ^ 16), BitVec.ofNat 12 (w / 16)⟩
def fieldsB (w : Nat) : BForm := ⟨BitVec.ofNat 5 (w / 2 ^ 21), BitVec.ofNat 17 (w / 16)⟩

/-- The instruction of a key outside the Allotment majors, with the fields of its word in each format (R70, R71 and the
encoding tables of each group); none for a reserved major or an unassigned func. -/
def insnOfKey (c : Fin 96) (key : Nat) (t : TForm) (i : IForm) (m : MForm) (b : BForm) : Option Instr :=
  match key with
  | 0x010 => some (.addF c (.t t))
  | 0x011 => some (.subF c (.t t))
  | 0x012 => some (.addR c (.t t))
  | 0x013 => some (.subR c (.t t))
  | 0x014 => some (.and c (.t t))
  | 0x015 => some (.or c (.t t))
  | 0x016 => some (.xor c (.t t))
  | 0x017 => some (.andn c (.t t))
  | 0x018 => some (.sll c (.t t))
  | 0x019 => some (.srl c (.t t))
  | 0x01A => some (.sra c (.t t))
  | 0x020 => some (.addF c (.i i))
  | 0x021 => some (.subF c (.i i))
  | 0x022 => some (.addR c (.i i))
  | 0x023 => some (.subR c (.i i))
  | 0x024 => some (.and c (.i i))
  | 0x025 => some (.or c (.i i))
  | 0x026 => some (.xor c (.i i))
  | 0x027 => some (.andn c (.i i))
  | 0x028 => some (.sll c (.i i))
  | 0x029 => some (.srl c (.i i))
  | 0x02A => some (.sra c (.i i))
  | 0x030 => some (.addFl c t)
  | 0x031 => some (.subFl c t)
  | 0x032 => some (.mulFl c t)
  | 0x033 => some (.divFl c t)
  | 0x034 => some (.sqrtFl c t)
  | 0x035 => some (.negFl c t)
  | 0x036 => some (.absFl c t)
  | 0x037 => some (.cvtFl c t)
  | 0x038 => some (.cvtFx c t)
  | 0x040 => some (.cmpEq c (.t t))
  | 0x041 => some (.cmpNe c (.t t))
  | 0x042 => some (.cmpLt c (.t t))
  | 0x043 => some (.cmpLe c (.t t))
  | 0x044 => some (.cmpLtu c (.t t))
  | 0x045 => some (.cmpLeu c (.t t))
  | 0x048 => some (.cmpFeq c t)
  | 0x049 => some (.cmpFlt c t)
  | 0x04A => some (.cmpFle c t)
  | 0x04B => some (.cmpFun c t)
  | 0x050 => some (.cmpEq c (.i i))
  | 0x051 => some (.cmpNe c (.i i))
  | 0x052 => some (.cmpLt c (.i i))
  | 0x053 => some (.cmpLe c (.i i))
  | 0x054 => some (.cmpLtu c (.i i))
  | 0x055 => some (.cmpLeu c (.i i))
  | 0x056 => some (.cmpTy c i)
  | 0x060 => some (.mov c t)
  | 0x061 => some (.settagR c t)
  | 0x062 => some (.tagof c t)
  | 0x068 => some (.movi c i)
  | 0x069 => some (.settag c i)
  | 0x070 => some (.mulS c t)
  | 0x071 => some (.mulU c t)
  | 0x072 => some (.divS c t)
  | 0x073 => some (.divU c t)
  | 0x080 => some (.ldW c m)
  | 0x081 => some (.ldB c m)
  | 0x082 => some (.ldBu c m)
  | 0x083 => some (.ldH c m)
  | 0x084 => some (.ldHu c m)
  | 0x085 => some (.ldS c m)
  | 0x086 => some (.ldSu c m)
  | 0x090 => some (.stW c m)
  | 0x091 => some (.stB c m)
  | 0x092 => some (.stH c m)
  | 0x093 => some (.stS c m)
  | 0x0A0 => some (.stm c m)
  | 0x0A1 => some (.ldm c m)
  | 0x0B0 => some (.pref c m)
  | 0x0C0 => some (.ldrv c m)
  | 0x0C1 => some (.stcn c t)
  | 0x0C2 => some (.cas c t)
  | 0x0C3 => some (.swap c t)
  | 0x0C4 => some (.fadd c t)
  | 0x0D0 => some (.barCO c t)
  | 0x0D1 => some (.barCE c t)
  | 0x0D2 => some (.barKO c t)
  | 0x0D3 => some (.barKE c t)
  | 0x0D4 => some (.barDO c t)
  | 0x0D5 => some (.barDE c t)
  | 0x0D6 => some (.barSO c t)
  | 0x0D7 => some (.barSE c t)
  | 0x0D8 => some (.cwbA c t)
  | 0x0D9 => some (.cinvA c t)
  | 0x0DA => some (.clockA c t)
  | 0x0DB => some (.cunlkA c t)
  | 0x0E0 => some (.tlbinvAll c t)
  | 0x0E1 => some (.tlbinvAsid c t)
  | 0x0E2 => some (.tlbinvVa c t)
  | 0x0E3 => some (.tlblock c t)
  | 0x0E4 => some (.tlbunlk c t)
  | 0x0F0 => some (.mfs c i)
  | 0x0F1 => some (.mts c i)
  | 0x0F2 => some (.mfb c i)
  | 0x0F3 => some (.mtb c i)
  | 0x100 => some (.ba c b)
  | 0x101 => some (.bnil c b)
  | 0x102 => some (.bnn c b)
  | 0x103 => some (.bz c b)
  | 0x104 => some (.bnz c b)
  | 0x105 => some (.bltz c b)
  | 0x106 => some (.bgez c b)
  | 0x110 => some (.call c b)
  | 0x120 => some (.jmpl c t)
  | 0x121 => some (.ret c t)
  | 0x122 => some (.callg c t)
  | 0x123 => some (.retg c t)
  | 0x124 => some (.rfe c t)
  | 0x125 => some (.escret c t)
  | 0x130 => some (.save c i)
  | 0x131 => some (.restore c i)
  | 0x140 => some (.bsend c t)
  | 0x141 => some (.brecv c t)
  | 0x142 => some (.bpeek c t)
  | 0x143 => some (.bcred c t)
  | 0x150 => some (.yokeOn c t)
  | 0x151 => some (.yokeOff c t)
  | 0x152 => some (.waite c i)
  | 0x153 => some (.async c t)
  | 0x154 => some (.dispatchsync c t)
  | 0x155 => some (.plotsync c t)
  | 0x156 => some (.wcs c t)
  | 0x160 => some (.saveh c m)
  | 0x161 => some (.loadh c m)
  | 0x180 => some (.addG c t)
  | 0x181 => some (.subG c t)
  | 0x182 => some (.mulG c t)
  | 0x183 => some (.divG c t)
  | 0x184 => some (.quoG c t)
  | 0x185 => some (.remG c t)
  | 0x186 => some (.negG c t)
  | 0x187 => some (.absG c t)
  | 0x190 => some (.cmpGEq c t)
  | 0x191 => some (.cmpGLt c t)
  | 0x192 => some (.cmpGLe c t)
  | 0x193 => some (.cmpGEql c t)
  | 0x1A0 => some (.floatG c t)
  | 0x1A1 => some (.truncG c t)
  | 0x1A2 => some (.zeropG c t)
  | 0x1A3 => some (.numpG c t)
  | 0x1B0 => some (.addiG c t)
  | 0x1B8 => some (.escrd c t)
  | 0x1B9 => some (.escwr c t)
  | 0x1C0 => some (.car c t)
  | 0x1C1 => some (.cdr c t)
  | 0x1C2 => some (.setcar c t)
  | 0x1C3 => some (.setcdr c t)
  | 0x1C4 => some (.cons c t)
  | 0x1C5 => some (.alloc c t)
  | 0x1C8 => some (.allocI c i)
  | 0x1D0 => some (.vref c t)
  | 0x1D1 => some (.vset c t)
  | 0x1D2 => some (.vlen c t)
  | 0x1E0 => some (.assq c t)
  | 0x1E1 => some (.memq c t)
  | 0x1E2 => some (.nthcdr c t)
  | 0x1E3 => some (.len c t)
  | 0x1E4 => some (.copyw c t)
  | 0x1E5 => some (.scant c t)
  | _ => none

/-- The command of core `c` that an instruction word of R68 names: majors 0x38 to 0x3B are Allotment instructions (R70),
whatever their func; reserved fields are kept, since ILLEGAL is the command's own effect (R69). -/
def decodeInsn (c : Fin 96) (w : Nat) : Option Instr :=
  let major := w / 2 ^ 26 % 64
  if 0x38 ≤ major ∧ major < 0x3C then some (.allotmentInstruction c (Fin.ofNat 4 major) (BitVec.ofNat 4 w) (fieldsT w))
  else insnOfKey c (keyOf w) (fieldsT w) (fieldsI w) (fieldsM w) (fieldsB w)

/-- The core and the word of a command that is an instruction of a core (R68); none for every other command. -/
def encodeInsn : Instr → Option (Fin 96 × Nat)
  | .addF c f => some (c, encA 0x01 0x02 0 f)
  | .subF c f => some (c, encA 0x01 0x02 1 f)
  | .addR c f => some (c, encA 0x01 0x02 2 f)
  | .subR c f => some (c, encA 0x01 0x02 3 f)
  | .and c f => some (c, encA 0x01 0x02 4 f)
  | .or c f => some (c, encA 0x01 0x02 5 f)
  | .xor c f => some (c, encA 0x01 0x02 6 f)
  | .andn c f => some (c, encA 0x01 0x02 7 f)
  | .sll c f => some (c, encA 0x01 0x02 8 f)
  | .srl c f => some (c, encA 0x01 0x02 9 f)
  | .sra c f => some (c, encA 0x01 0x02 10 f)
  | .addFl c f => some (c, encT 0x03 0 f)
  | .subFl c f => some (c, encT 0x03 1 f)
  | .mulFl c f => some (c, encT 0x03 2 f)
  | .divFl c f => some (c, encT 0x03 3 f)
  | .sqrtFl c f => some (c, encT 0x03 4 f)
  | .negFl c f => some (c, encT 0x03 5 f)
  | .absFl c f => some (c, encT 0x03 6 f)
  | .cvtFl c f => some (c, encT 0x03 7 f)
  | .cvtFx c f => some (c, encT 0x03 8 f)
  | .cmpEq c f => some (c, encA 0x04 0x05 0 f)
  | .cmpNe c f => some (c, encA 0x04 0x05 1 f)
  | .cmpLt c f => some (c, encA 0x04 0x05 2 f)
  | .cmpLe c f => some (c, encA 0x04 0x05 3 f)
  | .cmpLtu c f => some (c, encA 0x04 0x05 4 f)
  | .cmpLeu c f => some (c, encA 0x04 0x05 5 f)
  | .cmpFeq c f => some (c, encT 0x04 8 f)
  | .cmpFlt c f => some (c, encT 0x04 9 f)
  | .cmpFle c f => some (c, encT 0x04 10 f)
  | .cmpFun c f => some (c, encT 0x04 11 f)
  | .cmpTy c f => some (c, encI 0x05 6 f)
  | .mov c f => some (c, encT 0x06 0 f)
  | .settagR c f => some (c, encT 0x06 1 f)
  | .tagof c f => some (c, encT 0x06 2 f)
  | .movi c f => some (c, encI 0x06 8 f)
  | .settag c f => some (c, encI 0x06 9 f)
  | .mulS c f => some (c, encT 0x07 0 f)
  | .mulU c f => some (c, encT 0x07 1 f)
  | .divS c f => some (c, encT 0x07 2 f)
  | .divU c f => some (c, encT 0x07 3 f)
  | .ldW c f => some (c, encM 0x08 0 f)
  | .ldB c f => some (c, encM 0x08 1 f)
  | .ldBu c f => some (c, encM 0x08 2 f)
  | .ldH c f => some (c, encM 0x08 3 f)
  | .ldHu c f => some (c, encM 0x08 4 f)
  | .ldS c f => some (c, encM 0x08 5 f)
  | .ldSu c f => some (c, encM 0x08 6 f)
  | .stW c f => some (c, encM 0x09 0 f)
  | .stB c f => some (c, encM 0x09 1 f)
  | .stH c f => some (c, encM 0x09 2 f)
  | .stS c f => some (c, encM 0x09 3 f)
  | .stm c f => some (c, encM 0x0A 0 f)
  | .ldm c f => some (c, encM 0x0A 1 f)
  | .pref c f => some (c, encM 0x0B 0 f)
  | .ldrv c f => some (c, encM 0x0C 0 f)
  | .stcn c f => some (c, encT 0x0C 1 f)
  | .cas c f => some (c, encT 0x0C 2 f)
  | .swap c f => some (c, encT 0x0C 3 f)
  | .fadd c f => some (c, encT 0x0C 4 f)
  | .barCO c f => some (c, encT 0x0D 0 f)
  | .barCE c f => some (c, encT 0x0D 1 f)
  | .barKO c f => some (c, encT 0x0D 2 f)
  | .barKE c f => some (c, encT 0x0D 3 f)
  | .barDO c f => some (c, encT 0x0D 4 f)
  | .barDE c f => some (c, encT 0x0D 5 f)
  | .barSO c f => some (c, encT 0x0D 6 f)
  | .barSE c f => some (c, encT 0x0D 7 f)
  | .cwbA c f => some (c, encT 0x0D 8 f)
  | .cinvA c f => some (c, encT 0x0D 9 f)
  | .clockA c f => some (c, encT 0x0D 10 f)
  | .cunlkA c f => some (c, encT 0x0D 11 f)
  | .tlbinvAll c f => some (c, encT 0x0E 0 f)
  | .tlbinvAsid c f => some (c, encT 0x0E 1 f)
  | .tlbinvVa c f => some (c, encT 0x0E 2 f)
  | .tlblock c f => some (c, encT 0x0E 3 f)
  | .tlbunlk c f => some (c, encT 0x0E 4 f)
  | .mfs c f => some (c, encI 0x0F 0 f)
  | .mts c f => some (c, encI 0x0F 1 f)
  | .mfb c f => some (c, encI 0x0F 2 f)
  | .mtb c f => some (c, encI 0x0F 3 f)
  | .ba c f => some (c, encB 0x10 0 f)
  | .bnil c f => some (c, encB 0x10 1 f)
  | .bnn c f => some (c, encB 0x10 2 f)
  | .bz c f => some (c, encB 0x10 3 f)
  | .bnz c f => some (c, encB 0x10 4 f)
  | .bltz c f => some (c, encB 0x10 5 f)
  | .bgez c f => some (c, encB 0x10 6 f)
  | .call c f => some (c, encB 0x11 0 f)
  | .jmpl c f => some (c, encT 0x12 0 f)
  | .ret c f => some (c, encT 0x12 1 f)
  | .callg c f => some (c, encT 0x12 2 f)
  | .retg c f => some (c, encT 0x12 3 f)
  | .rfe c f => some (c, encT 0x12 4 f)
  | .escret c f => some (c, encT 0x12 5 f)
  | .save c f => some (c, encI 0x13 0 f)
  | .restore c f => some (c, encI 0x13 1 f)
  | .bsend c f => some (c, encT 0x14 0 f)
  | .brecv c f => some (c, encT 0x14 1 f)
  | .bpeek c f => some (c, encT 0x14 2 f)
  | .bcred c f => some (c, encT 0x14 3 f)
  | .yokeOn c f => some (c, encT 0x15 0 f)
  | .yokeOff c f => some (c, encT 0x15 1 f)
  | .waite c f => some (c, encI 0x15 2 f)
  | .async c f => some (c, encT 0x15 3 f)
  | .dispatchsync c f => some (c, encT 0x15 4 f)
  | .plotsync c f => some (c, encT 0x15 5 f)
  | .wcs c f => some (c, encT 0x15 6 f)
  | .saveh c f => some (c, encM 0x16 0 f)
  | .loadh c f => some (c, encM 0x16 1 f)
  | .addG c f => some (c, encT 0x18 0 f)
  | .subG c f => some (c, encT 0x18 1 f)
  | .mulG c f => some (c, encT 0x18 2 f)
  | .divG c f => some (c, encT 0x18 3 f)
  | .quoG c f => some (c, encT 0x18 4 f)
  | .remG c f => some (c, encT 0x18 5 f)
  | .negG c f => some (c, encT 0x18 6 f)
  | .absG c f => some (c, encT 0x18 7 f)
  | .cmpGEq c f => some (c, encT 0x19 0 f)
  | .cmpGLt c f => some (c, encT 0x19 1 f)
  | .cmpGLe c f => some (c, encT 0x19 2 f)
  | .cmpGEql c f => some (c, encT 0x19 3 f)
  | .floatG c f => some (c, encT 0x1A 0 f)
  | .truncG c f => some (c, encT 0x1A 1 f)
  | .zeropG c f => some (c, encT 0x1A 2 f)
  | .numpG c f => some (c, encT 0x1A 3 f)
  | .addiG c f => some (c, encT 0x1B 0 f)
  | .escrd c f => some (c, encT 0x1B 8 f)
  | .escwr c f => some (c, encT 0x1B 9 f)
  | .car c f => some (c, encT 0x1C 0 f)
  | .cdr c f => some (c, encT 0x1C 1 f)
  | .setcar c f => some (c, encT 0x1C 2 f)
  | .setcdr c f => some (c, encT 0x1C 3 f)
  | .cons c f => some (c, encT 0x1C 4 f)
  | .alloc c f => some (c, encT 0x1C 5 f)
  | .allocI c f => some (c, encI 0x1C 8 f)
  | .vref c f => some (c, encT 0x1D 0 f)
  | .vset c f => some (c, encT 0x1D 1 f)
  | .vlen c f => some (c, encT 0x1D 2 f)
  | .assq c f => some (c, encT 0x1E 0 f)
  | .memq c f => some (c, encT 0x1E 1 f)
  | .nthcdr c f => some (c, encT 0x1E 2 f)
  | .len c f => some (c, encT 0x1E 3 f)
  | .copyw c f => some (c, encT 0x1E 4 f)
  | .scant c f => some (c, encT 0x1E 5 f)
  | .allotmentInstruction c m fn f => some (c, encT (0x38 + m.val) fn.toNat f)
  | _ => none

end Sys2Proof
end

