-- ==== Sys2Proof/Config.lean ====
section
/-! DEFINITION. What the manual leaves to an implementation or does not state: constants with no body, so that
nothing can be proved about their values (the assumption log names each). -/

namespace Sys2Proof.Config

/-- The fused chip identity FABCHIP.ID (R382): every part has its own. -/
opaque chipId : BitVec 64

/-- ENTRY of a vendor dispatch entry: part of the base microcode image, which the manual does not print (R220, R229). -/
opaque vendorEntry : Nat → BitVec 14

/-- KIND (0, 1 or 2) and RDSRC of a vendor dispatch entry (R206, R220). -/
opaque vendorKind : Nat → Fin 3
opaque vendorRdsrc : Nat → Bool

/-- Microword `a` of the base microcode image (R220, R229). -/
opaque vendorMicro : Nat → BitVec 24

/-- Nanoword `n` of the base microcode image (R220, R229). -/
opaque vendorNano : Nat → BitVec 144

/-- The polarity of the parity bits of the control store: whether PAR of a word with an even number of ones is 1 (R229
gives PAR no reset value and no polarity). -/
opaque csParity : Bool

/-- A value the manual does not state, fresh for each number it is applied to. -/
opaque freeValue : Nat → BitVec 64

/-- Firmware version and ROM version returned by IDENT (R417 gives no values). -/
opaque fwVersion : BitVec 32
opaque romVersion : BitVec 16

/-- Whether an Ed25519 signature verifies under the Caertik key, which the manual does not print (R400, R421). -/
opaque signatureOk : List (BitVec 8) → Bool

/-- The image found on the serial NOR flash at offset 0 and whether a flash answers (R401, R492). -/
opaque flashImage : List (BitVec 8)
opaque flashPresent : Bool

/-- Whether writing and verifying the flash succeeds (R422, MODE 1). -/
opaque flashVerify : List (BitVec 8) → Bool

/-- The status byte SCRSTAT gives a script slot that is stopped, running or waiting (R417 names the byte and gives no
code). -/
opaque scriptState : Nat → BitVec 8

/-- The weights WC_CORE, WW_CORE, WC_MEM, WW_MEM that the Bushel uses while no calibration record is valid (R441 gives
its gains and offsets then, not its weights). -/
opaque bushelWeight : Nat → BitVec 16

/-- The values that CALPAR and CALWT show at a power-up with no active record (R449 gives "active record"). -/
opaque bushelStaged : Nat → BitVec 32

end Sys2Proof.Config
end

