-- ==== Sys2Proof/Machine/State.lean ====
section
/-! DEFINITION. The state of the module: every register, buffer, queue, counter, mode and pin the manual names, as
plain data, the queue of waiting commands, and the state right after reset. -/

namespace Sys2Proof.Machine

/-- A sparse table: (key, value) pairs with the keys rising and no entry equal to the table's default. -/
abbrev Tbl (α : Type) := List (Nat × α)

/-- The value at a key, or the default. -/
def Tbl.get {α : Type} (d : α) : Tbl α → Nat → α
  | [], _ => d
  | (k, v) :: r, key => if k = key then v else Tbl.get d r key

/-- Insert a key that the table does not hold, keeping the keys rising. -/
def Tbl.insert {α : Type} : Tbl α → Nat → α → Tbl α
  | [], key, v => [(key, v)]
  | (k, x) :: r, key, v => if key < k then (key, v) :: (k, x) :: r else (k, x) :: Tbl.insert r key v

/-- Drop a key. -/
def Tbl.erase {α : Type} : Tbl α → Nat → Tbl α
  | [], _ => []
  | (k, x) :: r, key => if k = key then Tbl.erase r key else (k, x) :: Tbl.erase r key

/-- Set a key to a value; setting the default removes the entry. -/
def Tbl.set {α : Type} [DecidableEq α] (d : α) (t : Tbl α) (key : Nat) (v : α) : Tbl α :=
  if v = d then Tbl.erase t key else Tbl.insert (Tbl.erase t key) key v

/-- The table is in its one form: keys strictly rising, no entry equal to the default. -/
def Tbl.wf {α : Type} [DecidableEq α] (d : α) : Tbl α → Bool
  | [] => true
  | [(_, v)] => !(v = d)
  | (k, v) :: (k', v') :: r => (!(v = d)) && decide (k < k') && Tbl.wf d ((k', v') :: r)

/-- STATUS (R58) by its fields; every other bit is reserved and reads zero. -/
structure Status where
  wld : Bool := false
  lvl : Bool := true
  mrk : Bool := false
  yk : Bool := false
  early : Bool := false
  p : Bool := false
  impp : Bool := false
  cwp : BitVec 3 := 0
  ml : BitVec 4 := 15
deriving DecidableEq, Repr, Inhabited

/-- A result of MUL or DIV not yet written (R61): which pair, the two values, the cycle of the write. -/
structure PendMD where
  div : Bool
  hi : Val
  lo : Val
  due : Nat
deriving DecidableEq, Repr, Inhabited

/-- What a finished wait hands to the waiting instruction (R194). -/
inductive WaitResult where
  | none
  | word (w : Word)
  | error (reason : Nat)
  | answer (w : Word)
deriving DecidableEq, Repr, Inhabited

/-- The wait of a bank (R194): its mask for WAITE, the transaction or the object it waits for, whether it ended and
with what; how far a BRECV has copied and the bin whose oldest message it holds (R326); the waiting instruction's word and
the general registers as it read them at issue. -/
structure WaitRec where
  cause : Nat := 0
  mask : Nat := 0
  key : Nat := 0
  slot : Nat := 0
  tagb : BitVec 8 := 0
  done : Bool := false
  res : WaitResult := .none
  pos : Nat := 0
  hold : Option Nat := none
  iw : Option Nat := none
  gr : Option (Tbl Word) := none
deriving DecidableEq, Repr, Inhabited

/-- The memory types of R252 by name. -/
inductive MemType where
  | cacheable
  | bin
  | device
  | uncached
deriving DecidableEq, Repr, Inhabited

/-- A destination of a microword outside the temporaries (R211). -/
inductive MDst where
  | reg (spec : Nat)
  | spr (n : Nat)
deriving DecidableEq, Repr

/-- A staged memory operation (R213): its address, physical address and type, the word, and what a CAS expects. -/
structure MemStage where
  ea : Val
  pa : Nat
  mt : MemType
  w : Word
  old : Option Word
deriving DecidableEq, Repr

/-- The state of a microcode routine that a bank is running (R214-R217): the micro address, the latched sources, the
temporaries, MDR and whether it is delivered, TMO, the cycles of the segment, the commit group, the cycle of COMMIT. -/
structure MicroSt where
  u : Nat
  entry : Nat
  rd : Word
  rs1 : Word
  rs2 : Word
  iw : Val
  t : Tbl Word := []
  mdr : Word := nilWord
  rdy : Bool := true
  tmo : Bool := false
  cycles : Nat := 0
  regs : List (MDst × Word) := []
  mems : List MemStage := []
  committed : Option Nat := none
deriving DecidableEq, Repr, Inhabited

/-- One register bank (R46, R54, R202): general registers (index 0-7 gl, 8 + j P[j]), bank special registers, bank
state, logs and reservation. -/
structure Bank where
  gr : Tbl Word := []
  status : Status := {}
  cause : Val := 0
  tval : Val := 0
  aepc : Val := 0
  twp : BitVec 3 := 7
  ph : Val := 0
  pl : Val := 0
  qt : Val := 0
  rm : Val := 0
  allocp : Val := 0
  allocl : Val := 0
  escbase : Val := 0
  escpc : Val := 0
  pkr : Val := 0
  tenant : Val := 0
  sscr0 : Val := 0
  sscr1 : Val := 0
  ttb : Val := 0
  asid : Val := 0
  rslog : List Nat := []
  rsovs : Val := 0
  satblog : List Word := []
  st : BitVec 3 := 0
  wcause : BitVec 3 := 0
  prev : BitVec 3 := 0
  pri : BitVec 2 := 0
  rej : Bool := false
  pc : Val := 0
  btmr : BitVec 32 := 0
  bevt : BitVec 4 := 0
  pend : List PendMD := []
  resv : Option Nat := none
  resvCy : Nat := 0
  impCount : Nat := 0
  impReason : Nat := 0
  wait : Option WaitRec := none
  micro : Option MicroSt := none
  futNext : Nat := 0
  expres : Val := 0
  scanPend : Bool := false
  flipPend : Bool := false
  exempt : Bool := false
deriving DecidableEq, Repr, Inhabited

/-- What a store writes (R245): a whole word, or the low bytes of a value at a byte offset. -/
inductive StoreData where
  | word (w : Word)
  | sub (size : Nat) (v : Val)
deriving DecidableEq, Repr, Inhabited

/-- A translation held in a TLB (R261). -/
structure TlbEntry where
  world : Bool
  asid : BitVec 16
  g : Bool
  vpn : Nat
  size : Nat
  frame : Nat
  mt : MemType
  key : Nat
  w : Bool
  x : Bool
  u : Bool
  d : Bool
deriving DecidableEq, Repr, Inhabited

/-- An entry of the store buffer (R245); `mrk`: it issued with STATUS.MK set; `snap`: the snapshot barrier covers it (R141,
R125); `pre`: it issued before the boundary into Evacuate (R156); `pc` is the address of the store, which a violation at its
drain logs (R189); `sup`: it issued at supervisor level; `tr`: the translation it was made through (R264). -/
structure SBEntry where
  bank : Fin 4
  world : Bool
  pa : Nat
  mt : MemType
  data : StoreData
  mrk : Bool
  pc : Val
  snap : Bool := true
  pre : Bool := false
  sup : Bool := true
  tr : Option TlbEntry := none
deriving DecidableEq, Repr, Inhabited

/-- The per-world special registers of a core (R54, R171, R200). -/
structure CoreWorld where
  tsbr : Val := 0
  trapent : Val := 0
  escvec : Val := 0
  escstk : Val := 0
  bankwin : Val := 0
deriving DecidableEq, Repr, Inhabited

/-- A granule held in an L1 or in the side buffer, with the world that filled it and its way of an L1 (R167, R267, R268). -/
structure L1Line where
  gran : Nat
  world : Bool
  way : Nat := 0
deriving DecidableEq, Repr, Inhabited

/-- One core outside its banks: escalation set, per-world registers, store buffer, dispatch copy, TLBs, first-level
caches, locks, pending machine checks, Harrow and debug state. -/
structure Core where
  esc : Tbl Word := []
  inEsc : Bool := false
  w0 : CoreWorld := {}
  w1 : CoreWorld := {}
  sb : List SBEntry := []
  sbHeld : Bool := false
  dcopy : Tbl Val := []
  dloaded : Bool := false
  itlb : List TlbEntry := []
  dtlb : List TlbEntry := []
  l2tlb : List TlbEntry := []
  l1i : List L1Line := []
  l1d : List L1Line := []
  side : List L1Line := []
  wayErr : Tbl (Nat × Nat) := []
  locks : List Nat := []
  mchk0 : List Val := []
  mchk1 : List Val := []
  gcInt0 : Bool := false
  gcInt1 : Bool := false
  run : Option (Fin 4) := none
  lastRun : Fin 4 := 3
  tieOut : Bool := false
  quantum : Nat := 0
  frozen : Bool := false
  frzWhy : Nat := 0
  pg : Bool := false
  freeBouts : Nat := 0
  halted : Bool := false
  stopReq : Bool := false
  stepLeft : Nat := 0
  stepHold : Bool := false
deriving DecidableEq, Repr, Inhabited

/-- An event that a pair's latch holds for the next yoke tick (R305). -/
inductive LatchEv where
  | bevt (b : Fin 4) (bit : Nat)
  | waitDone (b : Fin 4) (res : WaitResult)
  | mchk (w : Bool) (v : Val)
  | gcInt (w : Bool)
  | ipend (w : Bool) (bit : Nat)
  | icpend (w : Bool) (sender : Nat)
  | tlbinv (id : Nat)
  | ovf (n : Nat)
deriving DecidableEq, Repr, Inhabited

/-- A yoke pair outside its register block: the latch, a hand-over or release waiting for its tick, TIMEL, and by bank what
the odd core of a yoked pair holds of a routine in which it differs from the even core (R302). -/
structure Pair where
  latch : List LatchEv := []
  handover : Option (Fin 4) := none
  release : Option (Fin 4 × Val) := none
  timel : Val := 0
  micro : Tbl (Option MicroSt) := []
deriving DecidableEq, Repr, Inhabited

/-- The states of a line at a coherent agent (R275) that hold a copy. -/
inductive LineSt where
  | m
  | e
  | s
  | f
deriving DecidableEq, Repr, Inhabited

/-- A line of eight words (R42, R267). -/
structure Line where
  words : List Word
  poison : Bool := false
deriving DecidableEq, Repr, Inhabited

/-- A line held by a coherent agent, with the world that filled it. -/
structure AgentLine where
  st : LineSt
  world : Bool
  line : Line
deriving DecidableEq, Repr, Inhabited

/-- A line of an L3 array. -/
structure L3Line where
  dirty : Bool
  line : Line
deriving DecidableEq, Repr, Inhabited

/-- The requests of R275. -/
inductive Req where
  | rd
  | ro
  | upg
  | cwb
  | cinv
  | uc (write : Option (Nat × Word))
deriving DecidableEq, Repr, Inhabited

/-- The directory states of R273. -/
inductive DState where
  | i
  | sh
  | ex
deriving DecidableEq, Repr, Inhabited

/-- A directory entry (R273); `use` orders the entries of a set by last use (R285). -/
structure DirEntry where
  blk : Bool := false
  dst : DState := .i
  fwd : Option Nat := none
  pv : List Nat := []
  use : Nat := 0
deriving DecidableEq, Repr, Inhabited

/-- The transient states at an agent (R281). -/
inductive AgentTr where
  | isD
  | imD
  | smG
  | miA
deriving DecidableEq, Repr, Inhabited

/-- The transient states at the home (R282). -/
inductive HomeTr where
  | bm
  | bp
  | bc
  | br
  | bu
deriving DecidableEq, Repr, Inhabited

/-- A transaction in progress at a home for one line: the request, its state, the agents whose acknowledgement is
awaited, the agents still to try for data, whether data has been sent to the requester, whether it came from a buffer or
from memory and not from a copy that stays, whether CMP has arrived, the granule whose request a recall serves. -/
structure HomeTxn where
  req : Req
  agent : Nat
  world : Bool
  tr : HomeTr
  acks : List Nat := []
  respTry : List Nat := []
  sent : Bool := false
  back : Bool := false
  cmp : Bool := false
  cont : Option Nat := none
deriving DecidableEq, Repr, Inhabited

/-- The probes of R275. -/
inductive Probe where
  | prd (dst : Nat)
  | pro (dst : Nat)
  | pinv
  | pcln
  | fdem
deriving DecidableEq, Repr, Inhabited

/-- An acknowledgement of a probe under way to the home (R277). -/
structure ProbeAck where
  agent : Nat
  gran : Nat
  probe : Probe
  nodata : Bool
  dirty : Option Line
deriving DecidableEq, Repr, Inhabited

/-- Data or a grant under way to an agent (R278). -/
structure FillMsg where
  agent : Nat
  gran : Nat
  data : Option Line
  gnt : Bool
  final : LineSt
  world : Bool
deriving DecidableEq, Repr, Inhabited

/-- A request waiting in a slice's queue (R280). -/
structure QReq where
  gran : Nat
  agent : Nat
  req : Req
  world : Bool
deriving DecidableEq, Repr, Inhabited

/-- Main memory and everything of the coherence protocol: DRAM values and tags by storage address, poisoned granules,
granules with a symbol in error, agent lines, victim buffers, L3, directories, home transactions, messages under way, the next
granule and the latest read of each channel's scrub, parity errors not yet met (in a first-level array by core, granule and
array: 0 L1I, 1 L1D, 2 the side buffer). -/
structure Mem where
  vals : List Host.Cell := []
  tags : List Host.Cell := []
  poison : List Nat := []
  ecc : Tbl Nat := []
  lines : Tbl (Option AgentLine) := []
  victims : Tbl (Option Line) := []
  l3 : Tbl (Option L3Line) := []
  dir : Tbl DirEntry := []
  txns : Tbl (Option HomeTxn) := []
  queue : List QReq := []
  nacked : List QReq := []
  probes : List (Nat × Nat × Probe) := []
  acks : List ProbeAck := []
  fills : List FillMsg := []
  cmps : List (Nat × Nat) := []
  wbs : List (Nat × Nat × Line) := []
  staleWbs : List (Nat × Nat) := []
  evns : List (Nat × Nat) := []
  wbacks : List (Nat × Nat) := []
  trans : Tbl (Option AgentTr) := []
  useCtr : Nat := 0
  scrubPos : Tbl Nat := []
  scrubAt : Tbl (Option Nat) := []
  upL2 : List (Nat × Nat) := []
  upL1 : List (Nat × Nat × Nat) := []
  upL3 : List Nat := []
  upDir : Tbl Nat := []
deriving DecidableEq, Repr, Inhabited

/-- A translation broadcast (R264): its match, the bank that waits, the recipients that have not acknowledged, the
lockable entries that it frees (R265). -/
structure TlbBcast where
  kind : Nat
  world : Bool
  asid : BitVec 16
  va : Nat
  core : Nat
  bank : Nat
  waiting : List Nat
  received : List Nat := []
  freed : List TlbEntry := []
deriving DecidableEq, Repr, Inhabited

/-- A load-assist request at a Winnower (R147). -/
structure Assist where
  k : Nat
  world : Bool
  addr : Nat
  tagb : BitVec 8
  core : Nat
  bank : Nat
  result : Option Word := none
deriving DecidableEq, Repr, Inhabited

/-- One Winnower and one world (R150, R153): mark stack (word pointers still to scan), spilled entries, whether a full spill
area stops it (R154), destination queue, current destination, lists of work left. -/
structure Wnw where
  stack : List Word := []
  spill : Nat := 0
  full : Bool := false
  destq : List Nat := []
  cur : Nat := 0
  toCopy : List Nat := []
  toFix : List (Nat × Nat) := []
  destWait : Bool := false
deriving DecidableEq, Repr, Inhabited

/-- The collection control of one world outside its register block: marked objects, copies made, objects left in
place, scans left, an abort held, drains awaited, mark bits of new objects that could not be set yet (R144, R150). -/
structure GcWorld where
  marked : List (Nat × Word) := []
  copied : List (Nat × Word) := []
  unmov : List Nat := []
  roots : List Nat := []
  exports : List Nat := []
  clearing : List Nat := []
  abort : Bool := false
  failing : Bool := false
  draining : Bool := false
  liveTodo : List Nat := []
  dests : List Nat := []
  newMarks : List (Nat × Word) := []
deriving DecidableEq, Repr, Inhabited

/-- A 64-entry TLB entry of a Winnower shares the form of a core's. Everything of the collectors. -/
structure Gc where
  wnw : Tbl Wnw := []
  w0 : GcWorld := {}
  w1 : GcWorld := {}
  assists : List Assist := []
  tlb : Tbl (List TlbEntry) := []
deriving DecidableEq, Repr, Inhabited

/-- A source entry of a bin engine (R324). -/
structure SrcEntry where
  bin : Nat
  node : Nat
  sbin : Nat
  host : Bool
  last : Option (BitVec 16)
  deficit : Nat := 0
  act : Bool := false
  idle : Nat := 0
deriving DecidableEq, Repr, Inhabited

/-- Who takes the answer to a message: a bank that waits in BSEND, the sender of a packet, a channel of the host data port,
or nobody any more. -/
inductive FlightBack where
  | bank (c : Nat) (b : Fin 4)
  | packet (p : Packet)
  | chan (c : Nat)
  | nobody
deriving DecidableEq, Repr, Inhabited

/-- A message in flight in an engine (R330): it has passed step 1 of R322 and is not answered. `err`: its bin has entered
Error since (R335). -/
structure Flight where
  bin : Nat
  node : Nat
  sbin : Nat
  host : Bool
  seq : BitVec 16
  ws : List Word
  world : Bool
  back : FlightBack
  err : Bool := false
deriving DecidableEq, Repr, Inhabited

/-- The bin engines outside the descriptors: source tables by engine, the share of the latest boundary by bin, the messages
in flight in order of arrival. -/
structure Bins where
  src : Tbl (List SrcEntry) := []
  share : Tbl (Option Nat) := []
  flight : List Flight := []
deriving DecidableEq, Repr, Inhabited

/-- A sequenced flit in the replay buffer (R346): its number, and its channel and packet when it is the packet's last. -/
structure TxFlit where
  seq : BitVec 10
  flit : Flit
  last : Option (Nat × Packet)
deriving DecidableEq, Repr, Inhabited

/-- What a transmit lane keeps (R336, R337): the scrambler's register and the last level sent. -/
structure LaneTx where
  scram : BitVec 31 := 0
  last : BitVec 2 := 0
deriving DecidableEq, Repr, Inhabited

/-- One Furrow link outside its register block. `rxOld` holds the packets received before the link last went down, whose
flits count in no FREED counter of today; `txCw` the bytes of the codeword in transmission; `line` the amplitudes that the
latest flit slot put on each lane. -/
structure Link where
  q : Tbl (List Packet) := []
  cur : List Flit := []
  curVc : Nat := 0
  curPkt : Option Packet := none
  replay : List TxFlit := []
  replayAt : Option Nat := none
  rr : Nat := 0
  sent : Tbl (BitVec 16) := []
  freed : Tbl (BitVec 16) := []
  pfreed : Tbl (BitVec 16) := []
  limit : Tbl Nat := []
  rxPart : List Flit := []
  rxVc : Nat := 0
  rxHeld : List (Nat × Packet) := []
  rxOld : List (Nat × Packet) := []
  accepted : Bool := false
  ackDue : Bool := false
  credDue : Bool := false
  nakDue : Bool := false
  nakWait : Bool := false
  quiesceTx : Bool := false
  quiesceSent : Bool := false
  ctrlDue : List (Nat × Word) := []
  markDue : Bool := false
  markIn : Bool := false
  markTa : Nat := 0
  markEcho : Nat := 0
  markT0 : Nat := 0
  stalls : Nat := 0
  uncorr : Nat := 0
  retrains : List Nat := []
  disabling : Bool := false
  out : List Flit := []
  txCw : List Byte := []
  txLanes : Tbl LaneTx := []
  line : List (List Int) := []
deriving DecidableEq, Repr, Inhabited

/-- An outstanding transaction (R373, R392): the packet, who waits, what came back. -/
structure Ott where
  busy : Bool := false
  done : Bool := false
  packet : Option Packet := none
  node : Nat := 0
  vc : Nat := 0
  core : Nat := 0
  bank : Nat := 0
  world : Bool := false
  kind : Nat := 0
  ref : Word := nilWord
  index : Nat := 0
  res : WaitResult := .error 13
  bouts : Nat := 0
  discard : Bool := false
  noCache : Bool := false
deriving DecidableEq, Repr, Inhabited

/-- The counters a source keeps for one destination node (R373, R375). -/
structure DstCtr where
  req : BitVec 16 := 0
  msg : BitVec 16 := 0
  unsync : Bool := true
  resyncing : Bool := false
  waiting : List (Nat × Packet) := []
deriving DecidableEq, Repr, Inhabited

/-- What a destination keeps for one source node (R374). -/
structure SrcOrd where
  valid : Bool := false
  req : BitVec 16 := 0
  msg : BitVec 16 := 0
  heldReq : List (BitVec 16 × Nat × Packet) := []
  heldMsg : List (BitVec 16 × Nat × Packet) := []
  gapReq : Nat := 0
  gapMsg : Nat := 0
deriving DecidableEq, Repr, Inhabited

/-- What the last DISC on a link said (R365). -/
structure Neigh where
  key : BitVec 64
  pref : Bool
  dist : Nat
  node : BitVec 16
  fab : Bool
  period : Nat
deriving DecidableEq, Repr, Inhabited

/-- A node held or freed in the root's address table (R366, R367). -/
structure AddrRec where
  chip : BitVec 64 := 0
  held : Bool := false
  age : Nat := 0
  blocked : Nat := 0
deriving DecidableEq, Repr, Inhabited

/-- A line of the remote object cache (R397). `bad`: a parity error in it (R42, R288). -/
structure RocLine where
  node : BitVec 16
  world : Bool
  slot : BitVec 32
  check : BitVec 15
  idx : Nat
  words : Tbl (Option Word)
  bad : Bool := false
deriving DecidableEq, Repr, Inhabited

/-- The sweep of a world's export table (R396): the next entry, those left of the present 256, and the bout, as
boundaries, in which these began. -/
structure Sweep where
  pos : Nat := 0
  left : Nat := 0
  bout : Option Nat := none
deriving DecidableEq, Repr, Inhabited

/-- A lease pass in progress (R394). -/
structure LeasePass where
  on : Bool := false
  pos : Nat := 0
  bouts : Nat := 0
  faulted : Bool := false
deriving DecidableEq, Repr, Inhabited

/-- The fabric unit and the remote reference machinery outside their register blocks. -/
structure Fab where
  links : Tbl Link := []
  ott : Tbl Ott := []
  dst : Tbl DstCtr := []
  src : Tbl SrcOrd := []
  resend : List (Nat × Nat × BitVec 16 × Nat) := []
  cache : List (Nat × Nat × Nat) := []
  neigh : Tbl (Option Neigh) := []
  best : BitVec 64 := 0
  bestPref : Bool := false
  bestSelf : Bool := true
  elect : Nat := 0
  lastDisc : Nat := 0
  joins : Tbl (Option (BitVec 64 × Nat)) := []
  addrs : Tbl AddrRec := []
  joinAge : Nat := 0
  rnodeOld : Bool := false
  roc : List RocLine := []
  epochs : List (Nat × BitVec 16) := []
  epochNo : Tbl (BitVec 16) := []
  lease0 : LeasePass := {}
  lease1 : LeasePass := {}
  sweep0 : Sweep := {}
  sweep1 : Sweep := {}
  nextPeriod : Option (BitVec 2) := none
  alignCnt : Nat := 0
  btAdj : Int := 0
  btJumpTo : BitVec 64 := 0
deriving DecidableEq, Repr, Inhabited

/-- An event of the Reeve's log (R413). -/
structure Event where
  num : BitVec 16
  cls : Nat
  code : Nat
  bout : Val
  index : Nat
  world : Nat
  d0 : Val
  d1 : Val
deriving DecidableEq, Repr, Inhabited

/-- A reply waiting at a port: its bytes, and the sequence number it delivers, if it was accepted. -/
structure Reply where
  bytes : List Byte
  seq : Option (BitVec 16)
deriving DecidableEq, Repr, Inhabited

/-- One instance of a port of the Reeve (R408, R409). -/
structure PortSt where
  lastAcc : BitVec 16 := 0xFFFF
  lastDone : BitVec 16 := 0xFFFF
  kept : List (BitVec 16 × Byte × Option (List Byte)) := []
  queue : List Reply := []
  out : List (BitVec 16) := []
  lost : List (BitVec 16) := []
  dropped : Nat := 0
  fresh : Bool := true
deriving DecidableEq, Repr, Inhabited

/-- A script slot (R425): code bytes, whether it runs, its registers. -/
structure Script where
  code : List Byte := []
  on : Bool := false
  pc : Nat := 0
  regs : Tbl Val := []
  wait : Nat := 0
  fault : Nat := 0
  slices : Nat := 0
  cut : Nat := 0
deriving DecidableEq, Repr, Inhabited

/-- A FABSEND waiting for its inner reply (R424). -/
structure FabSendSt where
  port : Port
  seq : BitVec 16
  node : BitVec 16
deriving DecidableEq, Repr, Inhabited

/-- A command whose own completion rule is not yet met (R411): a HALT until the core halts (R473), a SHARE until no
routine of the share runs (R222). -/
inductive ExecSt where
  | halt (port : Port) (seq : BitVec 16) (core : Nat)
  | share (port : Port) (seq : BitVec 16) (share owner : Nat)
deriving DecidableEq, Repr, Inhabited

/-- The Reeve (R400): ports, event log, scripts, staging area, firmware state, I3C interface. -/
structure Reeve where
  up : Bool := false
  ports : Tbl PortSt := []
  linkPorts : List (BitVec 16 × PortSt) := []
  linkVia : Tbl Nat := []
  inbox : List (Port × List Byte) := []
  log : List Event := []
  nextEvt : BitVec 16 := 0
  cursor : BitVec 16 := 0xFFFF
  evmask : BitVec 16 := 0x01FF
  staging : Tbl (BitVec 8) := []
  scripts : Tbl Script := []
  sliceFrom : Nat := 0
  fabsend : List FabSendSt := []
  exec : Option ExecSt := none
  todo : List (Port × Byte × BitVec 16 × List Byte) := []
  fwWait : Bool := false
  fwImage : List Byte := []
  enint : Bool := false
  dyn : Option (BitVec 7) := none
  hdr : Bool := false
  mwl : BitVec 16 := 1032
  mrl : BitVec 16 := 1035
  ibiLen : BitVec 8 := 3
  protoErr : Bool := false
  ibiSeen : Nat := 0
  ibiOut : List (List Byte) := []
  i3cOut : List Byte := []
  rstAct : Byte := 0
  nbFrom : Nat := 0
deriving DecidableEq, Repr, Inhabited

/-- A channel of the host data port (R433). -/
structure Chan where
  busy : Bool := false
  v : Bool := false
  seq : BitVec 16 := 0
  next : BitVec 16 := 0
  result : BitVec 32 := 0
  answer : Option (BitVec 32) := none
deriving DecidableEq, Repr, Inhabited

/-- The host data port outside its register block (R428-R437); `readOut` is the completion of the last read, none for a
Completer Abort, `readEp` its EP bit. -/
structure HostPort where
  chans : Tbl Chan := []
  hnote : Tbl Val := []
  msix : Tbl Val := []
  pba : Tbl Nat := []
  vectors : List Nat := []
  mbcmd : Tbl Val := []
  mbrpl : Tbl Val := []
  cmdb : Bool := false
  rplv : Bool := false
  readOut : Option (List Byte) := some []
  readEp : Bool := false
deriving DecidableEq, Repr, Inhabited

/-- The JTAG port (R470, R471). -/
structure Jtag where
  ir : Byte := 0x01
  rx : List Byte := []
  tx : List Byte := []
  cur : Option Reply := none
  dr : BitVec 32 := 0
deriving DecidableEq, Repr, Inhabited

/-- The Bushel die (R439-R455): its registers, the remainder of each account, the power of each rail from its last sample
and its energy below 1 q (R440, in units of 2^-32 pW tick), the open span as runs of ticks with the two powers, the
calibration records, what is staged to become active, when ARM was taken, the read range, its I3C interface. -/
structure Bushel where
  on : Bool := true
  regs : Tbl Val := []
  frac : Tbl Nat := []
  coreP : Int := 0
  memP : Int := 0
  coreRem : Int := 0
  memRem : Int := 0
  segs : List (Nat × Int × Int) := []
  otp : List (List Val) := []
  pendRec : Option Nat := none
  armed : Option Nat := none
  rdAddr : BitVec 16 := 0x00F8
  rdLen : BitVec 16 := 536
  rdSet : Bool := false
  protoErr : Bool := false
  dyn : Option (BitVec 7) := none
  readOut : List Byte := []
  as : Nat := 0
deriving DecidableEq, Repr, Inhabited

/-- The pins with a level that the module reads or drives (R488), and the state of each supply. -/
structure Pins where
  resetN : Bool := false
  railBad : Bool := false
  faultN : Bool := true
  thermtripN : Bool := true
  alertN : Bool := true
  boutout : Nat := 0
  tamperN : Bool := true
  vddBsh : Bool := true
deriving DecidableEq, Repr, Inhabited

/-- What the activity counters of the running bout hold for one account (R442). -/
structure Activity where
  c : Nat := 0
  w : Nat := 0
deriving DecidableEq, Repr, Inhabited

/-- The whole state of the block. -/
structure State where
  pending : List Instr := []
  cycle : Nat := 0
  bounds : Nat := 0
  free : Nat := 0
  regs : Tbl Val := []
  banks : Tbl Bank := []
  cores : Tbl Core := []
  pairs : Tbl Pair := []
  mem : Mem := {}
  lockTlb : Tbl (Option TlbEntry) := []
  bcasts : Tbl (Option TlbBcast) := []
  nextBcast : Nat := 0
  csBad : List (Nat × Nat × Nat) := []
  gc : Gc := {}
  bins : Bins := {}
  fab : Fab := {}
  reeve : Reeve := {}
  host : HostPort := {}
  jtag : Jtag := {}
  bsh : Bushel := {}
  pins : Pins := {}
  thMiss : Tbl Nat := []
  trLast : Tbl Nat := []
  trPos : Tbl Nat := []
  act : Tbl Activity := []
  frames : List (List Byte) := []
  tripped : Bool := false
  flash : Option (List (BitVec 8)) := none
  temp : Int := 0
  hotHold : Bool := false
deriving DecidableEq, Repr, Inhabited

/-- The machine right after reset: held in cold reset with every supply valid and RESET_N low, every register at its
Reset value and every command queue empty. -/
def State.reset : State := {}

/-- Why a step can stop. Raised by nothing on a path the manual gives an effect. -/
inductive Fault where
  /-- A microcode routine met a code that the manual marks vendor only and whose effect it does not print (R212, R213):
  raised by ALLOTMENT_INSTRUCTION and the generic routines. Safe: the model stops where the hardware goes on. -/
  | vendorOnly (u : Nat)
deriving DecidableEq, Repr

/-- Why a command has no meaning. -/
inductive Refusal where
  /-- The command's meaning is not written yet. Safe. -/
  | notModelled (mnemonic : String)
deriving DecidableEq, Repr

end Sys2Proof.Machine
end

