-- ==== Sys2Proof/Machine/RegMap.lean ====
section
/-! DEFINITION. The module register space (R17): the offsets of every register the manual gives, the reset value and
the writable bits of each, and the raw read and write of a register's storage. -/

namespace Sys2Proof.Machine

/-- Field [hi:lo] written with `x` over zero. -/
def fld (lo x : Nat) : Nat := x <<< lo

/-- A mask of the bits [hi:lo]. -/
def mask (hi lo : Nat) : Nat := (2 ^ (hi + 1 - lo) - 1) <<< lo

/-- Block bases of R17. -/
def coreBase (c : Nat) : Nat := 0x01000000 + c * 0x00100000
def clusterBase (k : Nat) : Nat := 0x08000000 + k * 0x00100000
def gcBase (w : Nat) : Nat := 0x08048000 + w * 0x100
def wnwBase (k : Nat) : Nat := clusterBase k + 0x40000
def engBase (k : Nat) : Nat := clusterBase k + 0xC0000
def linkBase (i : Nat) : Nat := 0x0B000000 + i * 0x00010000
def pairBase (p : Nat) : Nat := 0x00400000 + 0x40 * p
def binBase (n : Nat) : Nat := 0x0A000000 + n * 0x40
def dbgBase (c : Nat) : Nat := 0x0E000000 + c * 0x00010000
def traceBase (k : Nat) : Nat := 0x0E600000 + k * 0x00010000
def modCtr (i : Nat) : Nat := 0x0E800000 + 8 * i
def worldRegs (c w : Nat) : Nat := coreBase c + 0x200 + 0x80 * w
def mailBase (w : Nat) : Nat := 0x0F000000 + w * 0x00010000
def hostWin (n : Nat) : Nat := 0x0C000000 + 0x20 * n

def rGLBCLEN : Nat := 0x08
def rGLBSTRAP : Nat := 0x10
def rGLBBOOT : Nat := 0x18
def rBTNUM : Nat := 0x00100000
def rBTCTL : Nat := 0x00100008
def rBTSTAT : Nat := 0x00100010
def rBTJUMP : Nat := 0x00100018
def rBTSTEP : Nat := 0x00100020
def rRSTCAUSE : Nat := 0x00200000
def rPWRSTAT : Nat := 0x00200008
def rTHCTL : Nat := 0x00200010
def rTHSTAT : Nat := 0x00200018
def rNBCTL : Nat := 0x00200020
def rTHSENS (k : Nat) : Nat := 0x00200040 + 8 * k
def rWRREC (c : Nat) : Nat := 0x00200100 + 8 * c
def rVLSTAT : Nat := 0x00300000
def rVLCLR : Nat := 0x00300008
def rFRZC0 : Nat := 0x00300040
def rFRZC1 : Nat := 0x00300048
def rFRZP : Nat := 0x00300050
def rVLOG (n : Nat) : Nat := 0x00300400 + 32 * n
def rFENCED (g : Nat) : Nat := 0x00301000 + 8 * g
def rFENCEB (g : Nat) : Nat := 0x00303000 + 8 * g
def rMCSTAT : Nat := 0x09000000
def rMCCE : Nat := 0x09000008
def rMCUE : Nat := 0x09000010
def rMCLAST : Nat := 0x09000018
def rSCRUB : Nat := 0x09000020
def rMERR (w : Nat) : Nat := 0x09000040 + 8 * w
def rFABCTL : Nat := 0x0B100000
def rFABNODE : Nat := 0x0B100008
def rFABCHIP : Nat := 0x0B100010
def rFABROOT : Nat := 0x0B100018
def rFABSTAT : Nat := 0x0B100020
def rFABRTF : Nat := 0x0B100028
def rFABUNR : Nat := 0x0B100040
def rFABHOP : Nat := 0x0B100048
def rFABHELD : Nat := 0x0B100050
def rFABDUP : Nat := 0x0B100058
def rFABBAD : Nat := 0x0B100060
def rFABNOMATCH : Nat := 0x0B100068
def rFABRSND : Nat := 0x0B100070
def rLNKCLS (i : Nat) : Nat := 0x0B100100 + 8 * i
def rRTSEG (n : Nat) : Nat := 0x0B200000 + 8 * n
def rRTMOD (n : Nat) : Nat := 0x0B202000 + 8 * n
def rHPSTAT : Nat := 0x0C000100
def rHBADTAG : Nat := 0x0C000108
def rHDBIGN : Nat := 0x0C000110
def rDENT (key : Nat) : Nat := 0x0D000000 + 8 * key
def rTATTR (t : Nat) : Nat := 0x0D002000 + 8 * (t - 0x20)
def rCSOWN : Nat := 0x0D003000
def rCSGRANT : Nat := 0x0D003008
def rCSPATCH : Nat := 0x0D003010
def rCSREP : Nat := 0x0D003018
def rCSUNC : Nat := 0x0D003020
def rCSLAST : Nat := 0x0D003028
def rMWORD (a : Nat) : Nat := 0x0D010000 + 8 * a
def rNANO (n : Nat) : Nat := 0x0D040000 + 32 * n
def rPLOT (p : Nat) : Nat := 0x08080000 + 8 * p
def rMIRBOUT : Nat := 0x0F810000
def rMIRRNG : Nat := 0x0F810008
/-- Two settings with no register of their own, kept past the end of the space: the carve-out in units of 256 MiB
(R15) and the remote object cache size in MiB (R271), both shown in FEAT2. -/
def rCARVE : Nat := 0x10000000
def rROCSZ : Nat := 0x10000008
/-- Kept past the end of the space: bit 0, the configuration items of R419 are closed until the next cold reset (R460). -/
def rCLOSED : Nat := 0x10000010

/-- The keys the manual assigns to instructions (R70 and the encoding tables): major, func. -/
def assignedFuncs : Nat → List Nat
  | 0x01 => [0, 1, 2, 3, 4, 5, 6, 7, 8, 9, 10]
  | 0x02 => [0, 1, 2, 3, 4, 5, 6, 7, 8, 9, 10]
  | 0x03 => [0, 1, 2, 3, 4, 5, 6, 7, 8]
  | 0x04 => [0, 1, 2, 3, 4, 5, 8, 9, 10, 11]
  | 0x05 => [0, 1, 2, 3, 4, 5, 6]
  | 0x06 => [0, 1, 2, 8, 9]
  | 0x07 => [0, 1, 2, 3]
  | 0x08 => [0, 1, 2, 3, 4, 5, 6]
  | 0x09 => [0, 1, 2, 3]
  | 0x0A => [0, 1]
  | 0x0B => [0]
  | 0x0C => [0, 1, 2, 3, 4]
  | 0x0D => [0, 1, 2, 3, 4, 5, 6, 7, 8, 9, 10, 11]
  | 0x0E => [0, 1, 2, 3, 4]
  | 0x0F => [0, 1, 2, 3]
  | 0x10 => [0, 1, 2, 3, 4, 5, 6]
  | 0x11 => [0]
  | 0x12 => [0, 1, 2, 3, 4, 5]
  | 0x13 => [0, 1]
  | 0x14 => [0, 1, 2, 3]
  | 0x15 => [0, 1, 2, 3, 4, 5, 6]
  | 0x16 => [0, 1]
  | 0x18 => [0, 1, 2, 3, 4, 5, 6, 7]
  | 0x19 => [0, 1, 2, 3]
  | 0x1A => [0, 1, 2, 3]
  | 0x1B => [0, 8, 9]
  | 0x1C => [0, 1, 2, 3, 4, 5, 8]
  | 0x1D => [0, 1, 2]
  | 0x1E => [0, 1, 2, 3, 4, 5]
  | _ => []

/-- The keys whose instruction needs the supervisor level (the Level columns of R95-R104). -/
def supervisorKey (key : Nat) : Bool :=
  [0x0DA, 0x0DB, 0x0E0, 0x0E1, 0x0E2, 0x0E3, 0x0E4, 0x0F2, 0x0F3, 0x124, 0x150, 0x151, 0x155, 0x156, 0x160, 0x161].contains key

/-- The vendor image's dispatch entry of a key (R206, R220): V and S as the encoding tables give them; KIND, RDSRC and
ENTRY, which the manual does not print, left to Config. -/
def vendorDent (key : Nat) : Val :=
  if (assignedFuncs (key / 16)).contains (key % 16) then
    (0x80000000 : Val) ||| (if supervisorKey key then 0x40000000 else 0) |||
      v64 (fld 28 (Config.vendorKind key).val) ||| (if Config.vendorRdsrc key then 0x08000000 else 0) |||
      ((Config.vendorEntry key).setWidth 64)
  else 0

/-- Reset value of a register of a core block (R202), by offset in the block. -/
def resetCore (o : Nat) : Val := if o = 0x0008 then 0x400 else 0

/-- Reset value of a register of a cluster block (R153, R293, R385), by cluster and offset in the block. -/
def resetCluster (k o : Nat) : Val :=
  if o = 0x10018 then 21845
  else if o = 0x40000 then 3
  else if k = 0 ∧ (o = 0x48000 ∨ o = 0x48100) then 0x700
  else if k = 0 ∧ (o = 0x48060 ∨ o = 0x48160) then v64 (fld 32 256 + 12288)
  else if k = 0 ∧ (o = 0x48068 ∨ o = 0x48168) then v64 (fld 20 1)
  else if k = 0 ∧ 0x80000 ≤ o ∧ o < 0xC0000 then v64 (fld 16 (((o - 0x80000) / 8) % 12))
  else 0

/-- Reset value of a descriptor register of bin `n` (R315). -/
def resetBin (n o : Nat) : Val :=
  if o = 0x00 then v64 (fld 16 (n % 12))
  else if o = 0x08 then 6
  else if o = 0x20 then v64 (fld 16 1 + 1024)
  else 0

/-- Reset value of a link register (R356). -/
def resetLink (o : Nat) : Val :=
  if o = 0x00 then 0xE0
  else if o = 0x18 then v64 (fld 16 0x3FF)
  else 0

/-- Reset value of a fabric control register (R382). -/
def resetFab (o : Nat) : Val :=
  if o = 0x00 then 4
  else if o = 0x10 then Config.chipId
  else if o = 0x20 then 0xFF00
  else if 0x100 ≤ o ∧ o < 0x130 then 2
  else 0

/-- Reset value of a debug register (R474, R478), by offset in the core's part. -/
def resetDbg (o : Nat) : Val :=
  if o = 0x148 ∨ o = 0x158 then 3
  else if 0x200 ≤ o ∧ o < 0x240 then 0x6000
  else 0

/-- The Reset column of every register (R5); zero wherever the manual gives 0 and at every offset it leaves
unassigned (R7). -/
def regReset (off : Nat) : Val :=
  if off < 0x100000 then
    (if off = 0 then 0xCA9600A1 else if off = rGLBCLEN then 0xFFF else 0)
  else if off < 0x200000 then
    (if off = rBTCTL then 1 else if off = rBTSTAT then v64 (fld 56 7 + fld 48 0xFF) else 0)
  else if off < 0x300000 then
    (if off = rRSTCAUSE then 1 else if off = rTHCTL then v64 (fld 24 120 + fld 16 105 + fld 8 95 + 1) else 0)
  else if off < 0x01000000 then 0
  else if off < 0x07000000 then resetCore (off % 0x100000)
  else if off < 0x08000000 then 0
  else if off < 0x08C00000 then resetCluster ((off - 0x08000000) / 0x100000) (off % 0x100000)
  else if off < 0x09000000 then 0
  else if off < 0x0A000000 then (if off = rSCRUB then v64 (fld 31 1 + 1024) else 0)
  else if off < 0x0A040000 then resetBin ((off - 0x0A000000) / 0x40) (off % 0x40)
  else if off < 0x0B000000 then 0
  else if off < 0x0B060000 then resetLink (off % 0x10000)
  else if off < 0x0B100000 then 0
  else if off < 0x0B101000 then resetFab (off - 0x0B100000)
  else if off < 0x0D000000 then 0
  else if off < 0x0D002000 then (if 0x380 ≤ (off - 0x0D000000) / 8 ∧ (off - 0x0D000000) / 8 < 0x3C0 then 0 else vendorDent ((off - 0x0D000000) / 8))
  else if off < 0x0D010000 then 0
  else if off < 0x0D030000 then
    (let a := (off - 0x0D010000) / 8
     if a < 0x3000 then (Config.vendorMicro a).setWidth 64 else 0)
  else if off < 0x0D040000 then 0
  else if off < 0x0D080000 then
    (let n := (off - 0x0D040000) / 32
     if n < 0x1800 then
       (if off % 32 = 0 then (Config.vendorNano n).setWidth 64
        else if off % 32 = 8 then ((Config.vendorNano n) >>> 64).setWidth 64 &&& ~~~(v64 (mask 19 16))
        else if off % 32 = 16 then ((Config.vendorNano n) >>> 128).setWidth 64 &&& v64 (mask 7 0) else 0)
     else 0)
  else if off < 0x0E000000 then 0
  else if off < 0x0E600000 then resetDbg (off % 0x10000)
  else if off < 0x0E6C0000 then (if off % 0x10000 = 0 then 0x200 else 0)
  else if off = rCARVE then 4
  else if off = rROCSZ then 16
  else 0

/-- The bits of a register that a permitted register write replaces (the RW fields of its map). Fields with an access
code of their own (RW1C, WO, RC) are acted on by the write's side effects. A field with a range, such as LOG2 of DBPC (3 to 47),
holds another value as written (DESIGN CHOICE, log entry 149). -/
def rwMask (off : Nat) : Nat :=
  if off = rBTCTL then mask 5 5 + mask 3 0
  else if off = rTHCTL then mask 23 8 + mask 0 0
  else if off = rNBCTL then 1
  else if rFENCED 0 ≤ off ∧ off < rFENCED 768 then 3
  else if rFENCEB 0 ≤ off ∧ off < rFENCEB 64 then 3
  else if 0x00400000 ≤ off ∧ off < pairBase 48 then (if off % 0x40 = 8 then 3 else 0)
  else if 0x01000000 ≤ off ∧ off < 0x07000000 then
    (let o := off % 0x100000
     if o = 8 then mask 16 0
     else if o = 0x200 ∨ o = 0x280 then mask 15 4 + mask 2 0
     else if o = 0x220 ∨ o = 0x2A0 then mask 63 0
     else 0)
  else if 0x08000000 ≤ off ∧ off < 0x08C00000 then
    (let o := off % 0x100000
     let k := (off - 0x08000000) / 0x100000
     if o < 0x800 ∧ o % 0x100 = 0 then mask 23 16
     else if 0x40000 ≤ o ∧ o < 0x40100 then
       (let r := o - 0x40000
        if r = 0x40 ∨ r = 0x80 then mask 47 12
        else if r = 0x48 ∨ r = 0x88 then mask 19 0
        else 0)
     else if k = 0 ∧ 0x48000 ≤ o ∧ o < 0x48200 then
       (let r := o % 0x100
        if r = 0x00 then mask 23 13 + mask 10 8 + mask 0 0
        else if r = 0x10 then mask 47 30
        else if r = 0x18 then mask 47 15
        else if r = 0x20 then mask 47 3
        else if r = 0x28 then mask 15 0
        else if r = 0x30 then mask 47 3
        else if r = 0x40 then mask 39 12
        else if r = 0x48 then mask 15 0
        else if r = 0x50 then mask 47 12
        else if r = 0x58 then mask 20 0
        else if r = 0x60 then mask 47 32 + mask 16 0
        else if r = 0x68 then mask 19 0
        else if r = 0x70 then mask 47 3
        else if r = 0x78 then mask 15 0
        else 0)
     else if 0xC8000 ≤ o ∧ o < 0xD0000 then mask 31 0
     else 0)
  else if off = rSCRUB then mask 31 31 + mask 23 0
  else if off = rMERR 0 ∨ off = rMERR 1 then mask 6 0
  else if 0x0A000000 ≤ off ∧ off < 0x0A040000 then
    (let o := off % 0x40
     if o = 0x00 then mask 43 32 + mask 19 16 + mask 13 7
     else if o = 0x08 then mask 39 12 + mask 4 0
     else if o = 0x10 then mask 27 16 + mask 9 8 + mask 6 0
     else if o = 0x20 then mask 23 0
     else if o = 0x38 then mask 63 0
     else 0)
  else if 0x0B000000 ≤ off ∧ off < 0x0B060000 then (if off % 0x10000 = 0 then mask 7 5 else 0)
  else if off = rFABCTL then mask 2 0
  else if off = rFABNODE then mask 15 0
  else if rLNKCLS 0 ≤ off ∧ off < rLNKCLS 6 then mask 31 8 + mask 4 3 + mask 1 0
  else if rRTSEG 0 ≤ off ∧ off < rRTSEG 1024 then mask 15 9 + mask 7 0
  else if rRTMOD 0 ≤ off ∧ off < rRTMOD 64 then mask 15 9 + mask 7 0
  else if hostWin 0 ≤ off ∧ off < hostWin 8 then
    (if off % 0x20 = 0 then mask 18 0 else if off % 0x20 = 8 then mask 12 0
     else if off % 0x20 = 0x10 then mask 13 0 else mask 3 0)
  else if off = rCSGRANT then 3
  else if 0x0E000000 ≤ off ∧ off < 0x0E600000 then
    (let o := off % 0x10000
     if 0x100 ≤ o ∧ o < 0x120 then mask 63 60 + mask 47 2
     else if o = 0x140 ∨ o = 0x150 then mask 47 3
     else if o = 0x148 ∨ o = 0x158 then mask 63 56 + mask 47 32 + mask 5 0
     else if 0x200 ≤ o ∧ o < 0x240 then mask 23 12 + mask 7 0
     else if 0x240 ≤ o ∧ o < 0x280 then mask 47 0
     else 0)
  else if 0x0E600000 ≤ off ∧ off < 0x0E6C0000 then (if off % 0x10000 = 0 then mask 12 8 + mask 1 0 else 0)
  else if modCtr 0 ≤ off ∧ off < modCtr 6 then mask 63 0
  else if 0x0F000000 ≤ off ∧ off < 0x0F020000 then
    (let o := off % 0x10000
     if o = 8 then mask 7 0
     else if 0x1000 ≤ o ∧ o < 0x1000 + 8 * 129 then mask 63 0
     else 0)
  else 0

/-- The bits of a core-writable register that a written 1 clears (R4): BEVT, IPEND, ICPEND0, ICPEND1 (R202) and OVF
(R478). -/
def w1cMask (off : Nat) : Nat :=
  if 0x01000000 ≤ off ∧ off < 0x07000000 then
    (let o := off % 0x100000
     if 0x100 ≤ o ∧ o < 0x200 ∧ o % 0x40 = 0x20 then mask 3 0
     else if 0x200 ≤ o ∧ o < 0x300 ∧ (o % 0x80 = 8 ∨ o % 0x80 = 0x10 ∨ o % 0x80 = 0x18) then mask 63 0
     else 0)
  else if 0x0E000000 ≤ off ∧ off < 0x0E600000 ∧ 0x200 ≤ off % 0x10000 ∧ off % 0x10000 < 0x240 then mask 24 24
  else 0

namespace State

/-- The storage of a register of the module register space. -/
def reg (s : State) (off : Nat) : Val := Tbl.get (regReset off) s.regs off

/-- Set the storage of a register. -/
def setReg (s : State) (off : Nat) (v : Val) : State :=
  { s with regs := Tbl.set (regReset off) s.regs off v }

/-- Field [hi:lo] of a register. -/
def regF (s : State) (off hi lo : Nat) : Nat := bits (s.reg off) hi lo

/-- Set field [hi:lo] of a register. -/
def setRegF (s : State) (off hi lo x : Nat) : State := s.setReg off (setBits (s.reg off) hi lo x)

/-- Add to a counter field, modulo its width. -/
def incF (s : State) (off hi lo n : Nat) : State := s.setRegF off hi lo (s.regF off hi lo + n)

/-- Add to a counter field that saturates. -/
def incSat (s : State) (off hi lo n : Nat) : State :=
  s.setRegF off hi lo (min (s.regF off hi lo + n) (2 ^ (hi + 1 - lo) - 1))

end State

end Sys2Proof.Machine
end

