-- ==== Sys2Proof/Machine/Ops.lean ====
section
/-! DEFINITION. The named operations over registers and units that every meaning shares: access to banks, cores and
pairs, bits of the register blocks, event counters and trace, the Reeve's event log, free values, the classes of
words. -/

namespace Sys2Proof.Machine

/-- Agent and unit relations of R8. -/
def clusterOf (c : Nat) : Nat := c / 8
def pairOf (c : Nat) : Nat := c / 2

/-- The number of a world: 0 Infield, 1 Outfield. -/
def wn (w : Bool) : Nat := if w then 1 else 0

/-- The bit reserved or set by a Boolean. -/
def b2n (b : Bool) : Nat := if b then 1 else 0

namespace Status

/-- STATUS as a 64-bit value (R58). -/
def toVal (s : Status) : Val :=
  v64 (fld 31 (b2n s.wld) + fld 30 (b2n s.lvl) + fld 29 (b2n s.mrk) + fld 28 (b2n s.yk) + fld 24 (b2n s.early) +
    fld 23 (b2n s.p) + fld 22 (b2n s.impp) + fld 16 s.cwp.toNat + s.ml.toNat)

/-- The STATUS that a 64-bit value names; reserved bits are dropped. -/
def ofVal (v : Val) : Status :=
  { wld := bit v 31, lvl := bit v 30, mrk := bit v 29, yk := bit v 28, early := bit v 24, p := bit v 23,
    impp := bit v 22, cwp := BitVec.ofNat 3 (bits v 18 16), ml := BitVec.ofNat 4 (bits v 3 0) }

end Status

namespace State

/-- Bank `b` of core `c`. -/
def bank (s : State) (c : Nat) (b : Fin 4) : Bank := Tbl.get {} s.banks (4 * c + b.val)

/-- Replace bank `b` of core `c`. -/
def setBank (s : State) (c : Nat) (b : Fin 4) (x : Bank) : State :=
  { s with banks := Tbl.set {} s.banks (4 * c + b.val) x }

/-- Change bank `b` of core `c`. -/
def modBank (s : State) (c : Nat) (b : Fin 4) (f : Bank → Bank) : State := s.setBank c b (f (s.bank c b))

/-- Core `c` outside its banks. -/
def core (s : State) (c : Nat) : Core := Tbl.get {} s.cores c

def setCore (s : State) (c : Nat) (x : Core) : State := { s with cores := Tbl.set {} s.cores c x }

def modCore (s : State) (c : Nat) (f : Core → Core) : State := s.setCore c (f (s.core c))

/-- Pair `p`. -/
def pair (s : State) (p : Nat) : Pair := Tbl.get {} s.pairs p

def modPair (s : State) (p : Nat) (f : Pair → Pair) : State :=
  { s with pairs := Tbl.set {} s.pairs p (f (s.pair p)) }

/-- YKSTAT.MODE of pair `p` (R295). -/
def pairMode (s : State) (p : Nat) : Nat := s.regF (pairBase p) 1 0

/-- The cluster of core `c` is enabled (R11). -/
def coreEnabled (s : State) (c : Nat) : Bool := bit (s.reg rGLBCLEN) (clusterOf c)

/-- The core is the odd member of a pair that is not split (R296). -/
def oddBound (s : State) (c : Nat) : Bool := c % 2 == 1 && s.pairMode (pairOf c) != 0

/-- The current bout number (R13). -/
def bout (s : State) : Val := s.reg rBTNUM

/-- The node this module's packets carry: FEAT3.NODE, or 0 while FEAT3.FAB = 0 (R320). -/
def fabUp (s : State) : Bool := bit (s.reg rFABNODE) 16
def nodeNo (s : State) : Nat := s.regF rFABNODE 15 0
def srcNode (s : State) : Nat := if s.fabUp then s.nodeNo else 0

/-- Cycles of the running period (R12). -/
def period (s : State) : Nat := 1200 <<< (s.regF rBTCTL 1 0)

/-- A value the manual leaves open, and the counter that makes the next one fresh. -/
def freeVal (s : State) : Val × State := (Config.freeValue s.free, { s with free := s.free + 1 })

/-- The collection control field reads (R153). -/
def gcPhase (s : State) (w : Bool) : Nat := s.regF (gcBase (wn w) + 8) 1 0
def gcScope (s : State) (w : Bool) : Nat := s.regF (gcBase (wn w)) 10 8
def heapBase (s : State) (w : Bool) : Nat := bits (s.reg (gcBase (wn w) + 0x10)) 47 30 * 2 ^ 30

def gcW (s : State) (w : Bool) : GcWorld := if w then s.gc.w1 else s.gc.w0
def modGcW (s : State) (w : Bool) (f : GcWorld → GcWorld) : State :=
  if w then { s with gc := { s.gc with w1 := f s.gc.w1 } } else { s with gc := { s.gc with w0 := f s.gc.w0 } }

/-- Winnower `k`'s state for world `w`. -/
def wnw (s : State) (k : Nat) (w : Bool) : Wnw := Tbl.get {} s.gc.wnw (2 * k + wn w)
def modWnw (s : State) (k : Nat) (w : Bool) (f : Wnw → Wnw) : State :=
  { s with gc := { s.gc with wnw := Tbl.set {} s.gc.wnw (2 * k + wn w) (f (s.wnw k w)) } }

/-- A machine check or other per-world state of a core. -/
def coreW (s : State) (c : Nat) (w : Bool) : CoreWorld := if w then (s.core c).w1 else (s.core c).w0
def modCoreW (s : State) (c : Nat) (w : Bool) (f : CoreWorld → CoreWorld) : State :=
  s.modCore c fun x => if w then { x with w1 := f x.w1 } else { x with w0 := f x.w0 }

/-- Link `i` outside its registers. -/
def link (s : State) (i : Nat) : Link := Tbl.get {} s.fab.links i
def modLink (s : State) (i : Nat) (f : Link → Link) : State :=
  { s with fab := { s.fab with links := Tbl.set {} s.fab.links i (f (s.link i)) } }
def linkState (s : State) (i : Nat) : Nat := s.regF (linkBase i + 8) 2 0

/-- The core that a request of the pair's work is made by: the even core stands for a pair that is not split. -/
def rep (s : State) (c : Nat) : Nat := if s.oddBound c then c - 1 else c

/-- A bit of the 96-bit freeze register (R191). -/
def frzBit (s : State) (c : Nat) (on : Bool) : State :=
  if c < 64 then s.setRegF rFRZC0 c c (b2n on) else s.setRegF rFRZC1 (c - 64) (c - 64) (b2n on)

end State

/-- Local-pointer types that are built in (R22). -/
def builtinPtr (t : Nat) : Bool := decide (0x08 ≤ t) && decide (t ≤ 0x0F)

namespace State

/-- CLASS of an Allotment type (R223): 0 undefined, 1 immediate, 2 local pointer. -/
def atClass (s : State) (t : Nat) : Nat := s.regF (rTATTR t) 29 28

/-- A type code is reserved (R22, R25). -/
def reservedType (s : State) (t : Nat) : Bool :=
  if 0x20 ≤ t then s.atClass t == 0 || s.atClass t == 3
  else t == 0x06 || t == 0x07 || decide (0x19 ≤ t)

/-- The local-pointer class, Allotment local pointers included (R22, R25). -/
def isPtr (s : State) (t : Nat) : Bool :=
  builtinPtr t || (decide (0x20 ≤ t) && s.atClass t == 2)

/-- An Allotment local pointer. -/
def isAllotPtr (s : State) (t : Nat) : Bool := decide (0x20 ≤ t) && s.atClass t == 2

/-- The immediate class (R22), Allotment immediates included. -/
def isImmType (s : State) (t : Nat) : Bool :=
  [tyNIL, tyFIX, tyFLO, tyCHAR, tyTRUE, tyUNBOUND, tyRAW].contains t || (decide (0x20 ≤ t) && s.atClass t == 1)

/-- A pointer of a headered type (R36). -/
def isHeadered (s : State) (t : Nat) : Bool :=
  [tyVECTOR, tySTRING, tyBIGNUM, tyCLOSURE, tyCODE].contains t || s.isAllotPtr t

end State

/-- The pointer rule of R23. -/
def ptrRule (v : Val) : Bool := bits v 63 48 == 0 && bits v 2 0 == 0

namespace State

/-- The value rule of the type of a word whose code is not reserved (R22, R40). -/
def valueRule (s : State) (w : Word) : Bool :=
  let t := w.type
  let v := w.val
  if t == tyNIL || t == tyTRUE || t == tyUNBOUND then v == 0
  else if t == tyFIX || t == tyFLO || t == tyRAW || t == tyREMOTE then true
  else if t == tyCHAR then
    decide (v.toNat ≤ 0x10FFFF) && !(decide (0xD800 ≤ v.toNat) && decide (v.toNat ≤ 0xDFFF))
  else if t == tyHEADER then bits v 63 56 == 0
  else if t == tyFORWARD || t == tyGATE then ptrRule v
  else if t == tyBINREF then bits v 47 12 == 0
  else if t == tyFUTURE then
    bits v 63 26 == 0 && decide (bits v 25 19 ≤ 95) &&
      decide (256 * bits v 25 19 + 64 * bits v 18 17 ≤ bits v 16 0) &&
      decide (bits v 16 0 ≤ 256 * bits v 25 19 + 64 * bits v 18 17 + 63)
  else if t == tyRETLINK then bits v 63 51 == 0 && bits v 1 0 == 0
  else if t == tyMSGHDR then bits v 13 8 == 0
  else if s.isPtr t then ptrRule v
  else true

/-- A word is malformed (R20, R24). -/
def malformed (s : State) (w : Word) : Bool :=
  !(s.reservedType w.type) &&
    (!(s.valueRule w) || ((w.imm || w.weak) && !(s.isPtr w.type || w.type == tyREMOTE)))

/-- The words that R35 keeps on their world and module. -/
def keptLocal (s : State) (w : Word) : Bool :=
  s.isPtr w.type || w.type == tyFUTURE || w.type == tyGATE || w.type == tyRETLINK

end State

/-- Two words are identical (R41). -/
def identical (a b : Word) : Bool := a.type == b.type && a.val == b.val

/-- Sign extension of the low `n` bits of a number. -/
def sext (n x : Nat) : Int := if x % 2 ^ n < 2 ^ (n - 1) then (x % 2 ^ n : Nat) else ((x % 2 ^ n : Nat) : Int) - 2 ^ n

/-- An integer as a 64-bit value, modulo 2^64. -/
def i64 (x : Int) : Val := BitVec.ofInt 64 x

/-- An integer is in the FIX range. -/
def inFix (x : Int) : Bool := decide (-(2 ^ 63 : Int) ≤ x) && decide (x < (2 ^ 63 : Int))

/-- Serial-number arithmetic modulo 2^16 (R327): `a` is newer than `b`. -/
def newer16 (a b : BitVec 16) : Bool := decide (1 ≤ (a - b).toNat) && decide ((a - b).toNat ≤ 32767)

/-- The parity of the set bits of a number of at most 144 bits. -/
def parityBit (n : Nat) : Nat := ((List.range 144).filter fun i => n.testBit i).length % 2

/-- The CRC-16 of R344 and R406 over bytes, polynomial 0x1021, most significant bit first. -/
def crc16Bit (crc : BitVec 16) : Nat → BitVec 16
  | 0 => crc
  | n + 1 => crc16Bit (if crc.getLsbD 15 then (crc <<< 1) ^^^ 0x1021 else crc <<< 1) n

def crc16 : BitVec 16 → List Byte → BitVec 16
  | crc, [] => crc
  | crc, b :: r => crc16 (crc16Bit (crc ^^^ ((b.setWidth 16) <<< 8)) 8) r

/-- The CRC-32 of IEEE 802.3 over bytes (R421, R443). -/
def crc32Bit (crc : BitVec 32) : Nat → BitVec 32
  | 0 => crc
  | n + 1 => crc32Bit (if crc.getLsbD 0 then (crc >>> 1) ^^^ 0xEDB88320 else crc >>> 1) n

def crc32Go : BitVec 32 → List Byte → BitVec 32
  | crc, [] => crc
  | crc, b :: r => crc32Go (crc32Bit (crc ^^^ b.setWidth 32) 8) r

def crc32 (bs : List Byte) : BitVec 32 := ~~~(crc32Go 0xFFFFFFFF bs)

/-- `n` little-endian bytes of a number, and the number of little-endian bytes. -/
def leBytes : Nat → Nat → List Byte
  | 0, _ => []
  | n + 1, x => BitVec.ofNat 8 x :: leBytes n (x / 256)

def leNat : List Byte → Nat
  | [] => 0
  | b :: r => b.toNat + 256 * leNat r

/-- The packed form of R44 of a run of words, and back. -/
def packWords (ws : List Word) : List Byte := (ws.flatMap fun w => leBytes 8 w.val.toNat) ++ ws.map fun w => w.tag

def unpackWords (n : Nat) (bs : List Byte) : List Word :=
  (List.range n).map fun i => ⟨bs.getD (8 * n + i) 0, v64 (leNat ((bs.drop (8 * i)).take 8))⟩

namespace State

/-- The parity bit that the copy of cluster 0 holds for a word of a control store (R229); a copy that has failed parity
differs from its word in it. -/
def csPar (s : State) (store adr n : Nat) : Nat :=
  (parityBit n + b2n Config.csParity + b2n (s.csBad.contains (0, store, adr))) % 2

/-- Counter `n` of core `c` has wrapped (R480): OVF is set, and its item reaches a pair through the latch (R305). -/
def setOvf (s : State) (c n : Nat) : State :=
  let o := dbgBase c + 0x200 + 8 * n
  if bit (s.reg o) 24 then s
  else
    let s := s.setRegF o 24 24 1
    if s.pairMode (pairOf c) != 0 then s.modPair (pairOf c) fun p => { p with latch := p.latch ++ [.ovf n] } else s

/-- Count `n` occurrences of event `ev` on core `c` for the bank that runs there (R478, R479). -/
def countEvent (s : State) (c : Nat) (ev n : Nat) : State :=
  (List.range 8).foldl (fun s i =>
    let o := dbgBase c + 0x200 + 8 * i
    let sel := s.reg o
    if bit sel 12 && bits sel 7 0 == ev then
      let hit : Bool := match (s.core c).run with
        | none => (ev == 1 || ev == 16) && !(bit sel 17)
        | some b =>
          let st := (s.bank c b).status
          if ev == 1 && !(bit sel 17) then true
          else (st.wld == bit sel 18) && (!(bit sel 17) || bits sel 16 15 == b.val) &&
            (if st.lvl then bit sel 13 else bit sel 14)
      if hit then
        let v := bits (s.reg (o + 0x40)) 47 0 + n
        let s := s.setRegF (o + 0x40) 47 0 v
        if v ≥ 2 ^ 48 then s.setOvf c i else s
      else s
    else s) s

/-- Append an entry to the trace buffer of core `c`'s cluster when it captures that core (R477). -/
def trace (s : State) (c : Nat) (kind : Nat) (b : Fin 4) (data : Nat) : State :=
  let k := clusterOf c
  let ctl := s.reg (traceBase k)
  if bit ctl 0 && bits ctl 12 10 == c % 8 && (!(kind == 2 || kind == 3) || bit ctl 1) then
    let n := s.regF (traceBase k + 8) 12 0
    let last := Tbl.get 0 s.trLast k
    let delta := min 1023 (s.cycle - last)
    let e := v64 (fld 60 kind + fld 58 b.val + fld 48 delta + data % 2 ^ 48)
    if n < 4096 then
      { ((s.setReg (traceBase k + 0x8000 + 8 * n) e).setRegF (traceBase k + 8) 12 0 (n + 1)) with
        trLast := Tbl.set 0 s.trLast k s.cycle }
    else if bit ctl 8 then
      let at_ := Tbl.get 0 s.trPos k
      { (s.setReg (traceBase k + 0x8000 + 8 * at_) e) with
        trLast := Tbl.set 0 s.trLast k s.cycle, trPos := Tbl.set 0 s.trPos k ((at_ + 1) % 4096) }
    else s
  else s

/-- The conditions of an IBI (R405): a MGMT reply waits (1), an event of an enabled class is newer than the cursor (2). -/
def ibiCond (s : State) : Nat :=
  let q := (Tbl.get {} s.reeve.ports 0).queue
  let ev := s.reeve.log.any fun e => newer16 e.num s.reeve.cursor && s.reeve.evmask.getLsbD e.cls
  (if q.isEmpty then 0 else 1) + (if ev then 2 else 0)

/-- Raise the IBI that a condition which has just become true gives, and drive ALERT_N (R405). -/
def updateIbi (s : State) : State :=
  let cnd := s.ibiCond
  let new := cnd &&& (3 ^^^ s.reeve.ibiSeen)
  let can := s.reeve.enint && s.reeve.dyn.isSome
  let s := { s with reeve := { s.reeve with ibiSeen := cnd } }
  let s := if new != 0 && can then
      { s with reeve := { s.reeve with
        ibiOut := s.reeve.ibiOut ++ [BitVec.ofNat 8 new :: leBytes 2 s.reeve.nextEvt.toNat] } }
    else s
  { s with pins := { s.pins with alertN := !(cnd != 0 && !can) } }

/-- A host vector is sent, or set pending where it is masked (R436): bit 0 of the entry's control word masks it. -/
def sendVector (s : State) (v : Nat) : State :=
  if bit (s.reg rFRZP) 8 then s
  else if bit (Tbl.get 1 s.host.msix v) 0 then { s with host := { s.host with pba := Tbl.set 0 s.host.pba v 1 } }
  else { s with host := { s.host with vectors := s.host.vectors ++ [v] } }

/-- Log an event of the Reeve (R413, R414), with its effect on the IBI (R405) and on vector 49 (R435). -/
def logEvent (s : State) (cls code index world : Nat) (d0 d1 : Val) : State :=
  if s.reeve.up then
    let e : Event := ⟨s.reeve.nextEvt, cls, code, s.bout, index, world, d0, d1⟩
    let s := { s with reeve := { s.reeve with
      log := (s.reeve.log ++ [e]).drop ((s.reeve.log.length + 1) - 256),
      nextEvt := s.reeve.nextEvt + 1 } }
    let s := if cls == 1 || cls == 2 then s.sendVector 49 else s
    s.updateIbi
  else s

/-- Every change of a link's state is a link event (R339, R414). -/
def setLinkState (s : State) (i st : Nat) : State :=
  if s.linkState i == st then s
  else
    let s := s.setRegF (linkBase i + 8) 2 0 st
    s.logEvent 3 1 i 2 (s.reg (linkBase i + 8)) 0

/-- Write a violation log entry and send the violation event (R189, R191, R363). -/
def logViolation (s : State) (reason kind world index : Nat) (addr aux : Val) : State :=
  let n := s.regF rVLSTAT 5 0
  let s := if n < 32 then
      let o := rVLOG n
      let s := s.setReg o (v64 (fld 63 1 + fld 32 reason + fld 28 kind + fld 24 world + index))
      let s := s.setReg (o + 8) addr
      let s := s.setReg (o + 0x10) s.bout
      let s := s.setReg (o + 0x18) aux
      s.setRegF rVLSTAT 5 0 (n + 1)
    else s.incSat rVLSTAT 31 16 1
  s.logEvent 1 reason index world addr aux

/-- Clear the reservation of the bank with a key on a granule (R94), unless the bank is the one named. -/
def clearResv (g : Nat) (keep : Option Nat) (s : State) (key : Nat) : State :=
  let k : Bank := Tbl.get {} s.banks key
  if k.resv = some g ∧ keep ≠ some key then
    { s with banks := Tbl.set {} s.banks key { k with resv := none } }
  else s

/-- Clear the reservations on a granule (R94), except that of a bank named. -/
def breakResv (s : State) (g : Nat) (keep : Option Nat) : State := (s.banks.map (·.1)).foldl (clearResv g keep) s

/-- A machine check is pending for world `w` on core `c` (R174). -/
def pendMchk (s : State) (c : Nat) (w : Bool) (tval : Val) : State :=
  s.modCore c fun x => if w then { x with mchk1 := x.mchk1 ++ [tval] } else { x with mchk0 := x.mchk0 ++ [tval] }

/-- Send a machine check to a core of the module: through the latch of a pair that is not split (R305); nothing is sent
to a core that does not exist or is not enabled (R153). -/
def sendMchk (s : State) (c : Nat) (w : Bool) (tval : Val) : State :=
  if c < 96 && s.coreEnabled c then
    if s.pairMode (pairOf c) != 0 then
      s.modPair (pairOf c) fun p => { p with latch := p.latch ++ [.mchk w tval] }
    else s.pendMchk c w tval
  else s

/-- MCHK TVAL: reason in [15:0], address in [63:16] (R173). -/
def mchkTval (reason addr : Nat) : Val := v64 (addr % 2 ^ 48 * 65536 + reason)

/-- A machine check from Winnower work of world `w` (R150): sent to GCCTL.ICORE. -/
def gcMchk (s : State) (w : Bool) (reason addr : Nat) : State :=
  s.sendMchk (bits (s.reg (gcBase (wn w))) 19 13) w (mchkTval reason addr)

/-- The collection interrupt of world `w` (R155): sent at ILV 1-14 to GCCTL.ICORE. -/
def gcInterrupt (s : State) (w : Bool) : State :=
  let ctl := s.reg (gcBase (wn w))
  let c := bits ctl 19 13
  let l := bits ctl 23 20
  if c < 96 && s.coreEnabled c && 1 ≤ l && l ≤ 14 then
    if s.pairMode (pairOf c) != 0 then
      s.modPair (pairOf c) fun p => { p with latch := p.latch ++ [.gcInt w] }
    else s.modCore c fun x => if w then { x with gcInt1 := true } else { x with gcInt0 := true }
  else s

/-- The owner of the fence granule of a physical address (R166): 0 Infield, 1 Outfield, 2 Closed. -/
def fenceOwner (s : State) (pa : Nat) : Nat :=
  if pa < 0x0C00000000 then s.regF (rFENCED (pa / 2 ^ 26)) 1 0
  else if 0xE000000000 ≤ pa && pa < 0xE100000000 then s.regF (rFENCEB ((pa - 0xE000000000) / 2 ^ 26)) 1 0
  else 2

/-- The carve-out size in bytes (R15). -/
def carve (s : State) : Nat := bits (s.reg rCARVE) 4 0 * 2 ^ 28

/-- Assigned DRAM, assigned bin memory and register space (R14, R15). -/
def inDram (s : State) (pa : Nat) : Bool := decide (pa + s.carve < 0x0C00000000)
def inBin (s : State) (pa : Nat) : Bool := decide (0xE000000000 ≤ pa) && decide (pa < 0xE000000000 + s.carve)
def inRegs (pa : Nat) : Bool := decide (0xF000000000 ≤ pa) && decide (pa < 0xF010000000)

/-- The storage address of an assigned memory address: the window shows the top of DRAM (R15). -/
def store (s : State) (pa : Nat) : Nat :=
  if 0xE000000000 ≤ pa then 0x0C00000000 - s.carve + (pa - 0xE000000000) else pa

/-- The home slice of granule `g` = a[39:6] (R272): h = g[11:0] xor g[23:12] xor g[33:24], modulo 12, whichever clusters are
gated. -/
def home (g : Nat) : Nat := ((g % 4096) ^^^ (g / 4096 % 4096) ^^^ (g / 2 ^ 24 % 1024)) % 12

/-- The directory set of a granule within its home, g[13:0] (R272, R273). -/
def dirSet (g : Nat) : Nat := g % 16384

/-- The plot of a virtual address in the heap window of world `w` (R132); none outside it or in the other world's plot. -/
def plotOf (s : State) (w : Bool) (a : Nat) : Option Nat :=
  let hb := s.heapBase w
  if a < hb then none
  else
    let p := (a - hb) / 2 ^ 21
    if p < 32768 then (if bit (s.reg (rPLOT p)) 8 == w then some p else none) else none

/-- Fields of a plot entry (R133). -/
def plotState (s : State) (p : Nat) : Nat := s.regF (rPLOT p) 1 0
def plotGen (s : State) (p : Nat) : Nat := s.regF (rPLOT p) 4 2
def plotWnw (s : State) (p : Nat) : Nat := s.regF (rPLOT p) 19 16

/-- The address lies in a Normal, Condemned or Evacuating plot of the world. -/
def inHeap (s : State) (w : Bool) (a : Nat) : Option Nat :=
  match s.plotOf w a with
  | some p => if s.plotState p == 0 then none else some p
  | none => none

/-- The address lies in an Evacuating plot of the world. -/
def inEvac (s : State) (w : Bool) (a : Nat) : Bool :=
  match s.plotOf w a with
  | some p => s.plotState p == 3
  | none => false

/-- A pointer is in the scope of marking (R141): its target lies in a plot of the world that is not Free, with GEN at
most SCOPE. -/
def inScope (s : State) (w : Bool) (a : Nat) : Bool :=
  match s.inHeap w a with
  | some p => decide (s.plotGen p ≤ s.gcScope w)
  | none => false

/-- Winnower `k`, or its successor when it is out of service (R163). -/
def inService (s : State) (k : Nat) : Nat :=
  let f : List Nat := (List.range 12).map fun i => (k + i) % 12
  match f.find? fun j => bit (s.reg (wnwBase j)) 1 with
  | some j => j
  | none => k

/-- Add engine work to the counts of the running bout (R442). -/
def addW (s : State) (p n : Nat) : State :=
  let e := s.reg (rPLOT p)
  let a := if bit e 31 then bits e 29 24 else 64
  let x := Tbl.get {} s.act a
  { s with act := Tbl.set {} s.act a { x with w := x.w + n } }

/-- Engine work whose cycles the manual does not state: a free number of them is counted (R442). -/
def addWork (s : State) (p : Nat) : State :=
  let (v, s) := s.freeVal
  s.addW p v.toNat

end State

end Sys2Proof.Machine
end

