-- ==== Sys2Proof/Machine/Flags.lean ====
section
/-! DEFINITION. Arithmetic results and the conditions they raise: FIX overflow, the reasons of R79, and binary64
arithmetic on exact integers (R80, R110). -/

namespace Sys2Proof.Machine

/-- Reason codes of R79. -/
def fixOverflow : Nat := 1
def flInvalid : Nat := 2
def flDivzero : Nat := 3
def flOverflow : Nat := 4
def intDivzero : Nat := 5

/-- The quiet NaN of R80. -/
def flNaN : Val := 0x7FF8000000000000

/-- A binary64 operand: a NaN (signalling or not), an infinity, or the finite number ± m × 2^e. -/
inductive FNum where
  | nan (signalling : Bool)
  | inf (neg : Bool)
  | fin (neg : Bool) (m : Nat) (e : Int)
deriving DecidableEq, Repr

/-- The number a bit pattern stands for. -/
def flDecode (v : Val) : FNum :=
  let neg := bit v 63
  let ex := bits v 62 52
  let fr := bits v 51 0
  if ex = 2047 then (if fr = 0 then .inf neg else .nan (!(bit v 51)))
  else if ex = 0 then .fin neg fr (-1074)
  else .fin neg (fr + 2 ^ 52) ((ex : Int) - 1075)

def flSign (neg : Bool) : Nat := if neg then 2 ^ 63 else 0
def flInf (neg : Bool) : Val := v64 (flSign neg + 2047 * 2 ^ 52)
def flZero (neg : Bool) : Val := v64 (flSign neg)

/-- Round ± m × 2^e to binary64, to nearest with ties to even; the flag says that it overflowed. -/
def flRound (neg : Bool) (m : Nat) (e : Int) : Val × Bool :=
  if m = 0 then (flZero neg, false)
  else
    let top : Int := (Nat.log2 m : Int) + e
    let q : Int := if top < -1022 then -1074 else top - 52
    let sh : Int := q - e
    let r : Nat :=
      if sh ≤ 0 then m <<< (-sh).toNat
      else
        let k := sh.toNat
        let f := m >>> k
        let rest := m % 2 ^ k
        let half := 2 ^ (k - 1)
        if half < rest ∨ (rest = half ∧ f % 2 = 1) then f + 1 else f
    let (r, q) := if r = 2 ^ 53 then (2 ^ 52, q + 1) else (r, q)
    if r < 2 ^ 52 then (v64 (flSign neg + r), false)
    else
      let biased := q + 1075
      if 2047 ≤ biased then (flInf neg, true)
      else (v64 (flSign neg + biased.toNat * 2 ^ 52 + (r - 2 ^ 52)), false)

/-- The result of a FLO operation: the IEEE default result and the reason it raises (0 none). -/
structure FlRes where
  v : Val
  why : Nat := 0
deriving DecidableEq, Repr

def flRoundRes (neg : Bool) (m : Nat) (e : Int) : FlRes :=
  let r := flRound neg m e
  ⟨r.1, if r.2 then flOverflow else 0⟩

def flNaNRes (signalling : Bool) : FlRes := ⟨flNaN, if signalling then flInvalid else 0⟩

/-- The signed integer of a finite operand over a common exponent. -/
def flInt (neg : Bool) (m : Nat) (e e0 : Int) : Int :=
  let x : Int := (m <<< (e - e0).toNat : Nat)
  if neg then -x else x

/-- Sum of two operands. -/
def flAdd (a b : Val) : FlRes :=
  match flDecode a, flDecode b with
  | .nan s, .nan t => flNaNRes (s || t)
  | .nan s, _ => flNaNRes s
  | _, .nan s => flNaNRes s
  | .inf n, .inf k => if n = k then ⟨flInf n, 0⟩ else ⟨flNaN, flInvalid⟩
  | .inf n, _ => ⟨flInf n, 0⟩
  | _, .inf n => ⟨flInf n, 0⟩
  | .fin n1 m1 e1, .fin n2 m2 e2 =>
    let e0 := min e1 e2
    let x := flInt n1 m1 e1 e0 + flInt n2 m2 e2 e0
    if x = 0 then ⟨flZero (n1 && n2), 0⟩
    else flRoundRes (decide (x < 0)) x.natAbs e0

/-- The value with its sign bit inverted. -/
def flNeg (a : Val) : Val := a ^^^ 0x8000000000000000

/-- The value with its sign bit cleared. -/
def flAbs (a : Val) : Val := a &&& 0x7FFFFFFFFFFFFFFF

/-- Difference of two operands. -/
def flSub (a b : Val) : FlRes := flAdd a (flNeg b)

/-- Product of two operands. -/
def flMul (a b : Val) : FlRes :=
  match flDecode a, flDecode b with
  | .nan s, .nan t => flNaNRes (s || t)
  | .nan s, _ => flNaNRes s
  | _, .nan s => flNaNRes s
  | .inf n, .inf k => ⟨flInf (n != k), 0⟩
  | .inf n, .fin k m _ => if m = 0 then ⟨flNaN, flInvalid⟩ else ⟨flInf (n != k), 0⟩
  | .fin k m _, .inf n => if m = 0 then ⟨flNaN, flInvalid⟩ else ⟨flInf (n != k), 0⟩
  | .fin n1 m1 e1, .fin n2 m2 e2 => flRoundRes (n1 != n2) (m1 * m2) (e1 + e2)

/-- Quotient of two operands. -/
def flDiv (a b : Val) : FlRes :=
  match flDecode a, flDecode b with
  | .nan s, .nan t => flNaNRes (s || t)
  | .nan s, _ => flNaNRes s
  | _, .nan s => flNaNRes s
  | .inf _, .inf _ => ⟨flNaN, flInvalid⟩
  | .inf n, .fin k _ _ => ⟨flInf (n != k), 0⟩
  | .fin n _ _, .inf k => ⟨flZero (n != k), 0⟩
  | .fin n1 m1 e1, .fin n2 m2 e2 =>
    if m2 = 0 then
      if m1 = 0 then ⟨flNaN, flInvalid⟩ else ⟨flInf (n1 != n2), flDivzero⟩
    else if m1 = 0 then ⟨flZero (n1 != n2), 0⟩
    else
      let k := 66 + Nat.log2 m2
      let n := m1 <<< k
      let q := 2 * (n / m2) + (if n % m2 = 0 then 0 else 1)
      flRoundRes (n1 != n2) q (e1 - e2 - (k : Int) - 1)

/-- Integer square root, bit by bit from bit `i` down. -/
def isqrtGo (n : Nat) : Nat → Nat → Nat
  | 0, r => r
  | i + 1, r => isqrtGo n i (if (r + 2 ^ i) * (r + 2 ^ i) ≤ n then r + 2 ^ i else r)

/-- Square root of an operand. -/
def flSqrt (a : Val) : FlRes :=
  match flDecode a with
  | .nan s => flNaNRes s
  | .inf n => if n then ⟨flNaN, flInvalid⟩ else ⟨flInf false, 0⟩
  | .fin n m e =>
    if m = 0 then ⟨flZero n, 0⟩
    else if n then ⟨flNaN, flInvalid⟩
    else
      let sh := 118 - Nat.log2 m
      let sh := if ((e - sh) % 2 : Int) = 0 then sh else sh + 1
      let x := m <<< sh
      let r := isqrtGo x 61 0
      let q := 2 * r + (if r * r = x then 0 else 1)
      flRoundRes false q ((e - sh) / 2 - 1)

/-- A FIX value converted to binary64, rounded to nearest with ties to even. -/
def flOfFix (v : Val) : Val := (flRound (decide (v.toInt < 0)) v.toInt.natAbs 0).1

/-- The integer part of a finite operand, truncated toward zero. -/
def flTrunc (neg : Bool) (m : Nat) (e : Int) : Int :=
  let x : Nat := if e ≥ 0 then m <<< e.toNat else m >>> (-e).toNat
  if neg then -(x : Int) else x

/-- CVT.FX: the FIX value, or none for a NaN or a value out of range. -/
def flToFix (v : Val) : Option Val :=
  match flDecode v with
  | .fin n m e => let x := flTrunc n m e; if inFix x then some (i64 x) else none
  | _ => none

/-- Order of two numbers as exact values: none when one is a NaN. -/
def numCmp : FNum → FNum → Option Ordering
  | .nan _, _ => none
  | _, .nan _ => none
  | .inf a, .inf b => some (if a = b then .eq else if a then .lt else .gt)
  | .inf a, _ => some (if a then .lt else .gt)
  | _, .inf b => some (if b then .gt else .lt)
  | .fin n1 m1 e1, .fin n2 m2 e2 =>
    let e0 := min e1 e2
    some (compare (flInt n1 m1 e1 e0) (flInt n2 m2 e2 e0))

/-- A FIX as an exact number. -/
def numOfFix (v : Val) : FNum := .fin (decide (v.toInt < 0)) v.toInt.natAbs 0

/-- Condition of a FLO compare (R81). -/
def flEq (a b : Val) : Bool := numCmp (flDecode a) (flDecode b) == some .eq
def flLt (a b : Val) : Bool := numCmp (flDecode a) (flDecode b) == some .lt
def flLe (a b : Val) : Bool := flEq a b || flLt a b
def flUn (a b : Val) : Bool := (numCmp (flDecode a) (flDecode b)).isNone

end Sys2Proof.Machine
end

