-- ==== Sys2Proof/Machine/Coh.lean ====
section
/-! DEFINITION. Main memory and the coherence protocol as whole transactions: DRAM words and granules, the memory
controller's error handling, the directory, the lines of the agents, and the read, ownership, clean and flush that an
access makes when nothing else is in progress for its line (R267-R291). -/

namespace Sys2Proof.Machine

/-- Why an access cannot be made now: it waits where it is, the home's fence check fails, or its request waits at the home,
which has the line blocked or no directory entry for it (R280, R285). -/
inductive CohFail where
  | stall
  | fence
  | wait (q : QReq)
deriving DecidableEq, Repr

namespace Mem

/-- The byte of storage at an address; storage that nothing has written reads zero. -/
def byte (m : Mem) (a : Nat) : Byte := Tbl.get (0 : BitVec 8) m.vals a

/-- The value of the word at a storage address aligned to 8 (R44 byte order). -/
def value (m : Mem) (a : Nat) : Val := v64 (leNat ((List.range 8).map fun i => m.byte (a + i)))

/-- The word at a storage address aligned to 8. -/
def word (m : Mem) (a : Nat) : Word := ⟨Tbl.get (0 : BitVec 8) m.tags a, m.value a⟩

/-- Write one byte of storage. -/
def putByte (m : Mem) (a : Nat) (b : Byte) : Mem := { m with vals := Tbl.set (0 : BitVec 8) m.vals a b }

/-- Write bytes upward from an address. -/
def putBytes (m : Mem) (a : Nat) : List Byte → Mem
  | [] => m
  | b :: r => putBytes (m.putByte a b) (a + 1) r

/-- Write a whole word at a storage address aligned to 8. -/
def putWord (m : Mem) (a : Nat) (w : Word) : Mem :=
  let m := m.putBytes a (leBytes 8 w.val.toNat)
  { m with tags := Tbl.set (0 : BitVec 8) m.tags a w.tag }

/-- The eight words of storage granule `g`. -/
def line (m : Mem) (g : Nat) : List Word := (List.range 8).map fun i => m.word (64 * g + 8 * i)

/-- Write words upward from a storage address. -/
def putWords (m : Mem) (a : Nat) : List Word → Mem
  | [] => m
  | w :: r => putWords (m.putWord a w) (a + 8) r

/-- The granule is recorded as poisoned. -/
def poisoned (m : Mem) (g : Nat) : Bool := m.poison.contains g

def setPoison (m : Mem) (g : Nat) (on : Bool) : Mem :=
  { m with poison := (m.poison.filter (· != g)) ++ (if on then [g] else []) }

/-- Write a whole granule with a fresh check code (R291). -/
def putLine (m : Mem) (g : Nat) (l : Line) : Mem :=
  let m := m.putWords (64 * g) l.words
  let m := { m with ecc := Tbl.set 0 m.ecc g 0 }
  m.setPoison g l.poison

/-- The memory is in its one form: keys rising, no byte and no tag equal to what an unlisted address reads as. -/
def wf (m : Mem) : Bool := Tbl.wf (0 : BitVec 8) m.vals && Tbl.wf (0 : BitVec 8) m.tags

end Mem

/-- A line of eight NIL words. -/
def Line.empty : Line := ⟨List.replicate 8 nilWord, false⟩

namespace Line

/-- Word `i` of a line. -/
def word (l : Line) (i : Nat) : Word := l.words.getD i nilWord

/-- Replace word `i`. -/
def set (l : Line) (i : Nat) (w : Word) : Line := { l with words := l.words.set i w }

end Line

/-- The bytes a sub-word store merges into a word (R90). -/
def mergeSub (old : Val) (off size : Nat) (v : Val) : Val := setBits old (8 * (off + size) - 1) (8 * off) v.toNat

/-- What a store leaves in a word. -/
def StoreData.apply (d : StoreData) (off : Nat) (old : Word) : Word :=
  match d with
  | .word w => w
  | .sub size v => ⟨old.tag, mergeSub old.val off size v⟩

/-- The key of an agent's line. -/
def agKey (a g : Nat) : Nat := a * 2 ^ 34 + g

/-- The cluster of a coherent agent (R273, R279). -/
def agCluster (a : Nat) : Nat := if a < 96 then a / 8 else a - 96

/-- Mesh distance of R10. -/
def meshDist (x y : Nat) : Nat :=
  let d (a b : Nat) : Nat := if a < b then b - a else a - b
  d (x % 4) (y % 4) + d (x / 4) (y / 4)

namespace State

def modMem (s : State) (f : Mem → Mem) : State := { s with mem := f s.mem }

/-- A machine check of the memory system at the owner world's error core (R288); with a Closed granule only the event. -/
def memMchk (s : State) (reason pa : Nat) : State :=
  let o := s.fenceOwner pa
  let a := pa / 64 * 64
  let s := s.logEvent 6 reason 0 (if o < 2 then o else 2) (v64 a) 0
  if o < 2 then s.sendMchk (s.regF (rMERR o) 6 0) (o == 1) (mchkTval reason a) else s

/-- Record an error at the memory controller (R291, R294). -/
def mcLog (s : State) (ue scrub : Bool) (pa : Nat) : State :=
  let ch := ((pa / 256) % 16) ^^^ ((pa / 4096) % 16)
  s.setReg rMCLAST (v64 (fld 63 1 + fld 62 (b2n ue) + fld 61 (b2n scrub) + fld 56 ch + (pa / 64 * 64) % 2 ^ 40))

/-- A controller read of a granule by its physical address, with the check code's action (R291). -/
def mcRead (s : State) (pa : Nat) (scrub : Bool) : Line × State :=
  let g := s.store pa / 64
  let l : Line := ⟨s.mem.line g, s.mem.poisoned g⟩
  match Tbl.get 0 s.mem.ecc g with
  | 0 => (l, s)
  | 1 =>
    let s := s.modMem fun m => { m with ecc := Tbl.set 0 m.ecc g 0 }
    (l, (s.incF rMCCE 63 0 1).mcLog false scrub pa)
  | _ =>
    let s := s.modMem fun m => ({ m with ecc := Tbl.set 0 m.ecc g 0 }).setPoison g true
    ({ l with poison := true }, ((s.incF rMCUE 63 0 1).mcLog true scrub pa).memMchk 0x22 pa)

/-- The line of agent `a`, when it holds granule `g`. -/
def agLine (s : State) (a g : Nat) : Option AgentLine := Tbl.get none s.mem.lines (agKey a g)

def setAgLine (s : State) (a g : Nat) (l : Option AgentLine) : State :=
  s.modMem fun m => { m with lines := Tbl.set none m.lines (agKey a g) l }

/-- The victim buffer entry of an agent. -/
def victim (s : State) (a g : Nat) : Option Line := Tbl.get none s.mem.victims (agKey a g)

def setVictim (s : State) (a g : Nat) (l : Option Line) : State :=
  s.modMem fun m => { m with victims := Tbl.set none m.victims (agKey a g) l }

def setTrans (s : State) (a g : Nat) (t : Option AgentTr) : State :=
  s.modMem fun m => { m with trans := Tbl.set none m.trans (agKey a g) t }

/-- The first-level copies of a core go with its L2 line (R268). -/
def dropL1 (s : State) (a g : Nat) : State :=
  if a < 96 then
    (s.modMem fun m => { m with upL1 := m.upL1.filter fun u => !(u.1 == a && u.2.1 == g) }).modCore a fun c => { c with
      l1i := c.l1i.filter (·.gran != g), l1d := c.l1d.filter (·.gran != g), side := c.side.filter (·.gran != g) }
  else s

/-- An agent gives up a line. -/
def dropLine (s : State) (a g : Nat) : State :=
  ((s.modMem fun m => { m with upL2 := m.upL2.filter (· != (a, g)) }).setAgLine a g none).dropL1 a g

/-- A parity error in a line of a core's L2 or of a Winnower's cache (R288): a clean line is refetched, a dirty one is
poisoned. -/
def l2Parity (s : State) (a g : Nat) : State :=
  if s.mem.upL2.contains (a, g) then
    let s := s.modMem fun m => { m with upL2 := m.upL2.filter (· != (a, g)) }
    match s.agLine a g with
    | some l =>
      if l.st == LineSt.m then
        (s.setAgLine a g (some { l with line := { l.line with poison := true } })).memMchk (if a < 96 then 0x20 else 0x25) (64 * g)
      else
        let s := s.dropLine a g
        if a < 96 then s.incF (clusterBase (clusterOf a) + 0x100 * (a % 8) + 8) 31 0 1 else s
    | none => s
  else s

/-- What agent `a` holds of a granule when it is read, its parity checked (R288). -/
def copyOf (s : State) (a g : Nat) : Option AgentLine × State :=
  let s := s.l2Parity a g
  (s.agLine a g, s)

def l3Line (s : State) (g : Nat) : Option L3Line := Tbl.get none s.mem.l3 g

def setL3 (s : State) (g : Nat) (l : Option L3Line) : State :=
  s.modMem fun m => { m with l3 := Tbl.set none m.l3 g l }

/-- The directory entry of a granule. -/
def dirE (s : State) (g : Nat) : DirEntry := Tbl.get {} s.mem.dir g

/-- Write a directory entry and note its use (R285). -/
def setDir (s : State) (g : Nat) (e : DirEntry) : State :=
  let n := s.mem.useCtr + 1
  let e : DirEntry := if e.dst == .i && !e.blk then {} else { e with use := n }
  s.modMem fun m => { m with dir := Tbl.set {} m.dir g e, useCtr := n }

/-- A parity error in a line of an L3 array (R288). -/
def l3Parity (s : State) (g : Nat) : State :=
  if s.mem.upL3.contains g then
    let s := s.modMem fun m => { m with upL3 := m.upL3.filter (· != g) }
    let st := clusterBase (home g) + 0x10000
    match s.l3Line g with
    | some l =>
      if l.dirty then
        ((s.setL3 g (some { l with line := { l.line with poison := true } })).incF st 15 0 1).memMchk 0x21 (64 * g)
      else (s.setL3 g none).incF st 47 32 1
    | none => s
  else s

/-- Dirty L3 data goes to DRAM; the L3 line stays clean. -/
def l3Clean (s : State) (g : Nat) : State :=
  let s := s.l3Parity g
  match s.l3Line g with
  | some l => if l.dirty then (s.modMem fun m => m.putLine g l.line).setL3 g (some { l with dirty := false }) else s
  | none => s

/-- A homed line goes into its L3 array. The homed lines of a slice are at most 196,608 less the quota of the remote object
cache (R271): when they are as many, one that a free value chooses leaves. -/
def placeL3 (s : State) (g : Nat) (l : L3Line) : State :=
  let k := home g
  let mine := s.mem.l3.filter fun (x, _) => home x == k
  let s := if (s.l3Line g).isNone && decide (196608 - s.regF (clusterBase k + 0x10018) 15 0 ≤ mine.length) then
      let (v, s) := s.freeVal
      match mine[v.toNat % mine.length]? with
      | some (x, _) => (s.l3Clean x).setL3 x none
      | none => s
    else s
  s.setL3 g (some l)

/-- Memory data of R278: the L3 line, or DRAM, which is then placed in L3 as clean. -/
def memData (s : State) (g : Nat) : Line × State :=
  let s := s.l3Parity g
  match s.l3Line g with
  | some l => (l.line, s)
  | none =>
    let (l, s) := s.mcRead (64 * g) false
    (l, s.placeL3 g ⟨false, l⟩)

/-- A WB reaches the home (R278, R283): the owner's data goes to L3, any other is stale; the victim buffer is freed. -/
def homeWb (s : State) (a g : Nat) (l : Line) : State :=
  let e := s.dirE g
  if e.dst == .ex && e.fwd == some a then (s.placeL3 g ⟨true, l⟩).setDir g { e with dst := .i, fwd := none, pv := [] } else s

/-- An EVN reaches the home (R278). -/
def homeEvn (s : State) (a g : Nat) : State :=
  let e := s.dirE g
  match e.dst with
  | .ex => if e.fwd == some a then s.setDir g { e with dst := .i, fwd := none, pv := [] } else s
  | .sh =>
    let pv := e.pv.filter (· != a)
    let f := if e.fwd == some a then none else e.fwd
    s.setDir g (if pv.isEmpty then { e with dst := .i, fwd := none, pv := [] } else { e with fwd := f, pv := pv })
  | .i => s

/-- What the agents report of a line (R274): a holder in M or E, or of a writeback under way, is the owner; other holders
share it. -/
def reported (s : State) (g : Nat) : DirEntry :=
  let hold := (List.range 108).filter fun a => (s.agLine a g).isSome
  let is_ (p : LineSt → Bool) (a : Nat) : Bool := match s.agLine a g with
    | some l => p l.st
    | none => false
  match hold.find? (is_ fun t => t == .m || t == .e), s.mem.wbs.find? (·.2.1 == g) with
  | some o, _ => { dst := .ex, fwd := some o, pv := [o] }
  | none, some x => { dst := .ex, fwd := some x.1, pv := [x.1] }
  | none, none => if hold.isEmpty then {} else { dst := .sh, fwd := hold.find? (is_ (· == .f)), pv := hold }

/-- A double-bit error in a directory entry: the set of slice `k` is rebuilt from what the agents report (R274). A line
with a transaction in progress keeps its entry. -/
def dirRebuild (s : State) (k set : Nat) : State :=
  let all : List Nat := (s.mem.lines.map fun (i, _) => i % 2 ^ 34) ++ (s.mem.wbs.map fun x => x.2.1) ++ (s.mem.dir.map fun (i, _) => i)
  let gs := all.eraseDups.filter
    fun g => dirSet g == set && home g == k && (Tbl.get none s.mem.txns g).isNone
  let s := gs.foldl (fun s g => s.setDir g (s.reported g)) s
  let s := s.modMem fun m => { m with upDir := m.upDir.filter fun (g, _) => !(dirSet g == set && home g == k) }
  let (v, s) := s.freeVal
  let tv : Val := v64 (bits v 63 22 * 2 ^ 22 + 0x24)
  let s := s.logEvent 6 0x24 0 2 (v64 (bits v 63 22 * 64)) 0
  (s.sendMchk (s.regF (rMERR 0) 6 0) false tv).sendMchk (s.regF (rMERR 1) 6 0) true tv

/-- A request reads the directory entry of its line: a single-bit error in it is corrected and counted, a double-bit error
rebuilds the set (R274). -/
def dirCheck (s : State) (g : Nat) : State :=
  match Tbl.get 0 s.mem.upDir g with
  | 0 => s
  | 1 => (s.modMem fun m => { m with upDir := Tbl.set 0 m.upDir g 0 }).incF (clusterBase (home g) + 0x10000) 63 48 1
  | _ => s.dirRebuild (home g) (dirSet g)

/-- Writebacks and notices that have arrived for a line are performed first (R283). -/
def settle (s : State) (g : Nat) : State :=
  let s := s.dirCheck g
  let s := s.mem.staleWbs.foldl (fun s (x : Nat × Nat) =>
    if x.2 == g then (s.setVictim x.1 g none).setTrans x.1 g none else s) s
  let s := s.mem.wbacks.foldl (fun s (x : Nat × Nat) =>
    if x.2 == g then (s.setVictim x.1 g none).setTrans x.1 g none else s) s
  let s := s.mem.wbs.foldl (fun s (x : Nat × Nat × Line) =>
    if x.2.1 == g then ((s.homeWb x.1 g x.2.2).setVictim x.1 g none).setTrans x.1 g none else s) s
  let s := s.mem.evns.foldl (fun s (x : Nat × Nat) => if x.2 == g then s.homeEvn x.1 g else s) s
  s.modMem fun m => { m with wbs := m.wbs.filter (·.2.1 != g), evns := m.evns.filter (·.2 != g),
                             wbacks := m.wbacks.filter (·.2 != g),
                             staleWbs := m.staleWbs.filter (·.2 != g) }

/-- Something is in progress for the line, so a request for it waits (R280). -/
def busyLine (s : State) (g : Nat) : Bool :=
  (Tbl.get none s.mem.txns g).isSome || (s.dirE g).blk || s.mem.probes.any (·.2.1 == g) ||
    s.mem.acks.any (·.gran == g) || s.mem.fills.any (·.gran == g)

/-- Another bank's reservation defers a request of agent `a` for the granule (R243). -/
def deferred (s : State) (a g : Nat) : Bool :=
  s.banks.any fun (k, x) => x.resv == some g && x.resvCy == 0 && k / 4 != a

/-- Whether the set of a line has a free directory entry or one that can be recalled (R285): the victim, if any. -/
def dirVictim (s : State) (g : Nat) : Option (Option Nat) :=
  if (s.dirE g).dst != .i then some none
  else
    let set := s.mem.dir.filter fun (k, e) => dirSet k == dirSet g && home k == home g && (e.dst != .i || e.blk)
    if set.length < 16 then some none
    else
      match set.filter (fun (_, e) => !e.blk) with
      | [] => none
      | x :: r => some (some ((r.foldl (fun (b : Nat × DirEntry) y => if y.2.use < b.2.use then y else b) x).1))

/-- Every copy of a line leaves the agents; modified data goes to L3 (PINV of R277). -/
def pullAll (s : State) (g : Nat) : State :=
  let s := s.settle g
  let e := s.dirE g
  let s := e.pv.foldl (fun s a =>
    match s.copyOf a g with
    | (some l, s) => (if l.st == LineSt.m then s.placeL3 g ⟨true, l.line⟩ else s).dropLine a g
    | (none, s) => s) s
  s.setDir g { e with dst := .i, fwd := none, pv := [] }

/-- Recall of a directory victim (R285). -/
def recallLine (s : State) (v : Nat) : State := (s.pullAll v).incF (clusterBase (home v) + 0x10010) 63 0 1

/-- The transient state of an agent for a line. -/
def trans (s : State) (a g : Nat) : Option AgentTr := Tbl.get none s.mem.trans (agKey a g)

/-- A miss is outstanding at the agent for the line (R281). -/
def missOut (s : State) (a g : Nat) : Bool :=
  match s.trans a g with
  | some .miA => false
  | some _ => true
  | none => false

/-- The SLSTAT of a granule's home. -/
def slstat (g : Nat) : Nat := clusterBase (home g) + 0x10000

/-- A request for a blocked line waits in the slice's queue of 64; one that finds it full is NACKed (R280). -/
def waitHome (s : State) (q : QReq) : State :=
  if (s.mem.queue.filter fun x => home x.gran == home q.gran).length < 64 then
    s.modMem fun m => { m with queue := m.queue ++ [q] }
  else (s.modMem fun m => { m with nacked := m.nacked ++ [q] }).incF (slstat q.gran) 31 16 1

/-- A request that finds every entry of its directory set blocked is NACKed (R285). -/
def nackDir (s : State) (q : QReq) : State :=
  (s.modMem fun m => { m with nacked := m.nacked ++ [q] }).incF (clusterBase (home q.gran) + 0x10008) 63 0 1

/-- The miss of an agent's own access reaches a home that cannot take it now (R280, R285); one that is out already is not
sent again. -/
def sendMiss (s : State) (q : QReq) : State :=
  if s.mem.queue.contains q || s.mem.nacked.contains q || s.missOut q.agent q.gran then s
  else
    let s := match q.req with
      | .rd => s.setTrans q.agent q.gran (some .isD)
      | .ro => s.setTrans q.agent q.gran (some .imD)
      | .upg => s.setTrans q.agent q.gran (some .smG)
      | _ => s
    if s.busyLine q.gran then s.waitHome q else s.nackDir q

/-- The sets of an agent's cache: 1,024 of an L2, 256 of a Winnower's (R267). The low bits of the granule number choose the
set (DESIGN CHOICE, log entry 136). -/
def agSets (a : Nat) : Nat := if a < 96 then 1024 else 256

/-- Granules of agent `a` locked in the set of `g`. -/
def setLocks (s : State) (a g : Nat) : List Nat :=
  if a < 96 then (s.core a).locks.filter fun x => x % agSets a == g % agSets a else []

/-- The other lines that agent `a` holds unlocked in the set of `g`. -/
def setLines (s : State) (a g : Nat) : List Nat :=
  s.mem.lines.filterMap fun (k, _) =>
    let x := k % 2 ^ 34
    if k / 2 ^ 34 == a && x % agSets a == g % agSets a && x != g && !((s.setLocks a g).contains x) then some x else none

/-- The 16 ways of the set of `g` hold no room for it: a locked line keeps its way (R270). -/
def waysFull (s : State) (a g : Nat) : Bool :=
  let locks := s.setLocks a g
  !(locks.contains g) && decide (16 ≤ locks.length + (s.setLines a g).length)

/-- The lines that may leave the set of `g`. -/
def evictable (s : State) (a g : Nat) : List Nat := (s.setLines a g).filter fun x => !(s.busyLine x)

/-- An agent evicts a line, and its message reaches the home at once (R276, R278). -/
def evictLine (s : State) (a v : Nat) : State :=
  match (s.settle v).copyOf a v with
  | (none, s) => s
  | (some l, s) =>
    let s := match l.st with
      | .m => s.homeWb a v l.line
      | .e | .f => s.homeEvn a v
      | .s => s
    s.dropLine a v

/-- A line comes to an agent: in a full set one that a free value chooses makes room (R267). -/
def fillLine (s : State) (a g : Nat) (l : AgentLine) : State :=
  let s := if (s.agLine a g).isNone && s.waysFull a g then
      let xs := s.evictable a g
      let (v, s) := s.freeVal
      match xs[v.toNat % xs.length]? with
      | some x => s.evictLine a x
      | none => s
    else s
  s.setAgLine a g (some l)

/-- The home and directory entry for a new line of agent `a`: settle, recall if needed. The request waits for a blocked line,
and for an outstanding miss of its own agent (R280, R281). -/
def prepare (s : State) (a : Nat) (w : Bool) (req : Req) (g : Nat) : Except CohFail State :=
  if s.missOut a g then .error .stall
  else if s.busyLine g then .error (.wait ⟨g, a, req, w⟩)
  else if s.deferred a g || (s.waysFull a g && (s.evictable a g).isEmpty) then .error .stall
  else
    let s := s.settle g
    match s.dirVictim g with
    | none => .error (.wait ⟨g, a, req, w⟩)
    | some none => .ok s
    | some (some v) => .ok (s.recallLine v)

/-- The responder of R279 among the agents that hold a copy: the nearest, the lower index on a tie, never `r`. -/
def responder (s : State) (r g : Nat) (pv : List Nat) : Option Nat :=
  let have_ := pv.filter fun a => a != r && (s.agLine a g).isSome
  match have_ with
  | [] => none
  | x :: rest => some (rest.foldl (fun b a =>
      let da := meshDist (agCluster a) (agCluster r)
      let db := meshDist (agCluster b) (agCluster r)
      if da < db || (da == db && a < b) then a else b) x)

/-- RD by agent `r` of world `w`, as one transaction (R278). -/
def homeRd (s : State) (r : Nat) (w : Bool) (g : Nat) : Line × State :=
  let e := s.dirE g
  match e.dst with
  | .i =>
    let (l, s) := s.memData g
    (l, (s.fillLine r g ⟨.e, w, l⟩).setDir g { e with dst := .ex, fwd := some r, pv := [r] })
  | .sh =>
    let (l, s) := match s.responder r g e.pv with
      | some a => (match s.copyOf a g with | (some x, s) => (x.line, s) | (none, s) => s.memData g)
      | none => s.memData g
    let s := match e.fwd with
      | some f => (match s.agLine f g with
        | some x => s.setAgLine f g (some { x with st := .s })
        | none => s)
      | none => s
    let pv := if e.pv.contains r then e.pv else e.pv ++ [r]
    (l, (s.fillLine r g ⟨.f, w, l⟩).setDir g { e with fwd := some r, pv := pv })
  | .ex =>
    let o := e.fwd.getD 0
    let (l, s) := match s.copyOf o g with
      | (some x, s) =>
        let s := if x.st == LineSt.m then s.placeL3 g ⟨true, x.line⟩ else s
        (x.line, if o == r then s else s.setAgLine o g (some { x with st := .s }))
      | (none, s) => s.memData g
    let pv := if o == r then [r] else [o, r]
    (l, (s.fillLine r g ⟨.f, w, l⟩).setDir g { e with dst := .sh, fwd := some r, pv := pv })

/-- RO or UPG by agent `r` of world `w`, as one transaction (R278): the line is then the only copy, in M. -/
def homeRo (s : State) (r : Nat) (w : Bool) (g : Nat) : Line × State :=
  let e := s.dirE g
  let (l, s) := match s.agLine r g with
    | some x => (x.line, s)
    | none =>
      match s.responder r g e.pv with
      | some a => (match s.copyOf a g with | (some x, s) => (x.line, s) | (none, s) => s.memData g)
      | none => s.memData g
  let s := e.pv.foldl (fun s a => if a == r then s else s.dropLine a g) s
  (l, (s.fillLine r g ⟨.m, w, l⟩).setDir g { e with dst := .ex, fwd := some r, pv := [r] })

/-- A load's line at agent `a` for world `w` (R276): a hit in the world's own line, otherwise a miss at the home with
its fence check (R167). -/
def cohRead (s : State) (a : Nat) (w : Bool) (g : Nat) : Except CohFail (Line × State) :=
  let s := s.l2Parity a g
  match s.agLine a g with
  | some l =>
    if l.world == w then .ok (l.line, s)
    else if s.fenceOwner (64 * g) == wn w then .ok (l.line, s.setAgLine a g (some { l with world := w }))
    else .error .fence
  | none =>
    if s.fenceOwner (64 * g) != wn w then .error .fence
    else if (s.victim a g).isSome && s.busyLine g then .error .stall
    else
      match s.prepare a w .rd g with
      | .error e => .error e
      | .ok s => .ok (s.homeRd a w g)

/-- A store's line at agent `a`: in state M when this answers (R276). -/
def cohOwn (s : State) (a : Nat) (w : Bool) (g : Nat) : Except CohFail (Line × State) :=
  let s := s.l2Parity a g
  let miss : Except CohFail (Line × State) :=
    if s.fenceOwner (64 * g) != wn w then .error .fence
    else
      match s.prepare a w (if (s.agLine a g).isSome then .upg else .ro) g with
      | .error e => .error e
      | .ok s => .ok (s.homeRo a w g)
  match s.agLine a g with
  | some l =>
    if l.world != w then miss
    else
      match l.st with
      | .m => .ok (l.line, s)
      | .e => .ok (l.line, s.setAgLine a g (some { l with st := .m }))
      | _ => miss
  | none => miss

/-- Replace a word of a line that the agent holds in M; a store breaks other reservations on the granule (R94). -/
def putOwned (s : State) (a g i : Nat) (w : Word) (keep : Option Nat) : State :=
  match s.agLine a g with
  | some l => (s.setAgLine a g (some { l with st := .m, line := l.line.set i w })).breakResv g keep
  | none => s

/-- Whether a request of agent `a` that needs no directory entry may be served now: the agent's own miss for the line holds
it (R281), a blocked line has it wait at the home (R280), another core's reservation defers it (R243). -/
def mayServe (s : State) (a : Nat) (w : Bool) (req : Req) (g : Nat) : Except CohFail Unit :=
  if s.missOut a g then .error .stall
  else if s.busyLine g then .error (.wait ⟨g, a, req, w⟩)
  else if s.deferred a g then .error .stall
  else .ok ()

/-- CWB.A of agent `a` at the home (R278): modified data to L3 and DRAM, copies kept. -/
def cohClean (s : State) (a : Nat) (w : Bool) (g : Nat) : Except CohFail State :=
  match s.mayServe a w .cwb g with
  | .error e => .error e
  | .ok _ =>
    let s := s.settle g
    let e := s.dirE g
    let s := match e.dst, e.fwd with
      | .ex, some o => (match s.copyOf o g with
        | (some l, s) => if l.st == LineSt.m then (s.placeL3 g ⟨true, l.line⟩).setAgLine o g (some { l with st := .e }) else s
        | (none, s) => s)
      | _, _ => s
    .ok (s.l3Clean g)

/-- CINV.A of agent `a` at the home (R278): modified data to DRAM, every copy removed. -/
def cohFlush (s : State) (a : Nat) (w : Bool) (g : Nat) : Except CohFail State :=
  match s.mayServe a w .cinv g with
  | .error e => .error e
  | .ok _ => .ok (((s.pullAll g).l3Clean g).setL3 g none)

/-- A UC access of agent `a` reaches the home (R278, R286): the fence check, then every cached copy goes. One that meets a
blocked line is sent when the line is free (DESIGN CHOICE, log entry 137). -/
def ucOpen (s : State) (a : Nat) (w : Bool) (pa : Nat) : Except CohFail State :=
  let g := pa / 64
  if s.fenceOwner pa != wn w then .error .fence
  else if s.inBin pa then .ok s
  else if s.missOut a g || s.busyLine g || s.deferred a g then .error .stall
  else .ok (((s.pullAll g).l3Clean g).setL3 g none)

/-- Write back and remove a line whatever is in progress for it (R169, R205, warm reset): every message and transaction
of the line ends with it. -/
def evictHard (s : State) (g : Nat) : State :=
  let moving : List Line := (s.mem.acks.filterMap fun k => if k.gran == g then k.dirty else none) ++
    (s.mem.fills.filterMap fun f => if f.gran == g then f.data else none)
  let s := match moving with
    | l :: _ => s.placeL3 g ⟨true, l⟩
    | [] => s
  let s := s.modMem fun m => { m with
    txns := Tbl.set none m.txns g none, probes := m.probes.filter (·.2.1 != g), acks := m.acks.filter (·.gran != g),
    fills := m.fills.filter (·.gran != g), cmps := m.cmps.filter (·.2 != g), queue := m.queue.filter (·.gran != g),
    nacked := m.nacked.filter (·.gran != g) }
  let s := s.setDir g { s.dirE g with blk := false }
  let s := ((s.pullAll g).l3Clean g).setL3 g none
  s.modMem fun m => { m with trans := m.trans.filter fun (k, _) => k % 2 ^ 34 != g }

/-- Every granule that some cache of the module holds. -/
def heldGrans (s : State) : List Nat :=
  (s.mem.lines.map fun (k, _) => k % 2 ^ 34) ++ (s.mem.victims.map fun (k, _) => k % 2 ^ 34) ++
    (s.mem.l3.map fun (k, _) => k) ++ (s.mem.wbs.map fun x => x.2.1)

/-- A word access at the memory controller by the UC path (R278, R286): bin memory or uncached normal memory. -/
def ucRead (s : State) (pa : Nat) : Line × State := s.mcRead pa false

def ucWrite (s : State) (pa : Nat) (d : StoreData) : State :=
  let (l, s) := s.mcRead pa false
  let st := s.store pa
  let w := d.apply (pa % 8) (l.word (pa / 8 % 8))
  if l.poison then s else (s.modMem fun m => m.putWord (st / 8 * 8) w).breakResv (pa / 64) none

/-- Whether the granule's latest data is poisoned, looked up with no effect (R289). -/
def peekPoison (s : State) (pa : Nat) (mt : MemType) : Bool :=
  let g := pa / 64
  let dram := s.mem.poisoned (s.store pa / 64) || decide (1 < Tbl.get 0 s.mem.ecc (s.store pa / 64))
  match mt with
  | .cacheable =>
    match s.mem.lines.find? fun (k, _) => k % 2 ^ 34 == g with
    | some (_, some l) => l.line.poison
    | _ => match s.mem.wbs.find? fun x => x.2.1 == g with
      | some x => x.2.2.poison
      | none => match s.l3Line g with
        | some l => l.line.poison
        | none => dram
  | .uncached =>
    match s.mem.lines.find? fun (k, l) => k % 2 ^ 34 == g && (match l with | some l => l.st == LineSt.m | none => false) with
    | some (_, some l) => l.line.poison
    | _ => match s.mem.wbs.find? fun x => x.2.1 == g with
      | some x => x.2.2.poison
      | none => match s.l3Line g with
        | some l => if l.dirty then l.line.poison else dram
        | none => dram
  | _ => dram

/-- The latest word at a DRAM address in the one order of stores (R231), looked up with no effect. -/
def peekWord (s : State) (pa : Nat) : Word :=
  let g := pa / 64
  match s.mem.lines.find? fun (k, _) => k % 2 ^ 34 == g with
  | some (_, some l) => l.line.word (pa / 8 % 8)
  | _ => match s.mem.wbs.find? fun x => x.2.1 == g with
    | some x => x.2.2.word (pa / 8 % 8)
    | none => match s.l3Line g with
      | some l => l.line.word (pa / 8 % 8)
      | none => s.mem.word (s.store pa / 8 * 8)

/-- A store by a coherent agent to cacheable memory, performed at once (R230): the old word and the state after. -/
def cohStore (s : State) (a : Nat) (w : Bool) (pa : Nat) (d : StoreData) (keep : Option Nat) :
    Except CohFail (Word × State) :=
  let g := pa / 64
  let i := pa / 8 % 8
  match s.cohOwn a w g with
  | .error e => .error e
  | .ok (l, s) =>
    let old := l.word i
    if l.poison then .ok (old, s) else .ok (old, s.putOwned a g i (d.apply (pa % 8) old) keep)

end State

end Sys2Proof.Machine
end

