-- ==== Sys2Proof/Machine/Xlate.lean ====
section
/-! DEFINITION. The ways an instruction ends other than by retiring, and address translation: page tables, walks,
accessed and dirty bits, rights, keys and TLBs (R248-R266), for a core and for a Winnower. -/

namespace Sys2Proof.Machine

/-- What a Winnower's work can meet (R150, R154, R158, R168): a failed translation, the fence, poison at an access of Winnower
`k`, a line that is busy, a request that waits at its home, no destination plot for `k`, a full spill area of `k`. -/
inductive WnwErr where
  | xlate
  | fence
  | poison (k : Nat)
  | stall
  | wait (q : QReq)
  | noDest (k : Nat)
  | full (k : Nat)
deriving DecidableEq, Repr

/-- How an instruction leaves its operation before it retires. -/
inductive Exc where
  /-- A trap with its CAUSE code and TVAL (R173). -/
  | trap (code : Nat) (tval : Val)
  /-- The word fetched is no instruction (R69). -/
  | badInsn (word : Nat)
  /-- An escape of a class (R115). -/
  | escape (cls : Nat)
  /-- The bank enters Waiting (R194). -/
  | wait (r : WaitRec)
  /-- The core commits a violation (R188). -/
  | freeze (why : Nat) (addr : Val)
  /-- A breakpoint halts the core (R476). -/
  | halt (why slot : Nat)
  /-- The access waits for another unit; nothing has happened. -/
  | stall
  /-- The access missed, and its request waits at the home; nothing else has happened (R280). -/
  | miss (q : QReq)
  /-- A unit that the instruction uses cannot go on for world `w`; its stop stands, nothing else has happened (R158). -/
  | unit (w : Bool) (e : WnwErr)
  /-- A pending imprecise exception is reported by ASYNC (R176). -/
  | imprecise
  /-- A microcode code that the manual keeps to the vendor. -/
  | vendor (u : Nat)
deriving DecidableEq, Repr

/-- Instructions run over the state and may leave by an `Exc`. -/
abbrev M := EStateM Exc State

/-- CAUSE codes of R173. -/
def cILLEGAL : Nat := 0x01
def cPRIV : Nat := 0x02
def cALIGN : Nat := 0x03
def cTYPE : Nat := 0x04
def cARITH : Nat := 0x05
def cPAGENP : Nat := 0x06
def cPAGEPROT : Nat := 0x07
def cKEY : Nat := 0x08
def cWALKERR : Nat := 0x09
def cWALKDEV : Nat := 0x0A
def cWOVF : Nat := 0x0B
def cWUNF : Nat := 0x0C
def cGATE : Nat := 0x0D
def cPRIVRET : Nat := 0x0E
def cREMOTE : Nat := 0x0F
def cBINERR : Nat := 0x10
def cMCHK : Nat := 0x11
def cINT : Nat := 0x12
def cDEBUG : Nat := 0x13
def cESCTAB : Nat := 0x14
def cPOISON : Nat := 0x15
def cYOKE : Nat := 0x16
def cTAGRES : Nat := 0x17

/-- Escape classes of R116. -/
def eTYPE : Nat := 0
def eOVERFLOW : Nat := 1
def eNUMERIC : Nat := 2
def eDIVZERO : Nat := 3
def eQUOTIENT : Nat := 4
def eALLOC : Nat := 5
def eLOG : Nat := 6
def eBOUNDS : Nat := 7
def eREMOTE : Nat := 8

/-- Violation codes of R188. -/
def vFENCEDATA : Nat := 0x01
def vFENCEFETCH : Nat := 0x02
def vFENCEWALK : Nat := 0x03
def vFENCETSB : Nat := 0x04
def vREGWORLD : Nat := 0x05
def vESCFAULT : Nat := 0x06

/-- The bank that executes, what its accesses are checked against (R74, R167, R259), and how many entries of the core's store
buffer are older than its instruction, and what its TIMEC differs by from the module's (R306). -/
structure Ctx where
  c : Nat
  b : Fin 4
  w : Bool
  lvl : Bool
  sb0 : Nat := 0
  skew : Val := 0
deriving DecidableEq, Repr

/-- The kinds of access of R254. -/
inductive Acc where
  | read
  | write
  | fetch
deriving DecidableEq, Repr

/-- Leave with a trap. -/
def fault {α : Type} (code : Nat) (tval : Val) : M α := throw (.trap code tval)

/-- Leave with a trap when a condition holds. -/
def faultIf (p : Bool) (code : Nat) (tval : Val) : M Unit := if p then fault code tval else pure ()

/-- Leave with an escape when a condition holds. -/
def escapeIf (p : Bool) (cls : Nat) : M Unit := if p then throw (.escape cls) else pure ()

/-- The register number of a specifier in TVAL (R173). -/
def regTval (spec : Nat) : Val := v64 (2 ^ 63 + spec)

/-- The memory type of a physical region with translation off (R250, R253). -/
def regionType (pa : Nat) : MemType :=
  if 0xE000000000 ≤ pa ∧ pa < 0xE100000000 then .bin
  else if State.inRegs pa then .device else .cacheable

/-- The memory type named by MT (R252). -/
def mtOf : Nat → MemType
  | 0 => .cacheable
  | 1 => .bin
  | 2 => .device
  | _ => .uncached

/-- A valid entry that breaks R253, at a level of the walk. -/
def pteMalformed (s : State) (level : Nat) (v : Val) : Bool :=
  let leaf := bit v 7
  let frame := bits v 43 16
  let pa := frame * 4096
  bits v 15 14 != 0 ||
  (if leaf then
    level == 4 || (level == 3 && frame % 2 ^ 18 != 0) || (level == 2 && frame % 2 ^ 9 != 0) ||
      (let mt := bits v 13 12
       if pa < 0x0C00000000 - s.carve then mt != 0 && mt != 3
       else if 0xE000000000 ≤ pa && pa < 0xE000000000 + s.carve then mt != 1
       else if State.inRegs pa then mt != 2
       else false)
   else
    level == 1 || bits v 13 8 != 0 || bits v 6 1 != 0)

/-- The size of the page that a leaf at a level maps (R251). -/
def pageSize (level : Nat) : Nat := if level = 3 then 2 ^ 30 else if level = 2 then 2 ^ 21 else 4096

/-- Why a walk ends without a translation; the reads of a walk that faults stand (R288, R291). -/
inductive WErr where
  | fault (code : Nat) (tval : Val) (s : State)
  | stall
  | wait (q : QReq)
  | fence (pa : Nat)
deriving DecidableEq, Repr

/-- TVAL of WALK_ERR and WALK_DEV (R256). -/
def walkTval (reason level va : Nat) : Val := v64 (fld 52 reason + fld 48 level + va % 2 ^ 48)

/-- The walk of R254 from a table address down the levels: the level, the address and the word of the leaf. -/
def walkGo (a : Nat) (w : Bool) (va : Nat) : List Nat → Nat → State → Except WErr ((Nat × Nat × Word) × State)
  | [], _, s => .error (.fault cPAGENP (v64 va) s)
  | level :: rest, t, s =>
    let ea := t + 8 * (va / 2 ^ (12 + 9 * (level - 1)) % 512)
    if State.inRegs ea then .error (.fault cWALKDEV (walkTval 0 level va) s)
    else if !(s.inDram ea) then .error (.fault cWALKERR (walkTval 3 level va) s)
    else
      match s.cohRead a w (ea / 64) with
      | .error .stall => .error .stall
      | .error (.wait q) => .error (.wait q)
      | .error .fence => .error (.fence ea)
      | .ok (l, s) =>
        let e := l.word (ea / 8 % 8)
        if l.poison then .error (.fault cWALKERR (walkTval 2 level va) s)
        else if e.tag != 0x16 then .error (.fault cWALKERR (walkTval 1 level va) s)
        else if !(bit e.val 0) then .error (.fault cPAGENP (v64 va) s)
        else if pteMalformed s level e.val then .error (.fault cWALKERR (walkTval 4 level va) s)
        else if bit e.val 7 then .ok ((level, ea, e), s)
        else walkGo a w va rest (bits e.val 43 16 * 4096) s

/-- The translation that a leaf gives, with D as it will stand. -/
def leafEntry (w : Bool) (asid : BitVec 16) (va level : Nat) (v : Val) (d : Bool) : TlbEntry :=
  { world := w, asid := asid, g := bit v 6, vpn := va / pageSize level, size := pageSize level,
    frame := bits v 43 16 * 4096, mt := mtOf (bits v 13 12), key := bits v 11 8, w := bit v 1, x := bit v 2,
    u := bit v 3, d := d }

/-- The physical address of a virtual address under a translation. -/
def TlbEntry.pa (e : TlbEntry) (va : Nat) : Nat := e.frame / e.size * e.size + va % e.size

/-- The entry covers an access (R261). -/
def TlbEntry.hits (e : TlbEntry) (w : Bool) (asid : BitVec 16) (va : Nat) : Bool :=
  e.world == w && e.vpn == va / e.size && (e.g || e.asid == asid)

/-- The rights of R259 that an entry denies. -/
def TlbEntry.denies (e : TlbEntry) (lvl : Bool) (acc : Acc) : Bool :=
  match acc with
  | .read => !lvl && !e.u
  | .write => !e.w || (!lvl && !e.u)
  | .fetch => !e.x || (if lvl then e.u else !e.u)

/-- The keys of R260 that PKR denies. -/
def TlbEntry.keyDenies (e : TlbEntry) (pkr : Val) (acc : Acc) : Bool :=
  match acc with
  | .fetch => false
  | .read => bit pkr (2 * e.key)
  | .write => bit pkr (2 * e.key) || bit pkr (2 * e.key + 1)

/-- The leaf with A, and D when `dirty`, set (R258). -/
def withAD (v : Val) (dirty : Bool) : Val :=
  let v := setBits v 4 4 1
  if dirty then setBits v 5 5 1 else v

/-- The A and D write of R258, made as a CAS on the leaf by agent `a`: the entry with the bits set. -/
def setAD (s : State) (a : Nat) (w : Bool) (ea : Nat) (e : Word) (dirty : Bool) : Except WErr State :=
  let v := withAD e.val dirty
  if v == e.val then .ok s
  else
    match s.cohStore a w ea (.word ⟨e.tag, v⟩) none with
    | .ok (_, s) => .ok s
    | .error .stall => .error .stall
    | .error (.wait q) => .error (.wait q)
    | .error .fence => .error (.fence ea)

/-- Stores of the bank that are older than its running instruction are not performed yet. -/
def ownOlder (s : State) (cx : Ctx) : Bool := ((s.core cx.c).sb.take cx.sb0).any (·.bank == cx.b)

namespace State

/-- Lockable entries of a world (R261): 0-7 Infield, 8-15 Outfield. -/
def lockEntries (s : State) (w : Bool) : List TlbEntry :=
  (List.range 8).filterMap fun i => Tbl.get none s.lockTlb (8 * wn w + i)

end State

/-- A translation goes into the L1 ITLB of 32 or DTLB of 48 entries (R261). A full TLB drops its oldest entry (DESIGN CHOICE,
log entry 138). -/
def Core.l1Put (x : Core) (fetch : Bool) (t : TlbEntry) : Core :=
  if fetch then { x with itlb := (t :: x.itlb).take 32 } else { x with dtlb := (t :: x.dtlb).take 48 }

/-- A 4 KiB or 2 MiB translation goes into the L2 TLB of 512 sets of 4 ways (R261). The low bits of the page number choose the
set (DESIGN CHOICE, log entry 138). -/
def Core.l2Put (x : Core) (t : TlbEntry) : Core :=
  if t.size = 2 ^ 30 then x
  else
    let same (e : TlbEntry) : Bool := e.vpn % 512 == t.vpn % 512
    { x with l2tlb := (t :: x.l2tlb.filter same).take 4 ++ x.l2tlb.filter fun e => !(same e) }

/-- Unlocked translations leave every TLB of a core. -/
def Core.tlbDrop (x : Core) (p : TlbEntry → Bool) : Core :=
  { x with itlb := x.itlb.filter fun e => !(p e), dtlb := x.dtlb.filter fun e => !(p e), l2tlb := x.l2tlb.filter fun e => !(p e) }

/-- The unlocked translation of a core that a test finds: in the L1 TLB of the access, else in the L2 TLB (R261). -/
def Core.tlbFind (x : Core) (fetch : Bool) (p : TlbEntry → Bool) : Option TlbEntry :=
  match (if fetch then x.itlb else x.dtlb).find? p with
  | some e => some e
  | none => x.l2tlb.find? p

/-- A core's walk with its rights and key checks, A and D, and the installed entry (R254, R255, R258, R262). The CAS of A and D
comes after every older store of the bank (R242). -/
def coreWalk (cx : Ctx) (va : Nat) (acc : Acc) : M TlbEntry := do
  let s ← get
  let k := s.bank cx.c cx.b
  match walkGo cx.c cx.w va [4, 3, 2, 1] (bits k.ttb 39 12 * 4096) (s.countEvent cx.c 18 1) with
  | .error (.fault code tv t) => do
    set t
    fault code tv
  | .error .stall => throw .stall
  | .error (.wait q) => throw (.miss q)
  | .error (.fence pa) => throw (.freeze vFENCEWALK (v64 pa))
  | .ok ((level, ea, e), s) =>
    let wr := acc == .write
    let t := leafEntry cx.w (BitVec.ofNat 16 (bits k.asid 15 0)) va level e.val (bit e.val 5 || (wr && bit e.val 1))
    if t.denies cx.lvl acc then fault cPAGEPROT (v64 va)
    else if t.keyDenies k.pkr acc then fault cKEY (v64 va)
    else if withAD e.val (wr && t.w) != e.val && ownOlder s cx then throw .stall
    else
      match setAD s cx.c cx.w ea e (wr && t.w) with
      | .error (.fence pa) => throw (.freeze vFENCEWALK (v64 pa))
      | .error (.wait q) => throw (.miss q)
      | .error _ => throw .stall
      | .ok s =>
        set (s.modCore cx.c fun x => ((x.tlbDrop (·.hits cx.w t.asid va)).l1Put (acc == .fetch) t).l2Put t)
        return t

/-- Order 7 of R74 for one access: the physical address and memory type. -/
def translate (cx : Ctx) (va : Nat) (acc : Acc) : M (Nat × MemType) := do
  let s ← get
  let k := s.bank cx.c cx.b
  if !(bit k.ttb 0) then
    if !cx.lvl || va / 2 ^ 40 != 0 then fault cPAGENP (v64 va) else return (va, regionType va)
  else
    let asid := BitVec.ofNat 16 (bits k.asid 15 0)
    match (s.lockEntries cx.w).find? (·.hits cx.w asid va) with
    | some e =>
      if e.denies cx.lvl acc then fault cPAGEPROT (v64 va)
      else if e.keyDenies k.pkr acc then fault cKEY (v64 va)
      else return (e.pa va, e.mt)
    | none =>
      match (s.core cx.c).tlbFind (acc == .fetch) (·.hits cx.w asid va) with
      | some e =>
        if e.denies cx.lvl acc || e.keyDenies k.pkr acc || (acc == .write && !e.d) then
          let t ← coreWalk cx va acc
          return (t.pa va, t.mt)
        else
          modify fun s => s.modCore cx.c fun x =>
            if (if acc == .fetch then x.itlb else x.dtlb).contains e then x else x.l1Put (acc == .fetch) e
          return (e.pa va, e.mt)
      | none =>
        let t ← coreWalk cx va acc
        return (t.pa va, t.mt)

/-- The translation that a data access of the bank to an address has just used. -/
def usedEntry (s : State) (cx : Ctx) (va : Nat) : Option TlbEntry :=
  let k := s.bank cx.c cx.b
  let hit (e : TlbEntry) : Bool := e.hits cx.w (BitVec.ofNat 16 (bits k.asid 15 0)) va
  if !(bit k.ttb 0) then none
  else
    match (s.lockEntries cx.w).find? hit with
    | some e => some e
    | none => (s.core cx.c).tlbFind false hit

/-- An address of no assigned region (R14). -/
def unassigned (s : State) (pa : Nat) : Bool := !(s.inDram pa) && !(s.inBin pa) && !(State.inRegs pa)

/-- Orders 5 to 8 of R74 for one access of `size` bytes: the physical address and memory type. The machine check of R16 for
an unassigned address, which R74 gives no order, comes after order 7 and before the memory type of order 8 (DESIGN CHOICE, log
entry 128). -/
def access (cx : Ctx) (va : Val) (size : Nat) (acc : Acc) (mtOk : MemType → Bool) : M (Nat × MemType) := do
  let a := va.toNat
  faultIf (bits va 63 48 != 0) cPAGENP va
  faultIf (a % size != 0) cALIGN va
  let (pa, mt) ← translate cx a acc
  let s ← get
  if unassigned s pa then fault cMCHK (State.mchkTval 1 pa)
  else do
    faultIf (!(mtOk mt)) cPAGEPROT va
    return (pa, mt)

/-- A Winnower's translation for world `w` (R249): supervisor rights, no keys, A and D set. -/
def wnwXlate (s : State) (k : Nat) (w : Bool) (va : Nat) (wr : Bool) : Except WnwErr ((Nat × MemType) × State) :=
  let root := bits (s.reg (gcBase (wn w) + 0x40)) 39 12 * 4096
  let asid := BitVec.ofNat 16 (bits (s.reg (gcBase (wn w) + 0x48)) 15 0)
  let tl := Tbl.get [] s.gc.tlb k
  let ok (s : State) (pa : Nat) (mt : MemType) : Except WnwErr ((Nat × MemType) × State) :=
    if mt == .device || unassigned s pa || State.inRegs pa then .error .xlate
    else if (mt == .bin) != s.inBin pa then .error .xlate
    else .ok ((pa, mt), s)
  match tl.find? fun e => e.hits w asid va && (!wr || (e.w && e.d)) with
  | some e => ok s (e.pa va) e.mt
  | none =>
    match walkGo (96 + k) w va [4, 3, 2, 1] root s with
    | .error (.fault _ _ _) => .error .xlate
    | .error .stall => .error .stall
    | .error (.wait q) => .error (.wait q)
    | .error (.fence _) => .error .fence
    | .ok ((level, ea, e), s) =>
      let t := leafEntry w asid va level e.val (bit e.val 5 || (wr && bit e.val 1))
      if wr && !t.w then .error .xlate
      else
        match setAD s (96 + k) w ea e (wr && t.w) with
        | .error (.fence _) => .error .fence
        | .error (.wait q) => .error (.wait q)
        | .error _ => .error .stall
        | .ok s =>
          let tl := (t :: tl.filter fun o => !(o.hits w asid va)).take 64
          ok { s with gc := { s.gc with tlb := Tbl.set [] s.gc.tlb k tl } } (t.pa va) t.mt

/-- A request of a Winnower that cannot be served now. -/
def CohFail.wnw : CohFail → WnwErr
  | .stall => .stall
  | .fence => .fence
  | .wait q => .wait q

/-- A Winnower reads a word by virtual address. -/
def wnwRead (s : State) (k : Nat) (w : Bool) (va : Nat) : Except WnwErr (Word × State) :=
  match wnwXlate s k w va false with
  | .error e => .error e
  | .ok ((pa, mt), s) =>
    if mt == .cacheable then
      match s.cohRead (96 + k) w (pa / 64) with
      | .error e => .error e.wnw
      | .ok (l, s) => if l.poison then .error (.poison k) else .ok (l.word (pa / 8 % 8), s)
    else
      match s.ucOpen (96 + k) w pa with
      | .error e => .error e.wnw
      | .ok s =>
        let (l, s) := s.ucRead pa
        if l.poison then .error (.poison k) else .ok (l.word (pa / 8 % 8), s)

/-- A Winnower writes a word by virtual address. -/
def wnwWrite (s : State) (k : Nat) (w : Bool) (va : Nat) (x : Word) : Except WnwErr State :=
  match wnwXlate s k w va true with
  | .error e => .error e
  | .ok ((pa, mt), s) =>
    if s.peekPoison pa mt then .error (.poison k)
    else if mt == .cacheable then
      match s.cohOwn (96 + k) w (pa / 64) with
      | .error e => .error e.wnw
      | .ok (l, s) => if l.poison then .error (.poison k) else .ok (s.putOwned (96 + k) (pa / 64) (pa / 8 % 8) x none)
    else
      match s.ucOpen (96 + k) w pa with
      | .error e => .error e.wnw
      | .ok s => .ok (s.ucWrite pa (.word x))

/-- The read of a granule by a Winnower that meets poison: what reading it does to the caches and the memory stands (R288,
R291). With it the granule's physical address, and whether a parity error of the Winnower's own line is what poisoned it. -/
def wnwPoison (s : State) (k : Nat) (w : Bool) (va : Nat) : (Nat × Bool) × State :=
  match wnwXlate s k w va false with
  | .error _ => ((va, false), s)
  | .ok ((pa, mt), s) =>
    ((pa / 64 * 64, s.mem.upL2.contains (96 + k, pa / 64)), if mt == .cacheable then
      (match s.cohRead (96 + k) w (pa / 64) with
        | .ok (_, t) => t
        | .error _ => s)
      else (s.ucRead pa).2)

/-- The state that a failed Winnower access leaves (R150, R168, R289): the machine check at GCCTL.ICORE; of a new parity error
only the one that R288 sends. -/
def wnwFail (s : State) (w : Bool) (va : Nat) (e : WnwErr) : State :=
  match e with
  | .xlate => s.gcMchk w 3 va
  | .fence => s.gcMchk w 4 va
  | .poison k =>
    let ((pa, new), s) := wnwPoison s k w va
    if new then s else s.gcMchk w 0x26 pa
  | _ => s

/-- Set or clear DESTWAIT of a Winnower; becoming set sends the collection interrupt (R155). -/
def setDestWait (s : State) (k : Nat) (w on : Bool) : State :=
  let s := (s.modWnw k w fun y => { y with destWait := on }).setRegF (wnwBase k + 8) 1 1
    (b2n (on || (s.wnw k (!w)).destWait))
  let any := (List.range 12).any fun j => (s.wnw j w).destWait
  let was := bit (s.reg (gcBase (wn w) + 8)) 6
  let s := s.setRegF (gcBase (wn w) + 8) 6 6 (b2n any)
  if any && !was then s.gcInterrupt w else s

/-- Set or clear that a full spill area stops a Winnower; SPILLFULL shows whether one does, and a Winnower that stops sends
the collection interrupt (R154). -/
def setFull (s : State) (k : Nat) (w on : Bool) : State :=
  let was := (s.wnw k w).full
  let s := s.modWnw k w fun y => { y with full := on }
  let s := s.setRegF (gcBase (wn w) + 8) 8 8 (b2n ((List.range 12).any fun j => (s.wnw j w).full))
  if on && !was then s.gcInterrupt w else s

/-- The work is tried again: it waits for a line, a destination plot or a spill area. -/
def WnwErr.waits : WnwErr → Bool
  | .stall => true
  | .wait _ => true
  | .noDest _ => true
  | .full _ => true
  | _ => false

/-- The state that Winnower work leaves when it does not complete: it has no other effect and is tried again. A failed access
holds the phase until the next boundary (R150). -/
def wnwStop (s : State) (w : Bool) (va : Nat) (e : WnwErr) : State :=
  match e with
  | .stall => s
  | .wait q => s.sendMiss q
  | .noDest k => setDestWait s k w true
  | .full k => setFull s k w true
  | _ => (wnwFail s w va e).modGcW w fun g => { g with failing := true }

end Sys2Proof.Machine
end

