-- ==== Sys2Proof/Machine/Operands.lean ====
section
/-! DEFINITION. Operands of an instruction: register specifiers and windows (R46, R47, R181), the checks of a source
word (R26), the operand classes of R73, FUTURE operands (R107), and the formats of R68 as instruction words. -/

namespace Sys2Proof.Machine

/-- Where a specifier leads. -/
inductive RLoc where
  | gr (i : Nat)
  | esc (i : Nat)
deriving DecidableEq, Repr

/-- `in`, `lc` and `out` of window `w` as indices into a bank's registers: gl0-gl7, then P[0]-P[127] (R46). -/
def inIx (w i : Nat) : Nat := 8 + (16 * w + i) % 128
def lcIx (w i : Nat) : Nat := 8 + (16 * w + 8 + i) % 128
def outIx (w i : Nat) : Nat := 8 + (16 * (w + 1) + i) % 128

/-- The register of a specifier in window `w` (R47). -/
def specIx (w spec : Nat) : Nat :=
  if spec < 8 then spec
  else if spec < 16 then outIx w (spec - 8)
  else if spec < 24 then lcIx w (spec - 16)
  else inIx w (spec - 24)

/-- The register of a specifier, in escalation or not (R181). -/
def specLoc (inEsc : Bool) (w spec : Nat) : RLoc :=
  if inEsc && decide (spec < 8) then .esc spec
  else if inEsc && decide (16 ≤ spec) && decide (spec < 24) then .esc (spec - 8)
  else .gr (specIx w spec)

/-- The register of mask bit `i` of STM and LDM with window offset `wo` (R52, R181). -/
def maskLoc (inEsc : Bool) (cwp wo i : Nat) : RLoc :=
  if wo != 0 && decide (16 ≤ i) then .gr (specIx ((cwp + wo) % 8) i) else specLoc inEsc cwp i

/-- The general registers that an instruction of the bank reads its operands from: those read at issue while it goes on
after a wait (R194). -/
def Bank.opGr (k : Bank) : Tbl Word :=
  match k.wait with
  | some w => w.gr.getD k.gr
  | none => k.gr

namespace State

/-- Read a register of bank `b` of core `c`. -/
def rdLoc (s : State) (c : Nat) (b : Fin 4) : RLoc → Word
  | .gr i => Tbl.get nilWord (s.bank c b).gr i
  | .esc i => Tbl.get nilWord (s.core c).esc i

/-- Read a register as an operand of the bank's instruction. -/
def opLoc (s : State) (c : Nat) (b : Fin 4) : RLoc → Word
  | .gr i => Tbl.get nilWord (s.bank c b).opGr i
  | .esc i => Tbl.get nilWord (s.core c).esc i

/-- Write a register of bank `b` of core `c`. -/
def wrLoc (s : State) (c : Nat) (b : Fin 4) (l : RLoc) (w : Word) : State :=
  match l with
  | .gr i => s.modBank c b fun k => { k with gr := Tbl.set nilWord k.gr i w }
  | .esc i => s.modCore c fun x => { x with esc := Tbl.set nilWord x.esc i w }

/-- The register that a specifier of the executing bank names. -/
def loc (s : State) (c : Nat) (b : Fin 4) (spec : Nat) : RLoc :=
  specLoc (s.core c).inEsc (s.bank c b).status.cwp.toNat spec

/-- Read by specifier, as an operand, and write by specifier. -/
def rdReg (s : State) (c : Nat) (b : Fin 4) (spec : Nat) : Word := s.opLoc c b (s.loc c b spec)
def wrReg (s : State) (c : Nat) (b : Fin 4) (spec : Nat) (w : Word) : State := s.wrLoc c b (s.loc c b spec) w

/-- The fault of R26 that a word raises when it is read, if any. -/
def badWord (s : State) (w : Word) : Option Nat :=
  if s.reservedType w.type then some cTAGRES else if s.malformed w then some cTYPE else none

/-- An entry of the outstanding transaction table. -/
def ott (s : State) (i : Nat) : Ott := Tbl.get {} s.fab.ott i
def setOtt (s : State) (i : Nat) (o : Ott) : State := { s with fab := { s.fab with ott := Tbl.set {} s.fab.ott i o } }

end State

/-- The bank of the instruction. -/
def getBank (cx : Ctx) : M Bank := return (← get).bank cx.c cx.b
def modB (cx : Ctx) (f : Bank → Bank) : M Unit := modify fun s => s.modBank cx.c cx.b f
def getReg (cx : Ctx) (spec : Nat) : M Word := return (← get).rdReg cx.c cx.b spec
def putReg (cx : Ctx) (spec : Nat) (w : Word) : M Unit := modify fun s => s.wrReg cx.c cx.b spec w

namespace State

/-- A control-store word of a cluster copy has failed parity (R219): it is copied from the next copy, in ascending order
and wrapping after cluster 11, that is good, or stays as it is; counted, and CSLAST set. Answers whether it is good now. -/
def csRepairC (s : State) (k store adr : Nat) : Bool × State :=
  let s := s.setReg rCSLAST (v64 (fld 20 store + fld 16 k + adr))
  match ((List.range 11).map fun i => (k + 1 + i) % 12).find? fun j => !(s.csBad.contains (j, store, adr)) with
  | some _ => (true, { (s.incF rCSREP 63 0 1) with csBad := s.csBad.filter (· != (k, store, adr)) })
  | none =>
    (false, { (s.incF rCSUNC 63 0 1) with csBad := s.csBad.filter (· != (k, store, adr)) ++ [(k, store, adr)] })

/-- The same for copy `k`: 0 to 11 of a cluster, 12 + c the dispatch copy of core `c`, which is refetched from its cluster's
copy (R219). -/
def csRepair (s : State) (k store adr : Nat) : Bool × State :=
  if k < 12 then s.csRepairC k store adr
  else
    let c := k - 12
    let j := clusterOf c
    let (good, s) := if s.csBad.contains (j, store, adr) then s.csRepairC j store adr else (true, s)
    let s := s.setReg rCSLAST (v64 (fld 20 store + fld 16 j + adr))
    if good then
      let v := s.reg (rDENT adr)
      let d := Tbl.erase (s.core c).dcopy adr
      let s := s.modCore c fun x => { x with dcopy := if v = regReset (rDENT adr) then d else Tbl.insert d adr v }
      (true, { (s.incF rCSREP 63 0 1) with csBad := s.csBad.filter (· != (k, store, adr)) })
    else (false, { (s.incF rCSUNC 63 0 1) with csBad := s.csBad.filter (· != (k, store, adr)) ++ [(k, store, adr)] })

/-- A fetch of a control-store word by core `c` for world `w` outside a routine: a failed word is repaired and raises MCHK
as an event, with a free micro address (R218, R219; DESIGN CHOICE, log entry 150). -/
def csCheck (s : State) (c : Nat) (w : Bool) (k store adr : Nat) : State :=
  if s.csBad.contains (k, store, adr) then
    let (good, s) := s.csRepair k store adr
    let (v, s) := s.freeVal
    s.sendMchk c w (mchkTval (if good then 0x40 else 0x41) (v.toNat % 2 ^ 14))
  else s

end State

/-- Raise the fault of R26 for a word, with its TVAL. The attribute of an Allotment type is read from the cluster's copy
(R219, R228). -/
def checkWord (cx : Ctx) (w : Word) (tval : Val) : M Unit := do
  modify fun s => s.csCheck cx.c cx.w (clusterOf cx.c) 3 w.type
  match (← get).badWord w with
  | some c => fault c tval
  | none => pure ()

/-- A source register, checked at order 3 of R74. -/
def srcReg (cx : Ctx) (spec : Nat) : M Word := do
  let w ← getReg cx spec
  checkWord cx w (regTval spec)
  return w

/-- TYPE at order 4 with the register's number, unless the condition holds (R73). Of several operands that fail, and of a
FUTURE to wait for, each meaning takes the one that it tests first (DESIGN CHOICE, log entry 126). -/
def want (p : Bool) (spec : Nat) : M Unit := faultIf (!p) cTYPE (regTval spec)

/-- The classes of R73. -/
def isF (w : Word) : Bool := w.type == tyFIX
def isRw (w : Word) : Bool := w.type == tyRAW
def isFR (w : Word) : Bool := isF w || isRw w
def isFL (w : Word) : Bool := w.type == tyFLO

/-- TVAL of REMOTE_ERR (R391). -/
def remoteTval (ref : Val) (reason : Nat) : Val := v64 (ref.toNat / 2 ^ 15 * 2 ^ 15 + reason % 256)

/-- The result of the transaction that a FUTURE names; the bank waits while it is pending (R107, R392). -/
def future (_cx : Ctx) (w : Word) : M Word := do
  let s ← get
  let ix := bits w.val 16 0
  let e := s.ott ix
  if e.busy then throw (.wait { cause := 3, key := ix })
  else
    match e.res with
    | .word r => return r
    | .error n => fault cREMOTE (remoteTval e.ref.val n)
    | _ => fault cREMOTE (remoteTval e.ref.val 13)

/-- An operand word, waited on when it is a FUTURE. -/
def await (cx : Ctx) (w : Word) : M Word := if w.type == tyFUTURE then future cx w else pure w

/-- A class-A operand (R73): P or Rw, REMOTE where allowed, a FUTURE waited on. -/
def addrOp (cx : Ctx) (spec : Nat) (w : Word) (remote : Bool) : M Word := do
  let w ← await cx w
  let s ← get
  want (s.isPtr w.type || isRw w || (remote && w.type == tyREMOTE)) spec
  return w

/-- A program counter is 48 bits (R95): a branch or call target, or an address + 4, outside them wraps modulo 2^48 (DESIGN
CHOICE, log entry 130). -/
def pcOf (v : Val) : Val := v &&& 0xFFFFFFFFFFFF

/-- What an instruction is encoded as: its word, and whether a reserved field is not zero (R69). -/
structure Enc where
  word : Nat
  resv : Bool
deriving DecidableEq, Repr

/-- Encodings with the fields that the entry uses. -/
def tEnc (major func : Nat) (f : TForm) (rd rs1 rs2 : Bool) (extUsed : Nat) : Enc :=
  ⟨encT major func f, (!rd && f.rd != 0) || (!rs1 && f.rs1 != 0) || (!rs2 && f.rs2 != 0) || f.ext.toNat / 2 ^ extUsed != 0⟩
def iEnc (major func : Nat) (f : IForm) (rd rs1 : Bool) (immUsed : Nat) : Enc :=
  ⟨encI major func f, (!rd && f.rd != 0) || (!rs1 && f.rs1 != 0) || f.imm.toNat / 2 ^ immUsed != 0⟩
def mEnc (major func : Nat) (f : MForm) (r : Bool) : Enc := ⟨encM major func f, !r && f.r != 0⟩
def bEnc (major func : Nat) (f : BForm) (rs : Bool) : Enc := ⟨encB major func f, !rs && f.rs != 0⟩

/-- Immediates: sign-extended and zero-extended imm12, the 12-bit and 9-bit displacements. -/
def simm (n : BitVec 12) : Val := n.signExtend 64
def zimm (n : BitVec 12) : Val := n.setWidth 64
def disp9 (n : BitVec 12) : Val := (n.setWidth 9).signExtend 64
def woOf (n : BitVec 12) : Nat := n.toNat / 512

/-- Where an instruction leaves the program counter: the next word, another address, an address whose first instruction
is exempt from breakpoints (RFE, R476), here (a long instruction that committed a step and goes on, R128), or here with
nothing retired yet (a hand-over or release that a yoke tick completes, R299, R301). -/
inductive Flow where
  | fall
  | jump (pc : Val)
  | resume (pc : Val)
  | again
  | hold
deriving DecidableEq, Repr

end Sys2Proof.Machine
end

