-- ==== Sys2Proof/Machine/Trap.lean ====
section
/-! DEFINITION. What happens to a bank at a boundary other than retiring: events that reach it (R195, R305), trap entry
(R174-R177), escalation (R179, R180), escapes (R115), violations (R189), debug halts (R472, R309), and the entry into a
wait (R194). -/

namespace Sys2Proof.Machine

/-- A pending item of R174. -/
inductive Item where
  | mchk (tval : Val)
  | imprecise
  | int (level kind data : Nat)
deriving DecidableEq, Repr

/-- A bank becomes Ready, or waits for its scan or flip (R144). -/
def Bank.ready (k : Bank) : Bank :=
  if k.scanPend || k.flipPend then { k with st := 3, wcause := 7 } else { k with st := 1, wcause := 0 }

/-- A result of MUL or DIV is written (R61). -/
def Bank.putMD (k : Bank) (p : PendMD) : Bank :=
  if p.div then { k with qt := p.hi, rm := p.lo } else { k with ph := p.hi, pl := p.lo }

/-- A bank whose wait ends: Waiting becomes Ready; a Parked bank keeps the result (R193, R194). -/
def Bank.wake (k : Bank) (r : WaitResult) : Bank :=
  match k.wait with
  | none => k
  | some w =>
    let k : Bank := { k with wait := some { w with done := true, res := r } }
    if k.st == 3 then k.ready
    else if k.st == 5 && k.prev == 3 then { k with prev := k.ready.st, wcause := k.ready.wcause }
    else { k with wcause := 0 }

/-- BEVT gains a bit; a WAITE whose mask holds it ends (R195). -/
def Bank.addEvt (k : Bank) (i : Nat) : Bank :=
  let k : Bank := { k with bevt := k.bevt ||| (1#4 <<< i) }
  match k.wait with
  | some w => if w.cause == 1 && !w.done && w.mask.testBit i then k.wake .none else k
  | none => k

/-- An unlocked TLB entry is one that a broadcast removes (R263). -/
def TlbBcast.removes (x : TlbBcast) (e : TlbEntry) : Bool :=
  e.world == x.world &&
    (if x.kind == 0 then true
     else if x.kind == 1 then e.asid == x.asid && !e.g
     else if x.kind == 2 then e.vpn == x.va / e.size && (e.asid == x.asid || e.g)
     else false)

namespace State

/-- An agent that has received a broadcast acknowledges it once no store made through a removed or freed entry is left in its
store buffer; a frozen core at once (R264, R265). -/
def tlbAck (s : State) (a id : Nat) : State :=
  match Tbl.get none s.bcasts id with
  | none => s
  | some x =>
    let made (e : SBEntry) : Bool := match e.tr with
      | some t => x.removes t || x.freed.contains t
      | none => false
    if !(x.received.contains a) || (decide (a < 96) && !(s.core a).frozen && (s.core a).sb.any made) then s
    else { s with bcasts := Tbl.set none s.bcasts id (some { x with waiting := x.waiting.filter (· != a) }) }

/-- Agent `a` receives TLB broadcast `id` (R264): the matching entries go, and it acknowledges when it may. -/
def tlbReceive (s : State) (a id : Nat) : State :=
  match Tbl.get none s.bcasts id with
  | none => s
  | some x =>
    if !(x.waiting.contains a) then s
    else
      let s := { s with bcasts := Tbl.set none s.bcasts id (some { x with received := x.received.filter (· != a) ++ [a] }) }
      let s := if a < 96 then
          let s := s.modCore a fun k => k.tlbDrop x.removes
          if s.pairMode (pairOf a) == 2 then s.modCore (a + 1) fun k => k.tlbDrop x.removes else s
        else
          let left := (Tbl.get [] s.gc.tlb (a - 96)).filter fun e => !(x.removes e)
          { s with gc := { s.gc with tlb := Tbl.set [] s.gc.tlb (a - 96) left } }
      s.tlbAck a id

/-- The effect of an event on core `c`. -/
def applyEv (s : State) (c : Nat) : LatchEv → State
  | .bevt b i => s.modBank c b (·.addEvt i)
  | .waitDone b r => s.modBank c b (·.wake r)
  | .mchk w v => s.pendMchk c w v
  | .gcInt w => s.modCore c fun x => if w then { x with gcInt1 := true } else { x with gcInt0 := true }
  | .ipend w i => s.setRegF (worldRegs c (wn w) + 8) i i 1
  | .icpend w snd =>
    if snd < 64 then s.setRegF (worldRegs c (wn w) + 0x10) snd snd 1
    else s.setRegF (worldRegs c (wn w) + 0x18) (snd - 64) (snd - 64) 1
  | .tlbinv id => s.tlbReceive c id
  | .ovf _ => s

/-- An event for core `c` reaches it at once, or through the latch of a pair that is not split (R305). -/
def deliver (s : State) (c : Nat) (e : LatchEv) : State :=
  let m := s.pairMode (pairOf c)
  if m == 1 || m == 2 || m == 3 then s.modPair (pairOf c) fun p => { p with latch := p.latch ++ [e] }
  else s.applyEv c e

/-- Every bank that satisfies a test on its wait is woken through its core's path. -/
def wakeAll (s : State) (p : WaitRec → Bool) (r : WaitResult) : State :=
  s.banks.foldl (fun s (x : Nat × Bank) =>
    match x.2.wait with
    | some w => if !w.done && p w then s.deliver (x.1 / 4) (.waitDone (Fin.ofNat 4 x.1) r) else s
    | none => s) s

/-- Pending MUL and DIV results of a bank are written, in issue order (R61, R63). -/
def drainMD (s : State) (c : Nat) (b : Fin 4) : State :=
  s.modBank c b fun k => { k.pend.foldl Bank.putMD k with pend := [] }

/-- The results of a bank whose cycle has come are written (R61, R62). -/
def settleMD (s : State) (c : Nat) (b : Fin 4) : State :=
  s.modBank c b fun k =>
    { (k.pend.filter fun p => p.due ≤ s.cycle).foldl Bank.putMD k with pend := k.pend.filter fun p => s.cycle < p.due }

/-- Load-assist requests of a bank are forgotten: answered ones go, the reply to a waiting one will be discarded (R148). -/
def dropAssists (s : State) (c b : Nat) : State :=
  let a := (s.gc.assists.filter fun a => !(a.core == c && a.bank == b && a.result.isSome)).map fun a =>
    if a.core == c && a.bank == b then { a with core := 128 } else a
  { s with gc := { s.gc with assists := a } }

/-- Trap entry that abandons the wait of a BSEND: the next send of its source bin repeats the number (R321). The wait of a
BSEND carries its source bin in `slot`, counted from 2. -/
def resend (s : State) (c : Nat) (b : Fin 4) : State :=
  match (s.bank c b).wait with
  | some w => if w.cause == 2 && 2 ≤ w.slot then s.setRegF (binBase (w.slot - 2) + 0x28) 16 16 1 else s
  | none => s

/-- Nobody takes the answers to a bank's messages in flight any more (R321). -/
def dropFlights (s : State) (c : Nat) (b : Fin 4) : State :=
  { s with bins := { s.bins with
    flight := s.bins.flight.map fun f => if f.back = .bank c b then { f with back := .nobody } else f } }

/-- The instruction that a bank was waiting in is abandoned: a transaction still out has its result discarded (R194). -/
def abandon (s : State) (c : Nat) (b : Fin 4) : State :=
  let k := s.bank c b
  let s := match k.wait with
    | some w =>
      if w.cause == 2 && w.slot != 1 && !w.done then (s.dropFlights c b).setOtt w.key { s.ott w.key with discard := true } else s
    | none => s
  let s := if k.micro.isSome then s.trace c 4 b k.pc.toNat else s
  (s.dropAssists c b.val).modBank c b fun k => { k with wait := none, micro := none, exempt := false }

/-- FAULT_N is driven low (R307, R489). -/
def assertFault (s : State) : State := { s with pins := { s.pins with faultN := false } }

/-- STATUS.YK of every bank of both cores of a pair. -/
def setYK (s : State) (p : Nat) (y : Bool) : State :=
  [2 * p, 2 * p + 1].foldl (fun s c => [(0 : Fin 4), 1, 2, 3].foldl (fun s b =>
    s.modBank c b fun k => { k with status := { k.status with yk := y } }) s) s

def setPairMode (s : State) (p m : Nat) : State := s.setRegF (pairBase p) 1 0 m

/-- Held latch contents go to the even core (R301, R309). -/
def releaseLatch (s : State) (p : Nat) : State :=
  let evs := (s.pair p).latch
  evs.foldl (fun s e => s.applyEv (2 * p) e) (s.modPair p fun x => { x with latch := [] })

/-- The odd core of a pair in lockstep holds what the even core holds (R296, R299): its banks, escalation set and per-world
registers. -/
def syncOdd (s : State) (p : Nat) : State :=
  let e := s.core (2 * p)
  let s := [(0 : Fin 4), 1, 2, 3].foldl (fun s b => s.setBank (2 * p + 1) b (s.bank (2 * p) b)) s
  s.modCore (2 * p + 1) fun x => { x with
    esc := e.esc, inEsc := e.inEsc, w0 := e.w0, w1 := e.w1, run := e.run, lastRun := e.lastRun }

/-- One core's banks all become Frozen (R189). -/
def freezeBanks (s : State) (c : Nat) : State :=
  let s := [(0 : Fin 4), 1, 2, 3].foldl (fun s b => s.modBank c b fun k => { k with prev := k.st, st := 5 }) s
  (s.modCore c fun x => { x with frozen := true }).frzBit c true

/-- A core freezes for a reason, with its partner when the pair is yoked; a hand-over in progress ends with the pair split
and what its latch holds goes to the even core (R189, R310). -/
def freezeFor (s : State) (c why : Nat) : State :=
  let p := pairOf c
  let mode := s.pairMode p
  let one (s : State) (c : Nat) : State := (s.modCore c fun x => { x with frzWhy := why }).freezeBanks c
  if (s.core c).frozen then s
  else if mode == 2 then one (one (s.syncOdd p) (c + 1)) c
  else if mode == 1 then (((one s c).setPairMode p 0).modPair p fun x => { x with handover := none }).releaseLatch p
  else one s c

/-- Core `c` commits a violation by the instruction of bank `b` at `pc` in world `w` (R189): it freezes unless it is frozen
already, and the violation is logged. -/
def freezeCoreAt (s : State) (c : Nat) (b : Fin 4) (w : Bool) (pc : Val) (why : Nat) (addr : Val) : State :=
  let s := s.freezeFor c why
  s.logViolation why 0 (wn w) c addr (v64 (fld 49 b.val + pc.toNat % 2 ^ 48))

/-- A violation of the instruction at the program counter of bank `b`. -/
def freezeCore (s : State) (c : Nat) (b : Fin 4) (why : Nat) (addr : Val) : State :=
  s.freezeCoreAt c b (s.bank c b).status.wld (s.bank c b).pc why addr

/-- Reservations of every bank of a core are cleared. -/
def dropResv (s : State) (c : Nat) : State :=
  [(0 : Fin 4), 1, 2, 3].foldl (fun s b => s.modBank c b fun k => { k with resv := none }) s

/-- A debug halt is taken on core `c` (R472, R476); on a yoked pair it splits the pair (R309), and a pair whose YOKE.OFF
is not complete is treated in the same way (R310). -/
def haltCore (s : State) (c why slot : Nat) : State :=
  let p := pairOf c
  let s := if s.pairMode p == 2 then
      let o := c + 1
      let s := s.syncOdd p
      let s := [(0 : Fin 4), 1, 2, 3].foldl (fun s b => s.modBank o b fun k => { k with st := 4, wcause := 0, wait := none }) s
      let s := s.modCore o fun x => { x with run := none }
      let s := ((s.setYK p false).setPairMode p 0).setRegF (pairBase p) 7 7 1
      (s.modPair p fun x => { x with release := none }).releaseLatch p
    else s
  let s := (s.modCore c fun x => { x with halted := true, stopReq := false, stepLeft := 0, stepHold := false }).dropResv c
  let s := s.setReg (dbgBase c) (v64 (fld 8 slot + fld 4 why + 1))
  let k := clusterOf c
  let tc := s.reg (traceBase k)
  let s := if bit tc 0 && bit tc 9 && bits tc 12 10 == c % 8 then s.setRegF (traceBase k) 0 0 0 else s
  s.incF (modCtr 5) 63 0 1

/-- One instruction fewer of a STEP is left (R473). -/
def stepped (s : State) (c : Nat) : State := s.modCore c fun x => { x with stepLeft := x.stepLeft - 1 }

/-- The TSB of bank `b` (R172): its physical address, when it is usable. -/
def tsbOf (s : State) (c : Nat) (b : Fin 4) : Option Nat :=
  let base := bits (s.coreW c (s.bank c b).status.wld).tsbr 39 9 * 512 + 128 * b.val
  if s.inDram base && s.inDram (base + 127) then some base else none

/-- Escalation entry (R180), after its step 1. -/
def escalate (s : State) (c : Nat) (b : Fin 4) (cause tval : Val) (why : Nat) (due : Bool) : State :=
  let s := s.drainMD c b
  let k := s.bank c b
  let st := k.status
  let cw := s.coreW c st.wld
  let e : Tbl Word := [(8, rawWord k.pc), (9, rawWord st.toVal), (10, rawWord cause), (11, rawWord tval),
    (12, rawWord (v64 (bits cw.escstk 47 3 * 8))), (13, rawWord (v64 why))]
  let s := s.modCore c fun x => { x with esc := e, inEsc := true }
  s.modBank c b fun k => { k with
    status := { st with lvl := true, ml := 15, impp := st.impp && !due }, pc := cw.escvec }

/-- Words written upward from a physical address by core `c` for world `w`, each as a cacheable store. -/
def tsbWrite (s : State) (c : Nat) (w : Bool) : Nat → List Val → Except CohFail State
  | _, [] => .ok s
  | a, v :: r =>
    match s.cohStore c w a (.word (rawWord v)) none with
    | .ok (_, s) => tsbWrite s c w (a + 8) r
    | .error e => .error e

/-- Trap entry (R177) for a fault, an event or a due imprecise exception: none while a TSB line is busy, and none while an
older store to it has not drained (R75). `insn` is the
instruction word of a fault, 0 for an event. -/
def trapEntry (s : State) (c : Nat) (b : Fin 4) (code ilv : Nat) (tval : Val) (insn : Nat) (due : Bool) : Option State :=
  let s := ((s.resend c b).abandon c b).modBank c b fun k => { k with resv := none }
  let k := s.bank c b
  let st := k.status
  let cause (imp : Bool) : Val := v64 (fld 16 ilv + fld 8 (b2n imp) + code)
  if st.ml == 15 then some (((s.escalate c b (cause due) tval 1 due).trace c 6 b code).countEvent c 5 1)
  else
    let s := s.drainMD c b
    match s.tsbOf c b with
    | none => some (((s.escalate c b (cause due) tval (if st.cwp == k.twp then 2 else 3) due).trace c 6 b code).countEvent c 5 1)
    | some base =>
      if st.cwp == k.twp then some (((s.escalate c b (cause due) tval 2 due).trace c 6 b code).countEvent c 5 1)
      else if (s.core c).sb.any (fun e => e.pa / 64 == base / 64) then none
      else
        let imp := st.impp
        let words := [k.pc, st.toVal, cause imp, tval, if imp then k.aepc else 0, s.bout, v64 insn,
          if imp then v64 k.impReason else 0]
        match s.tsbWrite c st.wld base words with
        | .error .fence => some (s.freezeCore c b vFENCETSB (v64 base))
        | .error _ => none
        | .ok s =>
          let s := s.modBank c b fun k => { k with
            cause := cause imp, tval := tval,
            status := { st with lvl := true, ml := 15, cwp := st.cwp + 1, impp := false },
            pc := (s.coreW c st.wld).trapent }
          some ((s.trace c 6 b code).countEvent c 5 1)

/-- A trap entry that waits for its TSB line has its request out (R280). -/
def tsbMiss (s : State) (c : Nat) (b : Fin 4) : State :=
  match s.tsbOf c b with
  | none => s
  | some base =>
    match s.cohOwn c (s.bank c b).status.wld (base / 64) with
    | .error (.wait q) => s.sendMiss q
    | _ => s

/-- A fault of the running instruction: trap entry, or the freeze of R179 in escalation. -/
def takeFault (s : State) (c : Nat) (b : Fin 4) (code : Nat) (tval : Val) (insn : Nat) (ev due : Bool) : Option State :=
  if (s.core c).inEsc then some (s.freezeCore c b vESCFAULT 0)
  else (s.trapEntry c b code 0 tval (if ev then 0 else insn) due).map fun s => s.stepped c

/-- An escape of class `n` (R115, R117). -/
def takeEscape (s : State) (c : Nat) (b : Fin 4) (n insn : Nat) : Option State :=
  if (s.core c).inEsc then some (s.freezeCore c b vESCFAULT 0)
  else
    let k := s.bank c b
    if bits k.escbase 47 12 == 0 then s.takeFault c b cESCTAB (v64 n) insn false false
    else
      let s := (s.trace c 5 b k.pc.toNat).countEvent c 4 1
      let s := (s.dropAssists c b.val).modBank c b fun k => { k with
        resv := none, escpc := pcOf (k.pc + 4), pc := pcOf (v64 (bits k.escbase 47 12 * 4096 + 64 * n)), wait := none,
        micro := none, exempt := false }
      some (s.stepped c)

/-- The pending interrupts of world `w` on core `c`, as (level, kind, data) (R199, R480). -/
def pendingInts (s : State) (c : Nat) (w : Bool) : List (Nat × Nat × Nat) :=
  let wr := worldRegs c (wn w)
  let cfg := s.reg wr
  let ip := s.reg (wr + 8)
  let senders := (List.range 96).filter fun i =>
    if i < 64 then bit (s.reg (wr + 0x10)) i else bit (s.reg (wr + 0x18)) (i - 64)
  let ovf := (List.range 8).filter fun n =>
    let e := s.reg (dbgBase c + 0x200 + 8 * n)
    bit e 24 && bits e 23 20 != 0 && bit e 18 == w && !((s.pair (pairOf c)).latch.contains (.ovf n))
  let ovl := ovf.foldl (fun m n => max m (bits (s.reg (dbgBase c + 0x200 + 8 * n)) 23 20)) 0
  let gcp := if w then (s.core c).gcInt1 else (s.core c).gcInt0
  (if bit ip 1 then [(bits cfg 15 12, 1, 0)] else []) ++
  (if bit ip 0 then [(bits cfg 7 4, 2, 0)] else []) ++
  (match senders with | x :: _ => [(bits cfg 11 8, 3, x)] | [] => []) ++
  (if ovf.isEmpty then [] else [(ovl, 4, ovf.foldl (fun m n => m + 2 ^ n) 0)]) ++
  (if gcp then [(bits (s.reg (gcBase (wn w))) 23 20, 5, 0)] else [])

/-- The interrupt that world `w` takes first on core `c` above a mask level (R174, R199). -/
def topInt (s : State) (c : Nat) (w : Bool) (ml : Nat) : Option (Nat × Nat × Nat) :=
  let ok := (s.pendingInts c w).filter fun x => x.1 != 0 && (x.1 == 15 || decide (ml < x.1))
  ok.foldl (fun best x => match best with
    | none => some x
    | some y => if y.1 < x.1 then some x else best) none

/-- The first item of R174 for a bank with its world, mask level and imprecise state, on core `c`. The count of R176 begins
with the retirement of the instruction that set IMPP, which is not one of the 32. -/
def itemFor (s : State) (c : Nat) (k : Bank) : Option Item :=
  let w := k.status.wld
  let mc := if w then (s.core c).mchk1 else (s.core c).mchk0
  match mc with
  | v :: _ => some (.mchk v)
  | [] =>
    if k.status.impp && decide (32 < k.impCount) then some .imprecise
    else
      match s.topInt c w k.status.ml.toNat with
      | some (l, kd, d) =>
        if (s.core c).stepHold && l != 15 then none else some (.int l kd d)
      | none => none

/-- The item that applies to bank `b` of core `c` now: none in escalation. -/
def pendingItem (s : State) (c : Nat) (b : Fin 4) : Option Item :=
  if (s.core c).inEsc then none else s.itemFor c (s.bank c b)

/-- A taken item is cleared (R197, R199). -/
def clearItem (s : State) (c : Nat) (w : Bool) : Item → State
  | .mchk _ => s.modCore c fun x => if w then { x with mchk1 := x.mchk1.drop 1 } else { x with mchk0 := x.mchk0.drop 1 }
  | .imprecise => s
  | .int _ kd d =>
    let wr := worldRegs c (wn w)
    if kd == 1 then s.setRegF (wr + 8) 1 1 0
    else if kd == 2 then s.setRegF (wr + 8) 0 0 0
    else if kd == 3 then
      (if d < 64 then s.setRegF (wr + 0x10) d d 0 else s.setRegF (wr + 0x18) (d - 64) (d - 64) 0)
    else if kd == 5 then s.modCore c fun x => if w then { x with gcInt1 := false } else { x with gcInt0 := false }
    else s

/-- Bank `b` of core `c` takes an item: trap entry with the item's CAUSE and TVAL; none while a TSB line is busy.
An item whose trap entry freezes the core stays pending (R189). -/
def takeItem (s : State) (c : Nat) (b : Fin 4) (it : Item) : Option State :=
  let k := s.bank c b
  let r := match it with
    | .mchk v => s.trapEntry c b cMCHK 0 v 0 false
    | .imprecise => s.trapEntry c b cARITH 0 (v64 k.impReason) 0 true
    | .int l kd d => s.trapEntry c b cINT l (v64 (fld 12 kd + d)) 0 false
  r.map fun s => if (s.core c).frozen then s else (s.clearItem c k.status.wld it).stepped c

/-- The bank that may execute an instruction on core `c` now, if there is one: the core is powered, enabled, not frozen,
not halted, its pair is not held, and its Running bank has no scan or flip outstanding. -/
def issuable (s : State) (c : Nat) : Option (Fin 4) :=
  let x := s.core c
  let p := s.pair (pairOf c)
  if s.tripped || !s.coreEnabled c || s.oddBound c || x.frozen || x.halted || x.pg ||
      s.pairMode (pairOf c) == 3 || p.handover.isSome || p.release.isSome ||
      (x.stopReq && !x.inEsc) || (bit (s.reg (dbgBase c)) 1 && x.stepLeft == 0) then none
  else
    match x.run with
    | some b => if (s.bank c b).scanPend || (s.bank c b).flipPend then none else some b
    | none => none

/-- A bank enters Waiting (R193, R194); the core then has no Running bank. -/
def enterWait (s : State) (c : Nat) (b : Fin 4) (r : WaitRec) : State :=
  (s.modBank c b fun k => { k with st := 3, wcause := BitVec.ofNat 3 r.cause, wait := some r }).modCore c
    fun x => { x with run := none, lastRun := b }

/-- An instruction retires: the program counter moves, the imprecise count runs (R176), a STEP counts (R473). -/
def retire (s : State) (c : Nat) (b : Fin 4) (f : Flow) : State :=
  match f with
  | .again => (s.modBank c b fun k => { k with wait := none }).stepped c
  | .hold => s
  | _ =>
    let k := s.bank c b
    let pc := match f with
      | .jump v => pcOf v
      | .resume v => pcOf v
      | _ => pcOf (k.pc + 4)
    let free := match f with
      | .resume _ => true
      | _ => false
    let s := (s.countEvent c 2 1).trace c 1 b k.pc.toNat
    let s := (s.dropAssists c b.val).modBank c b fun k => { k with
      pc := pc, impCount := if k.status.impp then k.impCount + 1 else k.impCount, wait := none, micro := none,
      exempt := free }
    s.stepped c

/-- A yoked pair halts on a mismatch of bank `b` (R307): the record, the event, FAULT_N. -/
def yokeMismatch (s : State) (p item : Nat) (b : Fin 4) (even odd : Word) : State :=
  let o := pairBase p
  let s := s.syncOdd p
  let pc := (s.bank (2 * p) b).pc
  let mis := v64 (fld 63 1 + fld 52 item + fld 48 b.val + pc.toNat % 2 ^ 48)
  let s := ((((s.setReg (o + 0x10) mis).setReg (o + 0x18) even.val).setReg (o + 0x20) odd.val).setReg (o + 0x28)
    (v64 (fld 8 odd.tag.toNat + even.tag.toNat))).setReg (o + 0x30) s.bout
  let s := (s.setPairMode p 3).logEvent 4 0 p 2 mis s.bout
  if bit (s.reg (o + 8)) 1 then s.assertFault else s

end State

/-- How the block goes on after an instruction of bank `b` of core `c` with word `insn` that started in `s0`. -/
def finish (s0 : State) (c : Nat) (b : Fin 4) (insn : Nat) :
    EStateM.Result Exc State Flow → Host.Outcome State Fault Refusal
  | .ok f s => .next (s.retire c b f)
  | .error (.trap code tval) s => .next ((s.takeFault c b code tval insn false false).getD (s0.tsbMiss c b))
  | .error (.escape n) s => .next ((s.takeEscape c b n insn).getD (s0.tsbMiss c b))
  | .error (.badInsn n) s => .next ((s.takeFault c b cILLEGAL 0 n false false).getD (s0.tsbMiss c b))
  | .error .imprecise s =>
    .next ((s.takeFault c b cARITH (v64 (s.bank c b).impReason) insn true true).getD (s0.tsbMiss c b))
  | .error (.wait r) s => .next (s.enterWait c b { r with iw := some insn, gr := some (s0.bank c b).opGr })
  | .error (.freeze why addr) s => .next (s.freezeCore c b why addr)
  | .error (.halt why slot) s => .next (s.haltCore c why slot)
  | .error .stall _ => .next s0
  | .error (.miss q) _ => .next (s0.sendMiss q)
  | .error (.unit w e) _ => .next (wnwStop s0 w 0 e)
  | .error (.vendor u) _ => .fault (.vendorOnly u)

end Sys2Proof.Machine
end

