-- ==== Sys2Proof/Machine/Collect.lean ====
section
/-! DEFINITION. What a Winnower does to one object or slot: mark bits, marking, scanning, copying, forwarding, fix-up
(R141, R144, R147, R151, R156-R159). -/

namespace Sys2Proof.Machine

/-- Winnower work over the state; it leaves with the failed access and its address (R150). -/
abbrev WM := EStateM (WnwErr × Nat) State

/-- A Winnower read and write in world `w`. -/
def wRead (k : Nat) (w : Bool) (va : Nat) : WM Word := do
  match wnwRead (← get) k w va with
  | .ok (x, s) => set s; return x
  | .error e => throw (e, va)

def wWrite (k : Nat) (w : Bool) (va : Nat) (x : Word) : WM Unit := do
  match wnwWrite (← get) k w va x with
  | .ok s => set s
  | .error e => throw (e, va)

/-- Run Winnower work, whole or not at all (R150). -/
def runW (s : State) (w : Bool) (m : WM Unit) : State :=
  match m s with
  | .ok _ s => s
  | .error (e, va) _ => wnwStop s w va e

/-- Count under R31 at Winnower `k`. -/
def badTag (k : Nat) : WM Unit := modify fun s => s.incF (wnwBase k + 0x10) 63 0 1

/-- The address of the bitmap word of a heap address, and the bit in it (R153). -/
def bitPlace (s : State) (w : Bool) (a : Nat) : Nat × Nat :=
  let off := a - s.heapBase w
  let i := off % 2 ^ 21 / 8
  (bits (s.reg (gcBase (wn w) + 0x18)) 47 15 * 2 ^ 15 + 2 ^ 15 * (off / 2 ^ 21) + 8 * (i / 64), i % 64)

/-- The mark bit of the word at a heap address. -/
def markBit (k : Nat) (w : Bool) (a : Nat) : WM Bool := do
  let (m, i) := bitPlace (← get) w a
  return bit (← wRead k w m).val i

/-- Set or clear a mark bit (R153). DEDUCED: the bitmap word is tagged RAW, as every 64-bit pattern that hardware writes. -/
def setMarkBit (k : Nat) (w : Bool) (a : Nat) (on : Bool) : WM Unit := do
  let (m, i) := bitPlace (← get) w a
  let x ← wRead k w m
  wWrite k w m (rawWord (setBits x.val i i (b2n on)))

/-- The Winnower that serves a heap address (R151, R163). -/
def wnwOf (s : State) (w : Bool) (a : Nat) : Nat :=
  s.inService (match s.plotOf w a with | some p => s.plotWnw p | none => 0)

/-- The object of a plot is left in place: the plot is held and PINNED is set (R158). -/
def holdPlot (w : Bool) (a : Nat) : WM Unit := modify fun s =>
  let s := s.setRegF (gcBase (wn w) + 8) 5 5 1
  match s.plotOf w a with
  | some p => s.modGcW w fun g => { g with unmov := if g.unmov.contains p then g.unmov else g.unmov ++ [p] }
  | none => s

/-- One entry goes to the spill area of Winnower `k`; the entry that fills the area stops the Winnower (R154). -/
def spillOne (k : Nat) (w : Bool) (p : Word) : WM Unit := do
  let s ← get
  let x := s.wnw k w
  let room := s.regF (wnwBase k + 0x48 + 0x40 * wn w) 19 0
  if room ≤ x.spill then throw (.full k, 0)
  wWrite k w (bits (s.reg (wnwBase k + 0x40 + 0x40 * wn w)) 47 12 * 4096 + 8 * x.spill) p
  modify fun s =>
    let s := s.modWnw k w fun x => { x with spill := x.spill + 1 }
    if x.spill + 1 == room then setFull s k w true else s

/-- Push an object on the mark stack of Winnower `k`; a full stack spills, and a Winnower that a full spill area stops takes no
more (R154). -/
def pushMark (k : Nat) (w : Bool) (p : Word) : WM Unit := do
  let x := (← get).wnw k w
  if x.full then throw (.full k, 0)
  else if x.stack.length < 4096 then modify fun s => s.modWnw k w fun x => { x with stack := p :: x.stack }
  else spillOne k w p

/-- Winnower work on the plot that holds an address is counted (R152). -/
def workAt (w : Bool) (a : Nat) : WM Unit := modify fun s =>
  match s.plotOf w a with
  | some p => s.addWork p
  | none => s

/-- Mark the object of pointer `p`, whose target is in scope (R158). A pointer that gives no size is counted by the Winnower
`who` that scans the root range or export entry, else by that of the plot named (R31). -/
def markFor (who : Option Nat) (w : Bool) (p : Word) : WM Unit := do
  let a := p.val.toNat
  let k := wnwOf (← get) w a
  let sized ← if (← get).isHeadered p.type then do pure ((← wRead k w a).type == tyHEADER) else pure true
  if !sized then do badTag (who.getD k); holdPlot w a
  else if ← markBit k w a then pure ()
  else
    setMarkBit k w a true
    if p.type == tySYMBOL then setMarkBit k w (a + 8) true
    pushMark k w p
    modify fun s => s.modGcW w fun g => { g with marked := g.marked ++ [(a, p)] }
    workAt w a

def markObj (w : Bool) (p : Word) : WM Unit := markFor none w p

/-- The test of R141 for tracing a word. -/
def traced (s : State) (w : Bool) (x : Word) : Bool := s.isPtr x.type && !x.weak && s.inScope w x.val.toNat

/-- Scan `n` words from an address: mark what they reach, count bad words (R31, R36). `who`: see `markFor`. -/
def scanWords (who : Option Nat) (k : Nat) (w : Bool) : Nat → Nat → WM Unit
  | 0, _ => pure ()
  | n + 1, a => do
    let x ← wRead k w a
    let s ← get
    if (s.badWord x).isSome then badTag k
    else if traced s w x then markFor who w x
    scanWords who k w n (a + 8)

/-- The size in words of the object at an address, from its type where known, else from its mark bits (R36, R158). -/
def objSize (k : Nat) (w : Bool) (a : Nat) (w0 : Word) : WM Nat := do
  if w0.type == tyHEADER then return 1 + bits w0.val 47 0
  else return if ← markBit k w (a + 8) then 4 else 2

/-- Copy `n` words upward, unchecked, counting bad ones (R31, R158). -/
def copyWords (k : Nat) (w : Bool) : Nat → Nat → Nat → WM Unit
  | 0, _, _ => pure ()
  | n + 1, src, dst => do
    let x ← wRead k w src
    if ((← get).badWord x).isSome then badTag k
    wWrite k w dst x
    copyWords k w n (src + 8) (dst + 8)

/-- What became of an object that was to be copied. -/
inductive CopyRes where
  | moved (new : Nat)
  | inPlace
deriving DecidableEq, Repr

/-- Take destination space for `n` words (step 2 of R158): DESTS.CUR is 0 once its plot is full. -/
def takeDest (k : Nat) (w : Bool) (n : Nat) : WM Nat := do
  let s ← get
  let x := s.wnw k w
  let plot (a : Nat) : Nat := (a - s.heapBase w) / 2 ^ 21
  let take (c : Nat) (q : List Nat) : WM Nat := do
    let next := if plot (c + 8 * n) == plot c then c + 8 * n else 0
    modify fun s => (s.modWnw k w fun y => { y with destq := q, cur := next }).modGcW w fun g =>
      { g with dests := if g.dests.contains (plot c) then g.dests else g.dests ++ [plot c] }
    return c
  if x.cur != 0 && plot x.cur == plot (x.cur + 8 * n - 8) then take x.cur x.destq
  else
    match x.destq with
    | p :: r => take (s.heapBase w + 2 ^ 21 * p) r
    | [] => throw (.noDest k, 0)

/-- The stores of world `w` that were issued before the boundary into Evacuate and are not performed (R156). -/
def State.storesLeft (s : State) (w : Bool) : Bool := s.cores.any fun (_, x) => x.sb.any fun e => e.world == w && e.pre

/-- Copying waits until the stores issued before the boundary have drained (R156). -/
def State.drained (s : State) (w : Bool) : State :=
  if (s.gcW w).draining && !(s.storesLeft w) then s.modGcW w fun g => { g with draining := false } else s

/-- A slot list for fix-up: kind 0 an object at an address, 1 a root range, 2 an export entry. -/
def State.addFix (s : State) (w : Bool) (k kind v : Nat) : State :=
  s.modWnw k w fun x => { x with toFix := x.toFix ++ [(kind, v)] }

/-- Copy one object (R158): `code` when it is known to be a CODE object, `headered` when it is known only through a
pointer of a headered type. A copy made in Fix-up is visited there (R159). -/
def copyObj (k : Nat) (w : Bool) (a : Nat) (code headered : Bool) (sym : Bool) : WM CopyRes := do
  let w0 ← wRead k w a
  if w0.type == tyFORWARD then return .moved w0.val.toNat
  if headered && w0.type != tyHEADER then
    badTag k
    holdPlot w a
    return .inPlace
  let n0 ← objSize k w a w0
  let n := if sym && w0.type != tyHEADER then 4 else n0
  if code || 262144 < n then
    holdPlot w a
    return .inPlace
  modify fun s => s.drained w
  if ((← get).gcW w).draining then throw (.stall, a)
  let d ← takeDest k w n
  modify fun s => setDestWait s k w false
  copyWords k w n a d
  setMarkBit k w d true
  if n == 4 && w0.type != tyHEADER then setMarkBit k w (d + 8) true
  wWrite k w a ⟨BitVec.ofNat 8 tyFORWARD, v64 d⟩
  modify fun s =>
    let s := (s.incF (wnwBase k + 0x18) 63 0 (8 * n)).modGcW w fun g => { g with copied := g.copied ++ [(a, ⟨0, v64 d⟩)] }
    let s := if s.gcPhase w == 3 then s.addFix w (wnwOf s w d) 0 d else s
    match s.plotOf w a with
    | some p => s.addW p ((n + 7) / 8)
    | none => s
  return .moved d

/-- What the read barrier delivers for a pointer whose target lies in an Evacuating plot, the copy made if it must be
(R146, R147). -/
def evacValue (w : Bool) (x : Word) : WM Word := do
  let a := x.val.toNat
  let s ← get
  let k := wnwOf s w a
  let w0 ← wRead k w a
  if w0.type == tyFORWARD then return ⟨x.tag, w0.val⟩
  let m ← markBit k w a
  let code := x.type == tyCODE || s.gc.w0.marked.any (fun y => !w && y.1 == a && y.2.type == tyCODE) ||
    s.gc.w1.marked.any (fun y => w && y.1 == a && y.2.type == tyCODE)
  if !m && x.weak && !(s.isHeadered x.type && w0.type != tyHEADER) then return nilWord
  match ← copyObj k w a code (s.isHeadered x.type) (x.type == tySYMBOL) with
  | .moved d =>
    if !m then modify fun s => s.incF (wnwBase k + 0x28) 63 0 1
    return ⟨x.tag, v64 d⟩
  | .inPlace => return x

/-- Fix-up of one slot (R159), counted for the slot's plot (R152). -/
def fixSlot (k : Nat) (w : Bool) (a : Nat) : WM Unit := do
  workAt w a
  let x ← wRead k w a
  let s ← get
  if (s.badWord x).isSome || !(s.isPtr x.type) then pure ()
  else
    let t := x.val.toNat
    let fwd ← if s.inEvac w t then do pure (some (← wRead k w t)) else pure none
    match fwd with
    | some f =>
      if f.type == tyFORWARD then wWrite k w a ⟨x.tag, f.val⟩
      else if x.weak && s.inScope w t then
        if !(← markBit k w t) then wWrite k w a nilWord
      else pure ()
    | none =>
      if x.weak && s.inScope w t then
        if !(← markBit k w t) then wWrite k w a nilWord
      else pure ()

/-- Fix-up of a run of slots. -/
def fixSlots (k : Nat) (w : Bool) : Nat → Nat → WM Unit
  | 0, _ => pure ()
  | n + 1, a => do
    fixSlot k w a
    fixSlots k w n (a + 8)

/-- Clear mark bits of objects by address. -/
def clearMarks (w : Bool) : List Nat → WM Unit
  | [] => pure ()
  | a :: r => do
    let k := wnwOf (← get) w a
    setMarkBit k w a false
    setMarkBit k w (a + 8) false
    clearMarks w r

/-- Root range `n` (R157): its start and count; none for a pair that names no range, which is counted. -/
def rootRange (k : Nat) (w : Bool) (n : Nat) : WM (Option (Nat × Nat)) := do
  let base := bits ((← get).reg (gcBase (wn w) + 0x20)) 47 3 * 8 + 16 * n
  let a ← wRead k w base
  let c ← wRead k w (base + 8)
  if a.tag != 0x16 || a.val.toNat % 8 != 0 || c.tag != 0x01 || c.val.toInt < 0 then
    badTag k
    return none
  else return some (a.val.toNat, c.val.toNat)

/-- The address of entry `i` of the export table of world `w` (R384). -/
def exportAddr (s : State) (w : Bool) (i : Nat) : Nat := bits (s.reg (gcBase (wn w) + 0x50)) 47 12 * 4096 + 16 * i

/-- Registers that a scan or flip covers (R144): the globals, every resident window and the trap window. -/
def scanRegs (k : Bank) : List Nat :=
  let t := k.twp.toNat
  let n := (k.status.cwp - k.twp).toNat
  let wins := t :: (List.range n).map fun i => (t + 1 + i) % 8
  (List.range 8 ++ (wins.flatMap fun w => (List.range 24).map fun i => specIx w (8 + i))).eraseDups

end Sys2Proof.Machine
end

