-- ==== Sys2Proof/Machine/Route.lean ====
section
/-! DEFINITION. Packets and their headers (R358-R360), routing (R369-R371), the outstanding transaction table (R392),
end-to-end numbering at the source (R373, R375), and how a transaction completes at the requester (R391). -/

namespace Sys2Proof.Packet

/-- Header fields of R358 and R359. -/
def dst (p : Packet) : Nat := bits p.w0.val 63 48
def src (p : Packet) : Nat := bits p.w0.val 47 32
def ty (p : Packet) : Nat := bits p.w0.val 31 24
def hop (p : Packet) : Nat := bits p.w0.val 23 16
def down (p : Packet) : Bool := bit p.w0.val 15
def isLocal (p : Packet) : Bool := bit p.w0.val 13
def len (p : Packet) : Nat := bits p.w0.val 12 8
def oseq (p : Packet) : BitVec 16 := BitVec.ofNat 16 (bits p.w1.val 63 48)
def swld (p : Packet) : Bool := bit p.w1.val 47
def ttag (p : Packet) : Nat := bits p.w1.val 25 0

/-- Set bits [hi:lo] of header word 0 or 1. -/
def set0 (p : Packet) (hi lo x : Nat) : Packet := { p with w0 := { p.w0 with val := setBits p.w0.val hi lo x } }
def set1 (p : Packet) (hi lo x : Nat) : Packet := { p with w1 := { p.w1 with val := setBits p.w1.val hi lo x } }

/-- Flits of the packet: its HEAD and its DATA flits. -/
def flits (p : Packet) : Nat := 1 + p.data.length / 4

end Sys2Proof.Packet

namespace Sys2Proof.Machine

/-- Packet types of R360. -/
def pRLOAD : Nat := 0x01
def pRCELL : Nat := 0x02
def pRSTORE : Nat := 0x03
def pRCAS : Nat := 0x04
def pRSWAP : Nat := 0x05
def pRFADD : Nat := 0x06
def pLEASE : Nat := 0x07
def pRDATA : Nat := 0x10
def pRACK : Nat := 0x11
def pRERR : Nat := 0x12
def pBANS : Nat := 0x13
def pFNAK : Nat := 0x14
def pMSG : Nat := 0x20
def pDISC : Nat := 0x30
def pJOIN : Nat := 0x31
def pASSIGN : Nat := 0x32
def pRTUPD : Nat := 0x33
def pRESYNC : Nat := 0x34
def pRSACK : Nat := 0x35
def pEPOCH : Nat := 0x36
def pRCMD : Nat := 0x37
def pRRPL : Nat := 0x38
def pNBOOT : Nat := 0x39

/-- The virtual channel of a packet type: 0 request, 1 response, 2 message, 3 management (R343, R360). -/
def vcOf (ty : Nat) : Nat :=
  if ty < 0x10 then 0 else if ty < 0x20 then 1 else if ty < 0x30 then 2 else 3

/-- Data words filled up to whole flits with word(RAW, 0). -/
def padData (ws : List Word) : List Word := ws ++ List.replicate ((4 - ws.length % 4) % 4) (rawWord 0)

/-- A packet from its fields, from node `src`. -/
def mkPacket (src dst ty : Nat) (loc swld : Bool) (ttag : Nat) (w2 w3 : Word) (data : List Word) : Packet :=
  let d := padData data
  ⟨rawWord (v64 (fld 48 dst + fld 32 src + fld 24 ty + fld 13 (b2n loc) + fld 8 (d.length / 4))),
    rawWord (v64 (fld 47 (b2n swld) + ttag)), w2, w3, d⟩

namespace State

/-- Class of link `i`: 0 PEER, 1 TENANT, 2 ISOLATED (3 as 2). -/
def linkClass (s : State) (i : Nat) : Nat := min 2 (s.regF (rLNKCLS i) 1 0)
def linkUpDir (s : State) (i : Nat) : Bool := bit (s.reg (rLNKCLS i)) 3
def linkFrozen (s : State) (i : Nat) : Bool := bit (s.reg rFRZP) i
def linkPnode (s : State) (i : Nat) : Nat := s.regF (rLNKCLS i) 47 32

/-- `usable` of R370. The partner's class is its own setting, unknown here, so for a link that is not PEER the destination
decides (DEDUCED, log entry 115), and JOIN and ASSIGN travel only over PEER links (R366). -/
def usable (s : State) (l : Nat) (p : Packet) (fr : Option Nat) (excl : List Nat) : Bool :=
  decide (l < 6) && fr != some l && s.linkState l == 5 && !(excl.contains l) && !(s.link l).quiesceTx &&
    (!(s.linkFrozen l) || vcOf p.ty == 1) && (s.linkClass l == 0 || (p.dst == s.linkPnode l && p.ty != pJOIN && p.ty != pASSIGN)) &&
    (!p.down || !(s.linkUpDir l))

/-- Queue a packet on a link (R372). -/
def enqueue (s : State) (l : Nat) (p : Packet) : State :=
  s.modLink l fun x => { x with q := Tbl.set [] x.q (vcOf p.ty) (Tbl.get [] x.q (vcOf p.ty) ++ [p]) }

/-- Entries of the table that are outstanding to a node, those still held back apart. -/
def outstandingTo (s : State) (n : Nat) : Bool :=
  let d := Tbl.get {} s.fab.dst n
  s.fab.ott.any fun (i, e) => e.busy && e.node == n && !(d.waiting.any (·.1 == i))

def dstCtr (s : State) (n : Nat) : DstCtr := Tbl.get {} s.fab.dst n
def setDst (s : State) (n : Nat) (d : DstCtr) : State := { s with fab := { s.fab with dst := Tbl.set {} s.fab.dst n d } }

/-- The slice whose L3 array holds a line of the remote object cache: the manual names none (DESIGN CHOICE, log entry 132). -/
def rocSlice (l : RocLine) : Nat := home (4 * l.slot.toNat + l.idx)

/-- The lines of the remote object cache that a slice may hold (R271). -/
def rocQuota (s : State) : Nat := bits (s.reg rROCSZ) 15 0 * 16384 / 12

/-- The oldest line of a slice makes room when the slice is at its quota. -/
def rocRoom (s : State) (k : Nat) (ls : List RocLine) : List RocLine :=
  if (ls.filter fun l => rocSlice l == k).length < s.rocQuota then ls
  else
    match ls.find? fun l => rocSlice l == k with
    | some l => ls.erase l
    | none => ls

/-- Write a fetched word into the remote object cache (R397), within the quota of its slice (R271). -/
def rocPut (s : State) (ref : Word) (idx : Nat) (w : Word) : State :=
  let n := BitVec.ofNat 16 (bits ref.val 63 48)
  let wl := bit ref.val 47
  let sl := BitVec.ofNat 32 (bits ref.val 46 15)
  let ck := BitVec.ofNat 15 (bits ref.val 14 0)
  let same (l : RocLine) : Bool := l.node == n && l.world == wl && l.slot == sl && l.check == ck && l.idx == idx / 8
  let ws := match s.fab.roc.find? same with | some l => if l.bad then [] else l.words | none => []
  let new : RocLine := { node := n, world := wl, slot := sl, check := ck, idx := idx / 8, words := Tbl.set none ws (idx % 8) (some w) }
  if s.rocQuota == 0 then s
  else { s with fab := { s.fab with roc := s.rocRoom (rocSlice new) (s.fab.roc.filter fun l => !(same l)) ++ [new] } }

/-- The line of the remote object cache that holds a word of a reference. -/
def rocLine (s : State) (ref : Word) (idx : Nat) : Option RocLine :=
  s.fab.roc.find? fun l => l.node == BitVec.ofNat 16 (bits ref.val 63 48) && l.world == bit ref.val 47 &&
    l.slot == BitVec.ofNat 32 (bits ref.val 46 15) && l.check == BitVec.ofNat 15 (bits ref.val 14 0) && l.idx == idx / 8

/-- A parity error in the line that a look-up meets: the line goes, to be fetched again, and the slice counts it (R42,
R288). -/
def rocCheck (s : State) (ref : Word) (idx : Nat) : State :=
  match s.rocLine ref idx with
  | some l =>
    if l.bad then
      ({ s with fab := { s.fab with roc := s.fab.roc.erase l } } : State).incF (clusterBase (rocSlice l) + 0x10000) 47 32 1
    else s
  | none => s

/-- A word of the remote object cache. -/
def rocGet (s : State) (ref : Word) (idx : Nat) : Option Word :=
  match s.rocLine ref idx with
  | some l => if l.bad then none else Tbl.get none l.words (idx % 8)
  | none => none

/-- A transaction ends with a result (R391, R392): a FUTURE slot keeps it, a waiting bank gets it, a failed posted store
raises a machine check, a lease packet counts. Kinds: 0 RLOAD, 1 RCELL, 2 RSTORE, 3 RCAS, 4 RSWAP, 5 RFADD, 6 LEASE,
7 MSG. -/
def completeOtt (s : State) (ix : Nat) (r : WaitResult) : State :=
  let e := s.ott ix
  if !e.busy then s
  else
    let s := match r with
      | .word w => if (e.kind == 0 || e.kind == 1) && e.ref.imm && !e.noCache then s.rocPut e.ref e.index w else s
      | _ => s
    if ix < 24576 && e.discard then s.setOtt ix {}
    else if ix < 24576 then
      let s := s.setOtt ix { e with busy := false, done := true, packet := none, res := r }
      let s := s.deliver (s.rep e.core) (.bevt (Fin.ofNat 4 e.bank) 3)
      s.wakeAll (fun w => (w.cause == 3 && w.key == ix) || (w.cause == 2 && w.key == ix && w.slot == 1)) .none
    else
      let s := s.setOtt ix {}
      if e.kind == 6 then
        match r with
        | .error _ => s.incF (gcBase (wn e.world) + 0x98) 63 32 1
        | _ => s
      else if e.kind == 2 then
        match r with
        | .error n => s.sendMchk (s.rep e.core) e.world
            (v64 (e.ref.val.toNat / 2 ^ 16 * 2 ^ 16 + 0x30 + n))
        | _ => s
      else if e.discard then s
      else s.deliver (s.rep e.core) (.waitDone (Fin.ofNat 4 e.bank) r)

/-- Mark a destination unsynchronised (R375). -/
def unsync (s : State) (n : Nat) : State := s.setDst n { s.dstCtr n with unsync := true, resyncing := false }

/-- A packet of this module is abandoned (R375): on FNAK UNREACH or HOPS, reason 12, or on timeout, 13. -/
def abandonTx (s : State) (ix n why : Nat) : State :=
  let d := s.dstCtr n
  ((s.unsync n).setDst n { d with unsync := true, resyncing := false, waiting := d.waiting.filter (·.1 != ix) }).completeOtt
    ix (.error why)

/-- Route a packet (R370): `fr` the arrival link, `excl` links excluded for a handed-back packet. A module with FAB = 0
originates none (R357). Fuel bounds the one FNAK that a refusal sends. -/
def routeGo : Nat → State → Option Nat → List Nat → Packet → State
  | 0, s, _, _, _ => s
  | n + 1, s, fr, excl, p =>
    let refuse (s : State) (reason : Nat) : State :=
      let s := s.incF (if reason == 2 then rFABHOP else rFABUNR) 63 0 1
      if vcOf p.ty == 1 || vcOf p.ty == 3 || p.isLocal then s
      else if fr.isNone && p.src == s.srcNode then s.abandonTx (p.ttag % 2 ^ 17) p.dst 12
      else
        let f := mkPacket s.srcNode p.src pFNAK false p.swld p.ttag
          (rawWord (v64 (fld 48 p.oseq.toNat + fld 32 p.ty + reason))) (rawWord 0) []
        routeGo n s none [] f
    if p.isLocal || p.dst == s.nodeNo || (fr.isNone && excl.isEmpty && !s.fabUp) then s
    else if fr.isSome && p.hop == 255 then refuse s 2
    else
      let cached := (s.fab.cache.find? fun x => x.1 == p.dst && decide (x.2.2 < 2)).map (·.2.1)
      let viaCache := match cached with
        | some l => if s.usable l p fr excl then some l else none
        | none => none
      match viaCache with
      | some l =>
        let p := p.set0 23 16 (p.hop + 1)
        s.enqueue l (if s.linkUpDir l then p else p.set0 15 15 1)
      | none =>
        let e := if p.dst / 64 == s.nodeNo / 64 then s.reg (rRTMOD (p.dst % 64)) else s.reg (rRTSEG (p.dst / 64))
        let pri := bits e 14 12
        let alt := bits e 11 9
        let go (s : State) (l : Nat) (p : Packet) : State :=
          let c := ((s.fab.cache.filter fun x => x.1 != p.dst) ++ [(p.dst, l, 0)])
          let s := { s with fab := { s.fab with cache := c.drop (c.length - 64) } }
          let p := p.set0 23 16 (p.hop + 1)
          s.enqueue l (if s.linkUpDir l then p else p.set0 15 15 1)
        if bit e 15 && s.usable pri p fr excl then go s pri p
        else if bit e 15 && s.usable alt p fr excl then go s alt (p.set0 14 14 1)
        else refuse s 1

/-- A held-back stream to a node may send RESYNC when nothing is outstanding (R375): its next numbers are those of packets
to be sent again, where there are any. -/
def kick (s : State) (n : Nat) : State :=
  let d := s.dstCtr n
  if d.unsync && !d.resyncing && !d.waiting.isEmpty && !(s.outstandingTo n) && s.fabUp then
    let next (m : Bool) : BitVec 16 := d.waiting.foldl (fun q x =>
      match (s.ott x.1).packet with
      | some y => if (vcOf y.ty == 2) == m && newer16 q y.oseq then y.oseq else q
      | none => q) (if m then d.msg else d.req)
    let p := mkPacket s.srcNode n pRESYNC false false 0 (rawWord (v64 (fld 16 (next true).toNat + (next false).toNat))) (rawWord 0) []
    routeGo 2 (s.setDst n { d with resyncing := true }) none [] p
  else s

/-- Route a packet and let a stream that it frees go on. -/
def route (s : State) (fr : Option Nat) (p : Packet) : State := (routeGo 3 s fr [] p).kick p.dst

/-- A transaction completes, and a held-back stream to its node may go on. -/
def completeTx (s : State) (ix : Nat) (r : WaitResult) : State := (s.completeOtt ix r).kick (s.ott ix).node

/-- Give a request or MSG its number and send it; the table keeps it (R373). -/
def numberAndSend (s : State) (n ix : Nat) (p : Packet) : State :=
  let d := s.dstCtr n
  let m := vcOf p.ty == 2
  let q := if m then d.msg else d.req
  let p := p.set1 63 48 q.toNat
  let s := s.setDst n (if m then { d with msg := q + 1 } else { d with req := q + 1 })
  let s := s.setOtt ix { s.ott ix with packet := some p }
  routeGo 3 s none [] p

/-- Originate a request or MSG for a table entry: at once, or held back until the destination is synchronised (R375). -/
def originate (s : State) (n ix : Nat) (p : Packet) : State :=
  let d := s.dstCtr n
  let s := s.incF (modCtr 0) 63 0 1
  if d.unsync then (s.setDst n { d with waiting := d.waiting ++ [(ix, p)] }).kick n
  else (s.numberAndSend n ix p).kick n

/-- The first free general entry of the table (R392). -/
def freeOttGo (s : State) : Nat → Nat → Option Nat
  | 0, _ => none
  | n + 1, i => if 131072 ≤ i then none else if (s.ott i).busy then freeOttGo s n (i + 1) else some i

def freeOtt (s : State) : Option Nat := freeOttGo s (s.fab.ott.length + 1) 24576

end State

end Sys2Proof.Machine
end

