-- ==== Sys2Proof/Machine/Remote.lean ====
section
/-! DEFINITION. Remote references: exports (R386), what the owner performs for a request (R387-R390, R395, R396), and how
an instruction issues a transaction (R389, R392, R397). -/

namespace Sys2Proof.Machine

/-- Fields of RCTL and EXPSTAT (R385). -/
def expEn (s : State) (w : Bool) : Bool := bit (s.reg (gcBase (wn w) + 0x60)) 16
def expLease (s : State) (w : Bool) : Nat := max 8192 (s.regF (gcBase (wn w) + 0x60) 15 0)
def expCount (s : State) (w : Bool) : Nat := s.regF (gcBase (wn w) + 0x58) 20 0
def expHead (s : State) (w : Bool) : Nat := s.regF (gcBase (wn w) + 0x68) 19 0

/-- Word 1 of a live entry (R384). -/
def expWord (check dl : Nat) : Word := rawWord (v64 (fld 63 1 + fld 48 (check % 2 ^ 15) + dl % 2 ^ 40))

/-- An export as one action at the owner (R386): the value of the REMOTE word, or 0. -/
def doExport (k : Nat) (w : Bool) (p : Word) : WM Val := do
  let s ← get
  let i := expHead s w
  if !(expEn s w) || bit (s.reg (gcBase (wn w) + 0x68)) 20 || i == 0 || expCount s w ≤ i then return 0
  let a := exportAddr s w i
  let e ← wRead k w (a + 8)
  let ck := (bits e.val 62 48 + 1) % 2 ^ 15
  wWrite k w a ⟨p.tag &&& 0x7F, p.val⟩
  wWrite k w (a + 8) (expWord ck (s.bout.toNat + expLease s w))
  modify fun s =>
    let o := gcBase (wn w) + 0x68
    let s := s.setRegF o 19 0 (bits e.val 19 0)
    let s := s.setRegF o 20 20 (b2n (bit e.val 40))
    s.setRegF o 51 32 (s.regF o 51 32 + 1)
  if (← get).gcPhase w == 1 && (← get).inScope w p.val.toNat then markObj w p
  return v64 (fld 48 s.srcNode + fld 47 (wn w) + fld 15 i + ck)

/-- Run an export; a failed access fails it with the machine check of R386 and no retry. -/
def runExport (s : State) (k : Nat) (w : Bool) (p : Word) : Val × State :=
  match doExport k w p s with
  | .ok v s => (v, s)
  | .error (e, a) _ => (0, if e.waits then wnwStop s w a e else s.gcMchk w 3 a)

/-- Free an expired entry (R396). -/
def freeExport (k : Nat) (w : Bool) (i : Nat) (e1 : Word) : WM Unit := do
  let s ← get
  let a := exportAddr s w i
  let o := gcBase (wn w) + 0x68
  wWrite k w a nilWord
  wWrite k w (a + 8) (rawWord (v64 (fld 48 (bits e1.val 62 48) + fld 40 (b2n (bit (s.reg o) 20)) + bits (s.reg o) 19 0)))
  modify fun s => ((s.setRegF o 19 0 i).setRegF o 20 20 0).setRegF o 51 32 (s.regF o 51 32 - 1)

/-- An entry has expired (R396): the bout is not older than DL by serial arithmetic modulo 2^40. -/
def expired (s : State) (e1 : Word) : Bool :=
  decide ((s.bout.toNat + 2 ^ 40 - bits e1.val 39 0) % 2 ^ 40 < 2 ^ 39)

/-- A word read by the owner through the read barrier, healed (R390, R161). -/
def ownerLoad (k : Nat) (w : Bool) (a : Nat) : WM Word := do
  let x ← wRead k w a
  let x ← if x.type == tyFORWARD then wRead k w x.val.toNat else pure x
  let s ← get
  if s.isPtr x.type && s.inEvac w x.val.toNat then
    let y ← evacValue w x
    if y != x then wWrite k w a y
    return y
  else return x

/-- What the owner answers: data, an acknowledgement, or an error reason. -/
inductive Answer where
  | data (w : Word)
  | ack
  | err (reason : Nat)
deriving DecidableEq, Repr

/-- The implicit export of a word: a table entry that cannot be accessed fails it (R386). -/
def exportOut (k : Nat) (w : Bool) (x : Word) : WM Val := fun s =>
  match doExport k w x s with
  | .ok v s => .ok v s
  | .error (e, a) s' => if e.waits then .error (e, a) s' else .ok 0 (s.gcMchk w 3 a)

/-- The word as it is returned in RDATA (R388). -/
def convertOut (k : Nat) (w : Bool) (x : Word) : WM Answer := do
  let s ← get
  if s.isPtr x.type then
    let v ← exportOut k w x
    if v == 0 then return .err 9
    return .data ⟨(x.tag &&& 0xC0) ||| 0x12, v⟩
  else if [tyFUTURE, tyGATE, tyRETLINK, tyHEADER, tyFORWARD].contains x.type then return .err 10
  else return .data x

/-- The old content of an overwritten slot is marked while the world is in Mark (R390). -/
def markOld (w : Bool) (x : Word) : WM Unit := do
  let s ← get
  if s.gcPhase w == 1 && traced s w x then markObj w x

/-- The slot of a request is in cacheable memory (check 10 of R390). -/
def ownerCacheable (k : Nat) (w : Bool) (a : Nat) (wr : Bool) : WM Unit := do
  match wnwXlate (← get) k w a wr with
  | .ok ((_, mt), s) => if mt == .cacheable then set s else throw (.xlate, a)
  | .error e => throw (e, a)

/-- The owner performs a request (R390). `ty` is the packet type, `swld` the world in its header. -/
def ownerDo (ty : Nat) (swld : Bool) (ref : Word) (idx : Word) (d0 d1 : Word) : WM Answer := do
  let s ← get
  let w := bit ref.val 47
  let slot := bits ref.val 46 15
  let k := s.inService (slot % 12)
  if !s.fabUp || !(expEn s w) || swld != w then return .err 4
  if slot == 0 || expCount s w ≤ slot then return .err 1
  let a := exportAddr s w slot
  let obj ← ownerLoad k w a
  let e1 ← wRead k w (a + 8)
  if !(bit e1.val 63) then return .err 1
  if bits e1.val 62 48 != bits ref.val 14 0 then return .err 2
  if expired (← get) e1 then
    freeExport k w slot e1
    return .err 3
  if ty == pRCELL && obj.type != tyCONS then return .err 6
  let base := obj.val.toNat
  let headered := s.isHeadered obj.type
  let size ← if headered then do
      let h ← wRead k w base
      pure (if h.type == tyHEADER then 1 + bits h.val 47 0 else 0)
    else pure (if obj.type == tySYMBOL then 4 else 2)
  let i := idx.val.toInt
  if i < 0 || (size : Int) ≤ i then return .err 5
  let writes := ty == pRSTORE || ty == pRCAS || ty == pRSWAP || ty == pRFADD
  if headered && i == 0 && (ty == pRSTORE || ty == pRCAS || ty == pRSWAP) then return .err 5
  if writes && obj.imm then return .err 7
  if ty == pRFADD && d0.type != tyFIX then return .err 8
  let sa := base + 8 * i.toNat
  ownerCacheable k w sa writes
  let old ← ownerLoad k w sa
  let sum := old.val.toInt + d0.val.toInt
  if ty == pRFADD && (old.type != tyFIX || !(inFix sum)) then return .err 8
  wWrite k w (a + 8) (expWord (bits e1.val 62 48) (s.bout.toNat + expLease s w))
  if ty == pRLOAD || ty == pRCELL then convertOut k w old
  else if ty == pRSTORE then
    markOld w old
    wWrite k w sa d0
    return .ack
  else if ty == pRCAS then
    if old == d0 then
      markOld w old
      wWrite k w sa d1
    convertOut k w old
  else if ty == pRSWAP then
    markOld w old
    wWrite k w sa d0
    convertOut k w old
  else
    markOld w old
    wWrite k w sa (fixWord (i64 sum))
    convertOut k w old

/-- The owner's answer and the state after it, or what stops it while a line, a destination plot or a spill area is
awaited. An access that fails answers FAULT (order 10 of R390). -/
def ownerRun (s : State) (ty : Nat) (swld : Bool) (ref idx d0 d1 : Word) : Except WnwErr (Answer × State) :=
  let s := s.incF (modCtr 1) 63 0 1
  match ownerDo ty swld ref idx d0 d1 s with
  | .ok a s => .ok (a, s)
  | .error (.xlate, _) _ => .ok (.err 11, s)
  | .error (.fence, _) _ => .ok (.err 11, s)
  | .error (.poison k, va) _ => .ok (.err 11, (wnwPoison s k swld va).2)
  | .error (e, _) _ => .error e

/-- Handle the words of a LEASE packet at the owner (R395). -/
def leaseWords (w : Bool) : List Word → WM Unit
  | [] => pure ()
  | x :: r => do
    let s ← get
    let slot := bits x.val 46 15
    let k := s.inService (slot % 12)
    let skip : WM Unit := modify fun s => s.incF (gcBase (wn w) + 0xA0) 63 0 1
    if x.type != tyREMOTE || bits x.val 63 48 != s.nodeNo || bit x.val 47 != w || slot == 0 || expCount s w ≤ slot then skip
    else
      let e1 ← wRead k w (exportAddr s w slot + 8)
      if !(bit e1.val 63) || bits e1.val 62 48 != bits x.val 14 0 then skip
      else if expired s e1 then
        freeExport k w slot e1
        skip
      else wWrite k w (exportAddr s w slot + 8) (expWord (bits e1.val 62 48) (s.bout.toNat + expLease s w))
    leaseWords w r

/-- Packet type and table kind of a request. -/
def kindOfTy (ty : Nat) : Nat := if ty == pLEASE then 6 else ty - 1

/-- TTAG of a transaction (R359). -/
def mkTtag (c : Nat) (b ix : Nat) : Nat := fld 19 c + fld 17 b + ix

/-- Send a request for a table entry: refused with NOADDR while FAB = 0, performed here when this node is the owner,
otherwise a packet (R389); what stops it while it cannot be performed. -/
def sendRequest (s : State) (cx : Ctx) (ix ty : Nat) (ref idx : Word) (data : List Word) : Except WnwErr State :=
  let node := bits ref.val 63 48
  let k := kindOfTy ty
  let e : Ott :=
    { busy := true, node := node, vc := vcOf ty, core := cx.c, bank := cx.b.val, world := cx.w, kind := k, ref := ref,
      index := idx.val.toNat }
  let s := (s.setOtt ix e).countEvent cx.c 13 1
  if !s.fabUp then .ok (s.completeOtt ix (.error 14))
  else if node == s.nodeNo then
    let s := s.incF (modCtr 0) 63 0 1
    match ownerRun s ty cx.w ref idx (data.getD 0 (rawWord 0)) (data.getD 1 (rawWord 0)) with
    | .error e => .error e
    | .ok (.data w, s) => .ok (s.completeOtt ix (.word w))
    | .ok (.ack, s) => .ok (s.completeOtt ix .none)
    | .ok (.err n, s) => .ok (s.completeOtt ix (.error n))
  else
    .ok (s.originate node ix (mkPacket s.srcNode node ty false cx.w (mkTtag cx.c cx.b.val ix) ref idx data))

/-- The bank's next FUTURE slot (R392); while it is pending the bank waits. -/
def takeSlot (cx : Ctx) : M Nat := do
  let k ← getBank cx
  let ix := 256 * cx.c + 64 * cx.b.val + k.futNext % 64
  if ((← get).ott ix).busy then throw (.wait { cause := 2, key := ix, slot := 1 })
  modB cx fun k => { k with futNext := (k.futNext + 1) % 64 }
  return ix

/-- The FUTURE word of a slot (R40). -/
def futureWord (cx : Ctx) (ix : Nat) : Word := mkWord tyFUTURE (v64 (mkTtag cx.c cx.b.val ix))

/-- A FUTURE-producing transaction (R389): the FUTURE, or the cached word of an immutable object (R397). -/
def remoteFuture (cx : Ctx) (ty : Nat) (ref idx : Word) (data : List Word) : M Word := do
  if ref.imm then modify fun s => s.rocCheck ref idx.val.toNat
  let s ← get
  let hit := if ty == pRLOAD && ref.imm then s.rocGet ref idx.val.toNat else none
  match hit with
  | some w => return w
  | none =>
    let ix ← takeSlot cx
    match sendRequest (← get) cx ix ty ref idx data with
    | .ok s => set s
    | .error e => throw (.unit (bit ref.val 47) e)
    return futureWord cx ix

/-- A posted remote store (R389). -/
def remotePosted (cx : Ctx) (ref idx w : Word) : M Unit := do
  match (← get).freeOtt with
  | none => throw .stall
  | some ix =>
    match sendRequest (← get) cx ix pRSTORE ref idx [w] with
    | .ok s => set s
    | .error e => throw (.unit (bit ref.val 47) e)

/-- A remote cell read (R122): the bank waits for the answer; NOTCONS escapes TYPE. -/
def remoteCell (cx : Ctx) (ref : Word) (which : Nat) : M Word := do
  let k ← getBank cx
  if ref.imm then modify fun s => s.rocCheck ref which
  let s ← get
  let use (r : WaitResult) : M Word := match r with
    | .word w => pure w
    | .error n => if n == 6 then throw (.escape eTYPE) else fault cREMOTE (remoteTval ref.val n)
    | _ => throw .stall
  match k.wait with
  | some r => if r.cause == 2 && r.slot == 0 && r.done then return ← use r.res
  | none => pure ()
  match (if ref.imm then s.rocGet ref which else none) with
  | some w => return w
  | none =>
    match s.freeOtt with
    | none => throw .stall
    | some ix =>
      let w : WaitRec := { cause := 2, key := ix }
      modB cx fun k => { k with wait := some w }
      match sendRequest (← get) cx ix pRCELL ref (fixWord (v64 which)) [] with
      | .error e => throw (.unit (bit ref.val 47) e)
      | .ok s =>
        set s
        match (s.bank cx.c cx.b).wait with
        | some r => if r.done then return ← use r.res else throw (.wait w)
        | none => throw .stall

/-- `v` may leave the module in a remote store (R35, R123). -/
def wantRemotable (v : Word) (spec : Nat) : M Unit := do
  faultIf ((← get).keptLocal v) cTYPE (regTval spec)

end Sys2Proof.Machine
end

