-- ==== Sys2Proof/Machine/Bin.lean ====
section
/-! DEFINITION. The bin engines: descriptors and commands (R315-R318, R330), arrival of a message (R322-R327), handler
programs (R331-R333), credit renewal (R324). -/

namespace Sys2Proof.Machine

/-- Refusal reasons of R323. -/
def rWITHHELD : Nat := 1
def rFULL : Nat := 2
def rBINGONE : Nat := 3
def rERROR : Nat := 4
def rFILTERED : Nat := 5
def rWORLD : Nat := 6

/-- The engine's answer to a message (R322). -/
inductive BinAns where
  | accepted
  | refused (reason retry : Nat)
deriving DecidableEq, Repr

/-- The answer as the word that BANS carries and BSEND writes (R321). -/
def BinAns.word : BinAns → Word
  | .accepted => trueWord
  | .refused r t => fixWord (v64 (r * 65536 + t))

namespace State

/-- Fields of a descriptor (R315). -/
def binState (s : State) (n : Nat) : Nat := s.regF (binBase n) 2 0
def binWld (s : State) (n : Nat) : Bool := bit (s.reg (binBase n)) 7
def binEng (s : State) (n : Nat) : Nat := s.regF (binBase n) 19 16 % 12
def binRing (s : State) (n : Nat) : Nat := s.regF (binBase n + 8) 39 12 * 4096
def binSlots (s : State) (n : Nat) : Nat := 2 ^ s.regF (binBase n + 8) 4 0
def binWr (s : State) (n : Nat) : Nat := s.regF (binBase n + 0x18) 31 0
def binRd (s : State) (n : Nat) : Nat := s.regF (binBase n + 0x18) 63 32
def binUsed (s : State) (n : Nat) : Nat := (s.binWr n + 2 ^ 32 - s.binRd n) % 2 ^ 32
def binFree (s : State) (n : Nat) : Nat := s.binSlots n - s.binUsed n
def binCore (s : State) (n : Nat) : Nat := s.regF (binBase n + 0x10) 6 0
def binBank (s : State) (n : Nat) : Nat := s.regF (binBase n + 0x10) 9 8
def setBinState (s : State) (n x : Nat) : State := s.setRegF (binBase n) 2 0 x

/-- Source entries of an engine (R324), and their count in BESTAT. -/
def srcs (s : State) (k : Nat) : List SrcEntry := Tbl.get [] s.bins.src k
def setSrcs (s : State) (k : Nat) (l : List SrcEntry) : State :=
  ({ s with bins := { s.bins with src := Tbl.set [] s.bins.src k l } }).setRegF (engBase k) 12 0 l.length

/-- A ring is valid for ACTIVATE (R313). -/
def ringValid (s : State) (n : Nat) : Bool :=
  let b := s.binRing n
  let len := 64 * s.binSlots n
  b % len == 0 && decide (0xE000000000 ≤ b) && s.inBin (b + len - 1) && s.inBin b &&
    ((List.range ((b + len - 1 - 0xE000000000) / 2 ^ 26 - (b - 0xE000000000) / 2 ^ 26 + 1)).all fun i =>
      s.fenceOwner (b + 2 ^ 26 * i) == wn (s.binWld n))

/-- Another bin that is the source bin of the same bank (R318). -/
def srcbClash (s : State) (n : Nat) : Bool :=
  bit (s.reg (binBase n)) 10 && ((List.range 4096).any fun m => m != n &&
    bit (s.reg (binBase m)) 10 && [1, 2, 4].contains (s.binState m) && s.binCore m == s.binCore n && s.binBank m == s.binBank n)

/-- The answer to a message reaches its sender (R321, R322, R433): a bank through its core's path, another module as BANS, a
host channel for its HOST_CHANNEL_ANSWER, unless a reset has orphaned it (R438). -/
def answerFlight (s : State) (f : Flight) (a : BinAns) : State :=
  match f.back with
  | .bank c b => s.deliver c (.waitDone b (.answer a.word))
  | .packet p => s.route none (mkPacket s.srcNode p.src pBANS false p.swld p.ttag a.word (rawWord 0) [])
  | .chan c =>
    let r := match a with
      | .accepted => 0
      | .refused reason retry => reason * 65536 + retry
    let x : Chan := Tbl.get {} s.host.chans c
    if x.busy && x.seq == f.seq then
      { s with host := { s.host with chans := Tbl.set {} s.host.chans c { x with answer := some (BitVec.ofNat 32 r) } } }
    else s
  | .nobody => s

/-- Answer a refusal: NACK counts it (R322). -/
def binRefuse (s : State) (n reason retry : Nat) : BinAns × State :=
  (.refused reason retry, s.incF (binBase n + 0x30) 15 0 1)

/-- The messages in flight of a bin are abandoned (R330): each is answered BIN_GONE and counted in NACK and BEFORCED; no
handler's STS is performed. -/
def abandonFlights (s : State) (n : Nat) : State :=
  let fs := s.bins.flight.filter (·.bin == n)
  let s : State := { s with bins := { s.bins with flight := s.bins.flight.filter (·.bin != n) } }
  fs.foldl (fun s f =>
    let r := s.binRefuse n rBINGONE 0
    (r.2.incF (engBase (s.binEng n) + 8) 63 0 1).answerFlight f r.1) s

/-- The bin becomes Free (RELEASE of R318): its source entries leave every engine. -/
def releaseBin (s : State) (n : Nat) : State :=
  let s := (((s.setBinState n 0).setReg (binBase n + 0x18) 0).setReg (binBase n + 0x28) 0).setRegF (binBase n) 23 20 0
  (List.range 12).foldl (fun s k => s.setSrcs k ((s.srcs k).filter (·.bin != n))) s

/-- FORCE (R330). -/
def forceBin (s : State) (n : Nat) : State := (s.abandonFlights n).setBinState n 3

/-- The Reeve's reset of a bin (R318), from any state. -/
def resetBinCmd (s : State) (n : Nat) : State := (s.abandonFlights n).releaseBin n

/-- A command of BDCTL (R318): the state after, and whether it was refused. -/
def binCmd (s : State) (n cmd : Nat) : State × Bool :=
  let st := s.binState n
  if cmd == 1 && (st == 0 || st == 3) && s.ringValid n && !(s.srcbClash n) then
    let s := if st == 0 then
        (s.setReg (binBase n + 0x18) 0).setRegF (binBase n + 0x20) 47 32 (s.regF (binBase n + 0x20) 15 0)
      else s
    (s.setBinState n 1, false)
  else if cmd == 2 && st == 1 then (s.setBinState n 2, false)
  else if cmd == 3 && (st == 1 || st == 2) then (s.forceBin n, false)
  else if cmd == 4 && st == 3 then (s.releaseBin n, false)
  else if cmd == 5 && st == 4 && s.regF (binBase n) 23 20 != 1 then ((s.setBinState n 3).setRegF (binBase n) 23 20 0, false)
  else (s, true)

/-- A command by a register write: REJ tells whether it was refused. -/
def binCmdReg (s : State) (n cmd : Nat) : State :=
  let r := s.binCmd n cmd
  r.1.setRegF (binBase n) 27 27 (b2n r.2)

/-- The bin enters Error (R333): the messages in flight will be answered ERROR (R335). -/
def binError (s : State) (n errc : Nat) : State :=
  let s := ((s.setBinState n 4).setRegF (binBase n) 23 20 errc)
  let s : State := { s with bins := { s.bins with
    flight := s.bins.flight.map fun f => if f.bin == n then { f with err := true } else f } }
  if errc == 1 then s else s.logEvent 5 errc n (wn (s.binWld n)) 0 0

/-- The physical address of word `j` of a message whose first slot is slot `first` (R314). -/
def slotAddr (s : State) (n first j : Nat) : Nat :=
  s.binRing n + 64 * ((first + j / 8) % s.binSlots n) + 8 * (j % 8)

/-- Write the words of a message from slot `first`; none when a ring write meets a foreign granule or poison (R333). -/
def ringWrite (s : State) (n first : Nat) : Nat → List Word → Option State
  | _, [] => some s
  | j, w :: r =>
    let a := s.slotAddr n first j
    if s.fenceOwner a != wn (s.binWld n) || !(s.inBin a) || s.peekPoison a .bin then none
    else ringWrite (s.ucWrite a (.word w)) n first (j + 1) r

/-- The word at a bin-memory address, looked up with no effect. -/
def peekWordUc (s : State) (a : Nat) : Word := s.mem.word (s.store a / 8 * 8)

/-- The oldest message of a bin is held by a BRECV in progress (R326). -/
def binHeld (s : State) (n : Nat) : Bool :=
  s.banks.any fun (_, k) => match k.wait with
    | some w => w.hold == some n
    | none => false

/-- Free the oldest messages until `need` slots are free (drop-oldest, R326). -/
def dropOldest (s : State) (n need : Nat) : Nat → State
  | 0 => s
  | f + 1 =>
    if need ≤ s.binFree n || s.binUsed n == 0 then s
    else
      let h := s.peekWordUc (s.slotAddr n (s.binRd n % s.binSlots n) 0)
      let k := (bits h.val 19 14 + 8) / 8
      dropOldest (((s.setRegF (binBase n + 0x18) 63 32 (s.binRd n + k))).incF (binBase n + 0x30) 31 16 1) n need f

/-- WR of bin `n` advances: enabled HNOTE entries that name it send their vectors (R434). -/
def noteHost (s : State) (n : Nat) : State :=
  (List.range 16).foldl (fun s j =>
    let v := Tbl.get (0 : Val) s.host.hnote j
    if bit v 12 && bits v 11 0 == n then s.sendVector (32 + j) else s) s

/-- Step 8 of R322: the slots are written, WR advances, the bound bank gets BEVT bit 0. None: a RING error. -/
def binWrite (s : State) (n : Nat) (ws : List Word) : Option State :=
  let k := (ws.length + 7) / 8
  match s.ringWrite n (s.binWr n % s.binSlots n) 0 ws with
  | none => none
  | some s =>
    let s := s.setRegF (binBase n + 0x18) 31 0 (s.binWr n + k)
    let s := s.incF (binBase n + 0x30) 63 32 1
    let s := s.incF (modCtr 2) 63 0 1
    let s := s.noteHost n
    let c := s.binCore n
    some (if bit (s.reg (binBase n)) 8 && c < 96 then s.deliver (s.rep c) (.bevt (Fin.ofNat 4 (s.binBank n)) 0) else s)

/-- A bin can take diverted messages from bin `n` (R326). -/
def divertOk (s : State) (n o : Nat) : Bool :=
  s.binState o == 1 && s.binWld o == s.binWld n && s.binEng o == s.binEng n

end State

/-- The state of a running handler (R331). `hs` is what the handler's end will write to HS. -/
structure Hnd where
  h : Tbl Word
  msg : List Word
  hs : Option Val := none
  pos : Nat := 0
deriving DecidableEq, Repr

/-- How a handler ended. -/
inductive HEnd where
  | accept
  | drop
  | reject (retry : Nat)
  | divert (bin : Nat)
  | prog
  | steps
deriving DecidableEq, Repr

def Hnd.get (x : Hnd) (i : Nat) : Word := Tbl.get nilWord x.h i
def Hnd.put (x : Hnd) (i : Nat) (w : Word) : Hnd := { x with h := Tbl.set nilWord x.h i w, pos := x.pos + 1 }

/-- A handler has no instruction at a position: outside its 64, or past the program store (R331, R332). -/
def hndOutside (s : State) (n pos : Nat) : Bool :=
  decide (64 ≤ pos) || decide (4096 ≤ s.regF (binBase n + 0x10) 27 16 + pos)

/-- One handler instruction (R332): the next handler state or the ending. -/
def hndStep (s : State) (n : Nat) (x : Hnd) : Hnd ⊕ HEnd :=
  let hpc := s.regF (binBase n + 0x10) 27 16
  if hndOutside s n x.pos then .inr .prog
  else
    let iw := (s.reg (engBase (s.binEng n) + 0x8000 + 8 * (hpc + x.pos))).toNat % 2 ^ 32
    let op := iw / 2 ^ 26
    let d := iw / 2 ^ 23 % 8
    let a := iw / 2 ^ 20 % 8
    let b := iw / 2 ^ 17 % 8
    let imm := iw % 2 ^ 17
    let se := sext 17 imm
    let zd := d == 0
    let za := a == 0
    let zb := b == 0
    let zi := imm == 0
    let wa := x.get a
    let wb := x.get b
    let res (v : Val) : Hnd ⊕ HEnd := .inl (x.put d (if wa.tag == 0x01 then fixWord v else rawWord v))
    let br (c : Bool) : Hnd ⊕ HEnd :=
      if c then
        let t := (x.pos : Int) + se
        if t < 0 ∨ 64 ≤ t then .inr .prog else .inl { x with pos := t.toNat }
      else .inl { x with pos := x.pos + 1 }
    let bad : Hnd ⊕ HEnd := .inr .prog
    if op == 0x01 then
      (if za && zb && imm / 64 == 0 then .inl (x.put d (x.msg.getD imm nilWord)) else bad)
    else if op == 0x02 then
      (if zd && zb && imm / 64 == 0 && imm != 0 && decide (imm < x.msg.length) then
        .inl { x with msg := x.msg.set imm wa, pos := x.pos + 1 } else bad)
    else if op == 0x03 then (if za && zb then .inl (x.put d (fixWord (i64 se))) else bad)
    else if op == 0x04 then (if zb && zi then .inl (x.put d wa) else bad)
    else if op == 0x05 then (if zi then res (wa.val + wb.val) else bad)
    else if op == 0x06 then (if zi then res (wa.val - wb.val) else bad)
    else if op == 0x07 then (if zb then res (wa.val + i64 se) else bad)
    else if op == 0x08 then (if zi then res (wa.val &&& wb.val) else bad)
    else if op == 0x0A then (if zi then res (wa.val ||| wb.val) else bad)
    else if op == 0x0B then (if zi then res (wa.val ^^^ wb.val) else bad)
    else if op == 0x09 then (if zb then res (wa.val &&& i64 se) else bad)
    else if op == 0x0C then (if zb && imm / 64 == 0 then res (wa.val >>> imm) else bad)
    else if op == 0x0D then (if zb && imm / 64 == 0 then res (wa.val <<< imm) else bad)
    else if op == 0x0E then (if zb && zi then .inl (x.put d (fixWord (v64 wa.type))) else bad)
    else if op == 0x0F then
      (if za && zb && zi then .inl (x.put d (rawWord (s.reg (binBase n + 0x38)))) else bad)
    else if op == 0x10 then
      (if zd && zb && zi then .inl { x with hs := some wa.val, pos := x.pos + 1 } else bad)
    else if op == 0x11 then (if zd then br (wa.val == wb.val) else bad)
    else if op == 0x12 then (if zd then br (wa.val != wb.val) else bad)
    else if op == 0x13 then (if zd then br (decide (wa.val.toInt < wb.val.toInt)) else bad)
    else if op == 0x14 then (if zd && za && zb then br true else bad)
    else if op == 0x18 then (if zd && za && zb && zi then .inr .accept else bad)
    else if op == 0x19 then (if zd && za && zb && zi then .inr .drop else bad)
    else if op == 0x1A then (if zd && za && zb && imm / 256 == 0 then .inr (.reject imm) else bad)
    else if op == 0x1B then (if zd && za && zb && imm / 4096 == 0 then .inr (.divert imm) else bad)
    else if op == 0x1C then
      (if zd && za && zb && imm / 256 == 0 then
        let h := x.msg.getD 0 nilWord
        .inl { x with msg := x.msg.set 0 { h with val := setBits h.val 7 0 imm }, pos := x.pos + 1 }
      else bad)
    else bad

/-- Run a handler: at most 128 steps (R333); the last state, the ending and the steps taken. A step that leaves the
handler's instructions by falling through is a PROG error itself (R332). -/
def hndRun (s : State) (n : Nat) : Nat → Nat → Hnd → Hnd × HEnd × Nat
  | 0, k, x => (x, .steps, k)
  | f + 1, k, x =>
    match hndStep s n x with
    | .inl y => if hndOutside s n y.pos then (y, .prog, k + 1) else hndRun s n f (k + 1) y
    | .inr e => (x, e, k + 1)

namespace State

/-- LAST of a source entry takes a sequence number at acceptance (R327). -/
def srcAccept (s : State) (n : Nat) (key : SrcEntry → Bool) (seq : BitVec 16) : State :=
  s.setSrcs (s.binEng n) ((s.srcs (s.binEng n)).map fun e => if key e then { e with last := some seq } else e)

/-- Steps 7 and 8 of R322 with the ring-full policy (R326). -/
def binPlace (s : State) (n : Nat) (ws : List Word) (divertTo : Option Nat) : BinAns × State :=
  let k := (ws.length + 7) / 8
  let put (s : State) (m : Nat) : BinAns × State :=
    match s.binWrite m ws with
    | some s => (.accepted, s)
    | none => (s.binError m 4).binRefuse n rERROR 0
  let divert (o : Nat) : BinAns × State :=
    if s.divertOk n o && decide (k ≤ s.binFree o) then put s o else s.binRefuse n rFULL 1
  match divertTo with
  | some o => divert o
  | none =>
    if k ≤ s.binFree n then put s n
    else
      match s.regF (binBase n) 13 12 with
      | 1 => if s.binHeld n then s.binRefuse n rFULL 1 else put (s.dropOldest n k 65536) n
      | 2 => divert (s.regF (binBase n) 43 32)
      | _ => s.binRefuse n rFULL 1

/-- A message arrives at the engine of its bin: step 1 of R322, after which it is in flight (R330). -/
def binArrive (s : State) (f : Flight) : State :=
  let n := f.bin
  let st := s.binState n
  let no (reason : Nat) : State :=
    let r := s.binRefuse n reason 0
    r.2.answerFlight f r.1
  if st == 4 then no rERROR
  else if st != 1 then no rBINGONE
  else { s with bins := { s.bins with flight := s.bins.flight ++ [f] } }

/-- Steps 2 to 8 of R322: the bin, the message's source, its number and words, the sender's world. -/
def binHandle (s : State) (n : Nat) (node sbin : Nat) (host : Bool) (seq : BitVec 16) (ws : List Word) (w : Bool) :
    BinAns × State :=
  let k := (ws.length + 7) / 8
  let eng := s.binEng n
  let key (e : SrcEntry) : Bool := e.bin == n && e.node == node && e.sbin == sbin && e.host == host
  if w != s.binWld n && !(bit (s.reg (binBase n)) 11) then s.binRefuse n rWORLD 0
  else
    let known := (s.srcs eng).any key
    if !known && decide (4096 ≤ (s.srcs eng).length) then
      (s.incF (engBase eng + 0x10) 63 0 1).binRefuse n rWITHHELD 1
    else
      let new : SrcEntry := { bin := n, node := node, sbin := sbin, host := host, last := none }
      let l := if known then s.srcs eng else s.srcs eng ++ [new]
      let s := s.setSrcs eng (l.map fun e => if key e then { e with act := true, idle := 0 } else e)
      let e := ((s.srcs eng).find? key).getD new
      let dup := match e.last with
        | some p => !(newer16 seq p)
        | none => false
      if dup then (.accepted, s.incF (engBase eng + 0x18) 63 0 1)
      else
        let spare := s.regF (binBase n + 0x20) 47 32
        let share := (Tbl.get none s.bins.share n).getD (max (s.regF (binBase n + 0x20) 23 16) 1)
        if e.deficit < k && spare < k then
          let wait := if share == 0 then 1 else min 255 (max 1 ((k - e.deficit + share - 1) / share))
          s.binRefuse n rWITHHELD wait
        else
          let s := if k ≤ e.deficit then
              s.setSrcs eng ((s.srcs eng).map fun e => if key e then { e with deficit := e.deficit - k } else e)
            else s.setRegF (binBase n + 0x20) 47 32 (spare - k)
          let fin (s : State) (ws : List Word) (dv : Option Nat) : BinAns × State :=
            match s.binPlace n ws dv with
            | (.accepted, s) => (.accepted, s.srcAccept n key seq)
            | r => r
          if bit (s.reg (binBase n)) 9 then
            let (x, e, steps) := hndRun s n 128 0 { h := [(7, fixWord (v64 ws.length))], msg := ws }
            let s := s.incF (engBase eng + 0x20) 63 0 steps
            let sts (s : State) : State := match x.hs with
              | some v => s.setReg (binBase n + 0x38) v
              | none => s
            match e with
            | .accept => fin (sts s) x.msg none
            | .drop => (.accepted, (((sts s).incF (binBase n + 0x30) 31 16 1)).srcAccept n key seq)
            | .reject t => (sts s).binRefuse n rFILTERED t
            | .divert o =>
              if s.divertOk n o then fin (sts s) x.msg (some o)
              else (s.binError n 3).binRefuse n rERROR 0
            | .prog => (s.binError n 2).binRefuse n rERROR 0
            | .steps =>
              let s := (s.binError n 1).logViolation 0x12 3 (wn (s.binWld n)) n 0 (x.msg.getD 0 nilWord).val
              s.binRefuse n rERROR 0
          else fin s ws none

/-- The engine handles one message in flight: ERROR where its bin has entered Error since it arrived (R335). -/
def serveFlight (s : State) (f : Flight) : State :=
  let r := if f.err then s.binRefuse f.bin rERROR 0
    else s.binHandle f.bin f.node f.sbin f.host f.seq f.ws f.world
  r.2.answerFlight f r.1

/-- The engines handle the messages in flight, in order of arrival (R322, R331); `n` bounds them. When they do is the
model's choice (log entry 36). -/
def serveFlights (s : State) : Nat → State
  | 0 => s
  | n + 1 =>
    match s.bins.flight with
    | [] => s
    | f :: r => serveFlights (({ s with bins := { s.bins with flight := r } } : State).serveFlight f) n

/-- An entry with ACT = 0 of an engine that renews no credit for it has been so for one more bout (R324). -/
def idleSources (s : State) : State :=
  (List.range 12).foldl (fun s k =>
    if (s.srcs k).isEmpty then s
    else s.setSrcs k ((s.srcs k).map fun e =>
      if s.binState e.bin == 1 && s.binEng e.bin == k then e else { e with idle := if e.act then e.idle else e.idle + 1 })) s

/-- Credit renewal of one bin at a boundary (R324); entries idle for 64 bouts are kept for SOURCE_ENTRY_EXPIRY. -/
def renewCredit (s : State) (n : Nat) : State :=
  if s.binState n != 1 then s
  else
    let eng := s.binEng n
    let mine := (s.srcs eng).filter (·.bin == n)
    let a := (mine.filter (·.act)).length
    let credit := s.regF (binBase n + 0x20) 15 0
    let share := max (s.regF (binBase n + 0x20) 23 16) (credit / max a 1)
    let s := s.setRegF (binBase n + 0x20) 47 32 (credit - share * a)
    let s := s.setSrcs eng ((s.srcs eng).map fun e =>
      if e.bin == n then
        { e with deficit := if e.act then min (e.deficit + share) (max (2 * share) 8) else 0,
                 idle := if e.act then 0 else e.idle + 1, act := false }
      else e)
    { s with bins := { s.bins with share := Tbl.set none s.bins.share n (some share) } }

/-- Bins that hold anything of their own: those with a register that is not at its reset value. -/
def liveBins (s : State) : List Nat :=
  ((s.regs.filter fun (o, _) => 0x0A000000 ≤ o && o < 0x0A040000).map fun (o, _) => (o - 0x0A000000) / 0x40).eraseDups

/-- MSGHDR of a message (R40, R320). -/
def msgHdr (node sbin : Nat) (seq : BitVec 16) (len kind : Nat) : Word :=
  mkWord tyMSGHDR (v64 (fld 48 node + fld 36 sbin + fld 20 seq.toNat + fld 14 (len - 1) + kind % 256))

end State

end Sys2Proof.Machine
end

