-- ==== Sys2Proof/Machine/LinkOps.lean ====
section
/-! DEFINITION. What happens to a Furrow link as a whole: its state and cause (R339, R349), handing packets back (R354,
R372), the commands of R340, its counters and credit (R352, R356), and packets sent by the fabric unit on a given link. -/

namespace Sys2Proof.Machine

namespace State

/-- Route cache entries of a link are invalidated (R371). -/
def flushCache (s : State) (l : Nat) : State :=
  { s with fab := { s.fab with cache := s.fab.cache.filter (·.2.1 != l) } }

/-- The packets that a link hands back (R354): those with an unacknowledged flit in their original order, the one in
transmission, then every queued one. -/
def backPackets (s : State) (i : Nat) : List Packet :=
  let x := s.link i
  (x.replay.filterMap fun f => f.last.map (·.2)) ++ x.curPkt.toList ++
    [3, 0, 1, 2].flatMap fun v => Tbl.get [] x.q v

/-- A handed-back packet is routed again with its link excluded, keeping HOP, DOWN and OSEQ (R372). -/
def reroute (s : State) (i : Nat) (p : Packet) : State := routeGo 3 s none [i] (p.set0 23 16 (p.hop + 255))

/-- Packets are handed back and routed again (R354, R372). -/
def handBack (s : State) (i : Nat) (ps : List Packet) : State :=
  ps.foldl (fun s p => s.reroute i p) (s.incF (linkBase i + 0x58) 63 0 ps.length)

/-- A marker that is due and not sent when the link leaves Up is lost (R353). -/
def loseMark (s : State) (i : Nat) : State :=
  if (s.link i).markDue then (s.modLink i fun x => { x with markDue := false }).incF (linkBase i + 0x50) 63 0 1 else s

/-- LNKLANE.LOCK of every lane (R356). -/
def lockLanes (s : State) (i : Nat) (on : Bool) : State :=
  (List.range 8).foldl (fun s k => s.setRegF (linkBase i + 0x80 + 8 * k) 4 4 (b2n on)) s

/-- Flits pass in Param and Up, and in Retrain once the lanes are in lock again (R339, R349). -/
def flitsPass (s : State) (i : Nat) : Bool :=
  s.linkState i == 4 || s.linkState i == 5 || (s.linkState i == 6 && bit (s.reg (linkBase i + 0x80)) 4)

/-- The link goes at once to Disabled or Failed: its packets are handed back, and only complete packets
received stay for the fabric unit (R350, R354); a link told to disable ends Disabled (R355). -/
def linkDown (s : State) (i st cause : Nat) : State :=
  let st := if st == 7 && (s.link i).disabling then 0 else st
  let s := { s with fab := { s.fab with neigh := Tbl.set none s.fab.neigh i none } }
  let ps := s.backPackets i
  let was := s.linkState i
  let s := ((s.loseMark i).lockLanes i false).setRegF (linkBase i + 8) 8 8 0
  let s := s.modLink i fun x => { retrains := x.retrains, rxOld := x.rxOld ++ x.rxHeld }
  let s := s.setReg (linkBase i + 0x18) (regReset (linkBase i + 0x18))
  let s := if was == 4 || was == 5 || was == 6 then s.setRegF (linkBase i + 8) 19 16 cause else s
  let s := if st == 7 then s.incF (linkBase i + 0x48) 63 32 1 else s
  ((s.setLinkState i st).flushCache i).handBack i ps

/-- The receiver's packet in progress is discarded when the link leaves Up (R350); its flits are released. -/
def dropPartial (s : State) (i : Nat) : State :=
  s.modLink i fun x => { x with
    rxPart := [], freed := Tbl.set 0 x.freed x.rxVc (Tbl.get 0 x.freed x.rxVc + BitVec.ofNat 16 x.rxPart.length),
    credDue := x.credDue || !x.rxPart.isEmpty }

/-- An Up link enters Retrain, or Failed on its 16th entry within 2^20 bouts (R349), counted by boundaries (R379). -/
def toRetrain (s : State) (i cause : Nat) : State :=
  let now := s.bounds
  let rs := ((s.link i).retrains.filter fun b => decide (now - b < 2 ^ 20)) ++ [now]
  let s := (s.incF (linkBase i + 0x48) 31 0 1).setRegF (linkBase i + 8) 19 16 cause
  if 16 ≤ rs.length then (s.modLink i fun x => { x with retrains := rs }).linkDown i 7 6
  else
    let s := ((s.loseMark i).lockLanes i false).dropPartial i
    ((s.modLink i fun x => { x with
      retrains := rs, replayAt := none, txCw := [], markIn := false, markEcho := 0 }).setLinkState i 6).flushCache i

/-- The commands of R340: the state after, and whether the command was refused. -/
def linkEnableCmd (s : State) (i : Nat) : State × Bool :=
  if s.linkState i == 0 || s.linkState i == 7 then (s.setLinkState i 1, false) else (s, true)

/-- R354 step 1: the link takes no new packets, and those not started are handed back. -/
def quiesce (s : State) (i : Nat) (cmd : Bool) : State :=
  let x := s.link i
  let ps := [3, 0, 1, 2].flatMap fun v => Tbl.get [] x.q v
  let s := s.modLink i fun x => { x with
    q := [], quiesceTx := true, disabling := x.disabling || cmd }
  (s.flushCache i).handBack i ps

def linkDisableCmd (s : State) (i : Nat) : State × Bool :=
  let st := s.linkState i
  if st == 0 then (s, true)
  else if st == 5 || st == 6 then (s.quiesce i true, false)
  else (s.linkDown i 0 7, false)

/-- FORCE (R354); a frozen link's held packets are discarded (R364). -/
def linkForceCmd (s : State) (i : Nat) : State × Bool :=
  if s.linkState i == 0 then (s, false)
  else
    let s := if s.linkFrozen i then s.modLink i fun x => { x with rxHeld := [], rxOld := [] } else s
    (s.linkDown i 0 7, false)

def linkRetrainCmd (s : State) (i : Nat) : State × Bool :=
  if s.linkState i == 5 then (s.toRetrain i 4, false) else (s, true)

def linkCmd (s : State) (i cmd : Nat) : State × Bool :=
  if cmd == 1 then s.linkEnableCmd i
  else if cmd == 2 then s.linkDisableCmd i
  else if cmd == 3 then s.linkForceCmd i
  else if cmd == 4 then s.linkRetrainCmd i
  else (s, true)

/-- A command by a register write: REJ tells whether it was refused. -/
def linkCmdReg (s : State) (i cmd : Nat) : State :=
  let r := s.linkCmd i cmd
  r.1.setRegF (linkBase i + 8) 9 9 (b2n r.2)

/-- A link reset (R356): FORCE, every counter and LNKLANE cleared. -/
def linkReset (s : State) (i : Nat) : State :=
  let s := (s.linkForceCmd i).1
  [0x28, 0x30, 0x38, 0x40, 0x48, 0x50, 0x58, 0x80, 0x88, 0x90, 0x98, 0xA0, 0xA8, 0xB0, 0xB8].foldl
    (fun s o => s.setReg (linkBase i + o) 0) s

/-- Step 4 of R354: a link told to disable becomes Disabled when nothing is unacknowledged in either direction. Of the
partner's direction a module sees the flits that came: none unacknowledged, none asked for again, no packet begun
(DEDUCED, log entry 141). -/
def checkQuiesce (s : State) (i : Nat) : State :=
  let x := s.link i
  if x.disabling && x.quiesceSent && x.replay.isEmpty && x.rxPart.isEmpty && !x.ackDue && !x.nakWait && s.linkState i == 5 then
    s.linkDown i 0 7
  else s

/-- credit(v) of R352. -/
def linkCredit (s : State) (i v : Nat) : Nat :=
  let x := s.link i
  Tbl.get 0 x.limit v - (Tbl.get 0 x.sent v - Tbl.get 0 x.pfreed v).toNat

/-- Link `l` takes a packet that is for its partner: it is Up and not told to disable (R354), not frozen for what is no
response (R363), and PEER for JOIN and ASSIGN (R366). -/
def takesNew (s : State) (l : Nat) (p : Packet) : Bool :=
  s.linkState l == 5 && !(s.link l).quiesceTx && (!(s.linkFrozen l) || vcOf p.ty == 1) &&
    (s.linkClass l == 0 || (p.ty != pJOIN && p.ty != pASSIGN))

/-- A packet that the fabric unit sends on a given link: it has crossed one link more (R370). -/
def sendOn (s : State) (l : Nat) (p : Packet) : State :=
  let q := p.set0 23 16 (p.hop + 1)
  if s.takesNew l p then s.enqueue l (if s.linkUpDir l then q else q.set0 15 15 1) else s

/-- The Up PEER links that take a new management packet. -/
def peerLinks (s : State) : List Nat :=
  (List.range 6).filter fun l => s.linkState l == 5 && s.linkClass l == 0 && !(s.linkFrozen l) && !((s.link l).quiesceTx)

/-- Send EPOCH for world `w` of this node to the partners (R398). -/
def sendEpoch (s : State) (w : Nat) (all : Bool) : State :=
  let n := Tbl.get 0 s.fab.epochNo w + 1
  let s := { s with fab := { s.fab with epochNo := Tbl.set 0 s.fab.epochNo w n } }
  if s.fabUp then
    s.peerLinks.foldl (fun s l => s.sendOn l
      (mkPacket s.nodeNo (s.linkPnode l) pEPOCH false false 0
        (rawWord (v64 (fld 48 s.nodeNo + fld 47 w + fld 46 (b2n all) + n.toNat))) (rawWord (v64 (fld 48 s.nodeNo))) [])) s
  else s

end State

end Sys2Proof.Machine
end

