-- ==== Sys2Proof/Machine/RegIO.lean ====
section
/-! DEFINITION. Reads and writes of the module register space (R4-R7, R17, R18): which world a register belongs to
(R170), what a read shows, what a write does, for a core and for the Reeve. -/

namespace Sys2Proof.Machine

/-- Who reads or writes a register: the Reeve, or bank `b` of core `c` in world `w`. -/
structure Who where
  reeve : Bool
  c : Nat := 0
  b : Fin 4 := 0
  w : Bool := false
  sup : Bool := true
deriving DecidableEq, Repr

/-- The Reeve as the one who writes. -/
def whoReeve : Who := { reeve := true }

/-- Offsets by block: a core's, a cluster's, a bin descriptor's, a link's, a core's debug part. -/
def isCoreBlk (o : Nat) : Bool := decide (0x01000000 ≤ o) && decide (o < 0x07000000)
def isClusterBlk (o : Nat) : Bool := decide (0x08000000 ≤ o) && decide (o < 0x08C00000)
def isBinBlk (o : Nat) : Bool := decide (0x0A000000 ≤ o) && decide (o < 0x0A040000)
def isLinkBlk (o : Nat) : Bool := decide (0x0B000000 ≤ o) && decide (o < 0x0B060000)
def isDbgBlk (o : Nat) : Bool := decide (0x0E000000 ≤ o) && decide (o < 0x0E600000)
def isTraceBlk (o : Nat) : Bool := decide (0x0E600000 ≤ o) && decide (o < 0x0E6C0000)
def isEvReg (o : Nat) : Bool := isDbgBlk o && decide (0x200 ≤ o % 0x10000) && decide (o % 0x10000 < 0x280)
def isMailBlk (o : Nat) : Bool := decide (0x0F000000 ≤ o) && decide (o < 0x0F020000)

/-- The core of an offset in a core block, and the bank of an offset in its per-bank part. -/
def blkCore (o : Nat) : Nat := (o - 0x01000000) / 0x100000
def blkBank (o : Nat) : Fin 4 := Fin.ofNat 4 ((o % 0x100000 - 0x100) / 0x40)

namespace State

/-- The offset is that of an accessible core block: the cluster is enabled and the core stands for itself (R11, R296). -/
def coreBlkOn (s : State) (o : Nat) : Bool := s.coreEnabled (blkCore o) && !(s.oddBound (blkCore o))

/-- Both cores of a yoked pair reach the even core's counters (R480). -/
def evRedirect (s : State) (o : Nat) : Nat :=
  if isEvReg o && s.oddBound ((o - 0x0E000000) / 0x10000) then o - 0x10000 else o

/-- The world that a per-world register belongs to (R154, R202, R316, R416, R478). -/
def regWorld (s : State) (o : Nat) : Option Bool :=
  if isCoreBlk o then
    if s.coreBlkOn o then
      let r := o % 0x100000
      if 0x100 ≤ r && r < 0x200 && r % 0x40 ≤ 0x20 then some (s.bank (blkCore o) (blkBank o)).status.wld
      else if 0x200 ≤ r && r < 0x300 && r % 0x80 ≤ 0x30 then some (decide (0x280 ≤ r)) else none
    else none
  else if isClusterBlk o then
    let r := o % 0x100000
    if 0x40040 ≤ r && r < 0x400C0 && r % 0x40 ≤ 0x18 then some (decide (0x40080 ≤ r))
    else if o < 0x08100000 && 0x48000 ≤ r && r < 0x48200 && r % 0x100 ≤ 0xA0 then some (decide (0x48100 ≤ r))
    else none
  else if isBinBlk o then some (s.binWld ((o - 0x0A000000) / 0x40))
  else if isEvReg o then
    some (bit (s.reg (dbgBase ((o - 0x0E000000) / 0x10000) + 0x200 + o % 0x40)) 18)
  else if isMailBlk o then
    let r := o % 0x10000
    if r ≤ 0x18 || (0x1000 ≤ r && r ≤ 0x1400) || (0x2000 ≤ r && r ≤ 0x2408) then some (decide (0x0F010000 ≤ o)) else none
  else none

/-- An entry of a bin engine's program store: its index (R334). -/
def progIndex (o : Nat) : Option Nat :=
  if isClusterBlk o && 0xC8000 ≤ o % 0x100000 && o % 0x100000 < 0xD0000 then some ((o % 0x100000 - 0xC8000) / 8) else none

/-- Registers that supervisor code writes, of the blocks that a core may write: the collection control and the Winnowers'
per-world registers (R154, R385), bin descriptors (R316), the mailbox (R416). A user-level write is ignored (DEDUCED, log
entry 135). -/
def supervisorReg (o : Nat) : Bool :=
  isBinBlk o || isMailBlk o ||
    (isClusterBlk o && ((0x40040 ≤ o % 0x100000 && o % 0x100000 < 0x400C0) || (0x48000 ≤ o % 0x100000 && o % 0x100000 < 0x48200)))

/-- A core's access to a register is the violation REG_WORLD (R170). -/
def regViolation (s : State) (x : Who) (o : Nat) (write : Bool) : Bool :=
  !x.reeve && (match s.regWorld (s.evRedirect o) with
    | some w => w != x.w
    | none =>
      match progIndex o with
      | some i => write && (decide (2048 ≤ i) != x.w)
      | none => false)

/-- Windows with SIZE ≠ 0 that overlap another one in BAR2 (R431). -/
def winOverlap (s : State) (n : Nat) : Bool :=
  let lo (k : Nat) : Nat := s.regF (hostWin k + 0x10) 13 0
  let sz (k : Nat) : Nat := s.regF (hostWin k + 8) 12 0
  sz n != 0 && (List.range 8).any fun k => k != n && sz k != 0 && lo k < lo n + sz n && lo n < lo k + sz k

/-- Winnower `k` is marking, copying or fixing up. -/
def wnwBusy (s : State) (k : Nat) : Bool :=
  bit (s.reg (wnwBase k)) 1 && [false, true].any fun w =>
    let x := s.wnw k w
    !(x.stack.isEmpty && x.spill == 0 && x.toCopy.isEmpty && x.toFix.isEmpty)

/-- What a read of the register at an offset aligned to 8 shows (R4, R7). -/
def regRead (s : State) (x : Who) (o' : Nat) : Val :=
  let o := s.evRedirect o'
  if isMailBlk o && !x.reeve && !x.sup then 0 else
  let v := s.reg o
  if 0x10000000 ≤ o then 0
  else if 0x00300000 ≤ o && o < 0x00400000 then (if x.reeve then v else 0)
  else if o == rBTCTL then
    match s.fab.nextPeriod with
    | some p => setBits v 1 0 p.toNat
    | none => v
  else if o == rPWRSTAT then
    let gated := (List.range 12).filter fun k => (List.range 8).all fun i => (s.core (8 * k + i)).pg
    setBits v 27 16 (gated.foldl (fun n k => n + 2 ^ k) 0)
  else if isCoreBlk o then
    let c := blkCore o
    if !(s.coreBlkOn o) then 0
    else
      let r := o % 0x100000
      let k := s.core c
      if r == 0 then
        v64 (fld 7 (b2n k.pg) + fld 6 (b2n k.inEsc) + fld 5 (b2n k.frozen) +
          (match k.run with | some b => 4 + b.val | none => 0))
      else if 0x100 ≤ r && r < 0x200 then
        let b := s.bank c (blkBank o)
        if r % 0x40 == 0 then
          v64 (fld 16 (b2n b.rej) + fld 12 b.prev.toNat + fld 8 b.wcause.toNat + fld 4 b.pri.toNat + b.st.toNat)
        else if r % 0x40 == 0x10 then b.pc
        else if r % 0x40 == 0x18 then b.btmr.setWidth 64
        else if r % 0x40 == 0x20 then b.bevt.setWidth 64
        else 0
      else v
  else if isClusterBlk o then
    let k := (o - 0x08000000) / 0x100000
    let r := o % 0x100000
    if r < 0x800 && r % 0x100 == 0 then setBits v 13 0 (s.core (8 * k + r / 0x100)).locks.length
    else if r == 0x40008 then setBits v 0 0 (b2n (s.wnwBusy k))
    else if r == 0x40058 || r == 0x40098 then
      let y := s.wnw k (r == 0x40098)
      v64 (fld 48 y.destq.length + y.cur)
    else if k == 0 && (r == 0x48088 || r == 0x48188) && !x.reeve then (s.bank x.c x.b).expres
    else if k == 0 && 0x80000 ≤ r && r < 0xC0000 then (if x.reeve || bit v 8 == x.w then v else 0)
    else v
  else if isLinkBlk o then
    let i := (o - 0x0B000000) / 0x10000
    if o % 0x10000 == 0x18 then setBits v 57 48 (s.link i).replay.length
    else if o % 0x10000 == 0x20 then v64 ([0, 1, 2, 3].foldl (fun n c => n + s.linkCredit i c % 2 ^ 16 * 2 ^ (16 * c)) 0)
    else v
  else if o == rHPSTAT then
    v64 (fld 2 (b2n (bit v 2)) + fld 1 (b2n (bit (s.reg rFRZP) 8)) + b2n ((List.range 8).any fun n => s.winOverlap n))
  else if 0x0D010000 ≤ o && o < 0x0D030000 then
    setBits v 24 24 (s.csPar 0 ((o - 0x0D010000) / 8) v.toNat)
  else if 0x0D040000 ≤ o && o < 0x0D080000 then
    (if o % 32 == 16 then
      let n := (o - 0x0D040000) / 32
      let all := (s.reg (rNANO n)).toNat + 2 ^ 64 * (s.reg (rNANO n + 8)).toNat + 2 ^ 128 * bits v 15 0
      setBits v 17 16 (2 * ((parityBit (all / 2 ^ 72) + b2n Config.csParity) % 2) + s.csPar 1 n (all % 2 ^ 72))
    else v)
  else if isEvReg o then v
  else if isDbgBlk o then
    if !x.reeve then 0
    else if o % 0x10000 == 0 then setBits v 2 2 (b2n (s.core ((o - 0x0E000000) / 0x10000)).stopReq) else v
  else if isTraceBlk o then (if x.reeve then v else 0)
  else v

/-- Core `c` loads its copy of the dispatch entries from its cluster's (R208). -/
def dispatchLoad (s : State) (c : Nat) : State :=
  s.modCore c fun x => { x with
    dloaded := true,
    dcopy := (s.regs.filter fun (o, _) => rDENT 0 ≤ o && o < rDENT 1024).map fun (o, v) => ((o - rDENT 0) / 8, v) }

/-- Power returns to a gated core (R205). -/
def powerRestore (s : State) (c : Nat) : State :=
  if (s.core c).pg then
    let s := [(0 : Fin 4), 1, 2, 3].foldl (fun s b =>
      s.modBank c b fun k => { ({} : Bank) with
        st := k.st, pc := k.pc, pri := k.pri, rej := k.rej, prev := k.prev,
        status := { ({} : Status) with wld := k.status.wld } }) s
    (s.modCore c fun x => { x with pg := false, freeBouts := 0 }).dispatchLoad c
  else s

/-- START (R193). -/
def bankStart (s : State) (c : Nat) (b : Fin 4) : State :=
  if (s.bank c b).st != 0 then s.modBank c b fun k => { k with rej := true }
  else
    let s := (s.powerRestore c).modCore c fun x => { x with freeBouts := 0 }
    let y := s.pairMode (pairOf c) == 2
    s.modBank c b fun k => Bank.ready { k with
      rej := false, twp := 7, wait := none, micro := none, exempt := false, impCount := 0,
      status := { ({} : Status) with wld := k.status.wld, mrk := s.gcPhase k.status.wld == 1, yk := y } }

/-- PARK (R193). -/
def bankPark (s : State) (c : Nat) (b : Fin 4) : State :=
  let k := s.bank c b
  if k.st == 1 || k.st == 3 then s.modBank c b fun k => { k with st := 4, rej := false }
  else if k.st == 2 then
    (s.modBank c b fun k => { k with st := 4, rej := false }).modCore c fun x => { x with run := none, lastRun := b }
  else s.modBank c b fun k => { k with rej := true }

/-- UNPARK (R193). -/
def bankUnpark (s : State) (c : Nat) (b : Fin 4) : State :=
  let k := s.bank c b
  if k.st != 4 then s.modBank c b fun k => { k with rej := true }
  else
    match k.wait with
    | some w =>
      if w.done then s.modBank c b fun k => { k.ready with rej := false }
      else s.modBank c b fun k => { k with st := 3, rej := false }
    | none => s.modBank c b fun k => { k.ready with rej := false }

/-- RELEASE (R193): the results of outstanding transactions are discarded. -/
def bankRelease (s : State) (c : Nat) (b : Fin 4) : State :=
  let k := s.bank c b
  if k.st == 0 || k.st == 4 then
    let t := s.fab.ott.map fun (i, e) => (i, if e.busy && e.core == c && e.bank == b.val then { e with discard := true } else e)
    let s := { s with fab := { s.fab with ott := t } }
    (s.abandon c b).modBank c b fun k => { k with st := 0, wcause := 0, rej := false, resv := none }
  else s.modBank c b fun k => { k with rej := true }

/-- A BCTL command (R193, R202). -/
def bankCmd (s : State) (c : Nat) (b : Fin 4) (cmd : Nat) : State :=
  if cmd == 1 then s.bankStart c b
  else if cmd == 2 then s.bankPark c b
  else if cmd == 3 then s.bankUnpark c b
  else if cmd == 4 then s.bankRelease c b
  else s.modBank c b fun k => { k with rej := true }

/-- A write of BPC (R194, R202): ignored unless the bank is Free or Parked; a wait still outstanding is cancelled, a
result that is kept is discarded. -/
def bpcWrite (s : State) (c : Nat) (b : Fin 4) (v : Val) : State :=
  let k := s.bank c b
  if k.st == 0 || k.st == 4 then
    (s.abandon c b).modBank c b fun k => { k with pc := v64 (bits v 47 2 * 4), wcause := 0 }
  else s

/-- A write of ICSIG by a core (R202): the sender's bit of the target's ICPEND. -/
def icsigWrite (s : State) (x : Who) (c : Nat) (w : Bool) : State :=
  if x.reeve then s else s.deliver c (.icpend w (s.rep x.c))

/-- A write of DBELL (R202): Reeve only. -/
def dbellWrite (s : State) (x : Who) (c : Nat) (w : Bool) (v : Val) : State :=
  if x.reeve && bit v 0 then s.deliver c (.ipend w 0) else s

/-- Write of a register of a core block. -/
def writeCoreBlk (s : State) (x : Who) (o : Nat) (v : Val) : State :=
  let c := blkCore o
  if !(s.coreBlkOn o) then s
  else
    let r := o % 0x100000
    if r == 8 then (if x.reeve then s.setReg o (v &&& v64 (rwMask o)) else s)
    else if 0x100 ≤ r && r < 0x200 then
      let b := blkBank o
      let q := r % 0x40
      if q == 0 then s.modBank c b fun k => { k with pri := BitVec.ofNat 2 (bits v 5 4) }
      else if q == 8 then s.bankCmd c b (bits v 2 0)
      else if q == 0x10 then s.bpcWrite c b v
      else if q == 0x18 then s.modBank c b fun k => { k with btmr := v.setWidth 32 }
      else if q == 0x20 then s.modBank c b fun k => { k with bevt := k.bevt &&& ~~~(v.setWidth 4) }
      else s
    else if 0x200 ≤ r && r < 0x300 then
      let w := decide (0x280 ≤ r)
      let q := r % 0x80
      if q == 0 || q == 0x20 then s.setReg o (v &&& v64 (rwMask o))
      else if q == 8 || q == 0x10 || q == 0x18 then s.setReg o (s.reg o &&& ~~~v)
      else if q == 0x28 then s.icsigWrite x c w
      else if q == 0x30 then s.dbellWrite x c w v
      else s
    else s

/-- MSPILLN of Winnower `k` and world `w` is written: marking resumes when it grows (R154). -/
def spillGrown (s : State) (k : Nat) (w : Bool) : State :=
  if (s.wnw k w).full && decide ((s.wnw k w).spill < s.regF (wnwBase k + 0x48 + 0x40 * wn w) 19 0) then setFull s k w false
  else s

/-- A push to DESTQ (R154). -/
def destqPush (s : State) (k : Nat) (w : Bool) (v : Val) : State :=
  let p := bits v 14 0
  let st := wnwBase k + 8
  let q := (s.wnw k w).destq
  if s.plotState p != 1 || bit (s.reg (rPLOT p)) 8 != w || 8 ≤ q.length then s.setRegF st 2 2 1
  else (s.modWnw k w fun y => { y with destq := y.destq ++ [p] }).setRegF st 2 2 0

/-- A write of WCTL (R163): Reeve only; a clear of EN that would leave no Winnower in service while a world is out of
Idle is refused. -/
def wctlWrite (s : State) (k : Nat) (v : Val) : State × Bool :=
  let s := s.setRegF (wnwBase k + 8) 3 3 0
  let others := (List.range 12).any fun j => j != k && bit (s.reg (wnwBase j)) 0 && bit (s.reg (wnwBase j)) 1
  if !(bit v 0) && !others && (s.gcPhase false != 0 || s.gcPhase true != 0) then (s.setRegF (wnwBase k + 8) 3 3 1, true)
  else (s.setRegF (wnwBase k) 0 0 (b2n (bit v 0)), false)

/-- A write of GCCTL (R153): GO requests a cycle, ABORT is taken only in Mark, SCOPE only in Idle. -/
def gcctlWrite (s : State) (w : Bool) (v : Val) : State :=
  let o := gcBase (wn w)
  let s := ((s.setRegF o 23 20 (bits v 23 20)).setRegF o 19 13 (bits v 19 13)).setRegF o 0 0 (bits v 0 0)
  let s := if s.gcPhase w == 0 then s.setRegF o 10 8 (bits v 10 8) else s
  if bit v 1 && s.gcPhase w == 1 then s.modGcW w fun g => { g with abort := true } else s

/-- A write of EXPREQ (R386): the export, and its result for the writer's EXPRES. -/
def expreqWrite (s : State) (x : Who) (w : Bool) (v : Val) : State :=
  let p : Word := ⟨BitVec.ofNat 8 (bits v 55 48), v64 (bits v 47 0)⟩
  let k := s.inService (expHead s w % 12)
  let (r, s) := if s.isPtr p.type && ptrRule p.val then runExport s k w p else (0, s)
  if x.reeve then s.setReg (gcBase (wn w) + 0x88) r else s.modBank x.c x.b fun y => { y with expres := r }

/-- Write of a register of the collection control of world `w` (R153, R249, R385). -/
def writeGc (s : State) (x : Who) (w : Bool) (r : Nat) (v : Val) : State :=
  let o := gcBase (wn w) + r
  let put (s : State) : State := s.setReg o ((s.reg o &&& ~~~(v64 (rwMask o))) ||| (v &&& v64 (rwMask o)))
  if r == 0 then s.gcctlWrite w v
  else if r == 0x10 then (if s.gcPhase w == 0 then put s else s)
  else if r == 0x50 || r == 0x58 then (if expEn s w then s else put s)
  else if r == 0x68 then (if expEn s w then s else (put s).setRegF o 20 20 0)
  else if r == 0x80 then s.expreqWrite x w v
  else if r == 0x90 then (if bit v 0 then s.sendEpoch (wn w) false else s)
  else put s

/-- Write of a register of a cluster block. -/
def writeCluster (s : State) (x : Who) (o : Nat) (v : Val) : State :=
  let k := (o - 0x08000000) / 0x100000
  let r := o % 0x100000
  let put (s : State) : State := s.setReg o ((s.reg o &&& ~~~(v64 (rwMask o))) ||| (v &&& v64 (rwMask o)))
  if r < 0x800 then (if x.reeve then put s else s)
  else if r == 0x40000 then (if x.reeve then (s.wctlWrite k v).1 else s)
  else if r == 0x40050 || r == 0x40090 then s.destqPush k (r == 0x40090) v
  else if 0x40040 ≤ r && r < 0x400C0 then
    (if r == 0x40048 || r == 0x40088 then (put s).spillGrown k (r == 0x40088) else put s)
  else if k == 0 && 0x48000 ≤ r && r < 0x48200 then s.writeGc x (decide (0x48100 ≤ r)) (r % 0x100) v
  else if 0xC8000 ≤ r && r < 0xD0000 then put s
  else s

/-- Write of a bin descriptor (R315, R316). -/
def writeBin (s : State) (x : Who) (o : Nat) (v : Val) : State :=
  let n := (o - 0x0A000000) / 0x40
  let r := o % 0x40
  let idle := s.binState n == 0 || s.binState n == 3
  let f (s : State) (hi lo : Nat) : State := s.setRegF o hi lo (bits v hi lo)
  if r == 0 then
    let s := s.setRegF o 27 27 0
    if bits v 31 28 != 0 then s.binCmdReg n (bits v 31 28)
    else
      let s := f (f s 43 32) 13 12
      if idle then
        let s := f (f (f (f s 11 11) 10 10) 9 9) 8 8
        let s := if bits v 19 16 < 12 then f s 19 16 else s
        if x.reeve && s.binState n == 0 then f s 7 7 else s
      else s
  else if r == 8 then
    if idle then
      let s := f s 39 12
      if 6 ≤ bits v 4 0 && bits v 4 0 ≤ 16 then f s 4 0 else s
    else s
  else if r == 0x10 then
    if idle then
      let s := f (f s 9 8) 6 0
      if decide (2048 ≤ bits v 27 16) == s.binWld n then f s 27 16 else s
    else s
  else if r == 0x20 then f s 23 0
  else if r == 0x38 then s.setReg o v
  else s

/-- A write to a fence entry runs R169: Closed, every line of the granule leaves the caches, those of this
module's own objects in the remote object cache with it, then the new value. -/
def fenceSet (s : State) (o base : Nat) (v : Nat) : State :=
  if 3 ≤ v then s
  else
    let s := s.setRegF o 1 0 2
    let gs := (s.heldGrans.filter fun g => base ≤ 64 * g && 64 * g < base + 2 ^ 26).eraseDups
    let s := gs.foldl (fun s g => s.evictHard g) s
    let roc := s.fab.roc.filter fun l => l.node.toNat != s.srcNode
    { s with fab := { s.fab with roc := roc } }.setRegF o 1 0 v

/-- A new bout period (R15, R380): only before the first core release after cold reset. -/
def periodWrite (s : State) (p : Nat) : State :=
  if bit (s.reg rCLOSED) 0 || p == s.regF rBTCTL 1 0 then
    (if bit (s.reg rCLOSED) 0 then s else { s with fab := { s.fab with nextPeriod := none } })
  else { s with fab := { s.fab with nextPeriod := some (BitVec.ofNat 2 p) } }

/-- Write of an event counter register (R478): WLD only by the Reeve. -/
def writeEv (s : State) (x : Who) (o : Nat) (v : Val) : State :=
  if o % 0x10000 < 0x240 then
    let old := s.reg o
    let new := (old &&& ~~~(v64 (rwMask o))) ||| (v &&& v64 (rwMask o))
    let new := if x.reeve then new else setBits new 18 18 (bits old 18 18)
    s.setReg o (if bit v 24 then setBits new 24 24 0 else new)
  else s.setReg o (v &&& v64 (rwMask o))

/-- The key of a port in the table of ports (link ports have a table of their own). -/
def portKey : Port → Nat
  | .mgmt => 0
  | .debug => 1
  | .host => 2
  | .core w => 3 + w.val
  | .link _ _ => 5

/-- The oldest queued reply of a fixed port is delivered (R409). -/
def popReply (s : State) (key : Nat) : State :=
  let p := Tbl.get {} s.reeve.ports key
  match p.queue with
  | [] => s
  | r :: q =>
    let p : PortSt := match r.seq with
      | some n => { p with queue := q, out := p.out.filter (· != n) }
      | none => { p with queue := q }
    { s with reeve := { s.reeve with ports := Tbl.set {} s.reeve.ports key p } }

/-- The oldest queued reply of the mailbox of world `w` is placed in MBRPL, and its core is rung (R416). -/
def showMail (s : State) (w : Nat) : State :=
  let b := mailBase w
  if bit (s.reg b) 1 then s
  else
    match (Tbl.get {} s.reeve.ports (3 + w)).queue with
    | [] => s
    | r :: _ =>
      let s := (List.range 130).foldl (fun s k =>
        s.setReg (b + 0x2000 + 8 * k) (v64 (leNat ((r.bytes.drop (8 * k)).take 8)))) s
      let s := s.setReg b 2
      let ctl := s.reg (b + 8)
      if bit ctl 7 then s.deliver (s.rep (bits ctl 6 0)) (.ipend (w == 1) 0) else s

/-- Write of a mailbox register (R416). -/
def writeMail (s : State) (o : Nat) (v : Val) : State :=
  let w := (o - 0x0F000000) / 0x10000
  let b := mailBase w
  let r := o % 0x10000
  let st := s.reg b
  if r == 0x10 then
    if bit v 0 && !(bit st 0) && !(bit st 1) then
      let bs := (List.range 129).flatMap fun k => leBytes 8 (s.reg (b + 0x1000 + 8 * k)).toNat
      { (s.setReg b (setBits st 0 0 1)) with reeve := { s.reeve with inbox := s.reeve.inbox ++ [(.core (Fin.ofNat 2 w), bs)] } }
    else s
  else if r == 0x18 then
    (if bit v 0 && bit st 1 then ((s.setReg b (setBits st 1 1 0)).popReply (3 + w)).showMail w else s)
  else s.setReg o ((s.reg o &&& ~~~(v64 (rwMask o))) ||| (v &&& v64 (rwMask o)))

/-- A write of a register at an offset aligned to 8, its side effects included; a core's write has passed `regViolation`. -/
def regWrite (s : State) (x : Who) (o' : Nat) (v : Val) : State :=
  let o := s.evRedirect o'
  let put (s : State) : State := s.setReg o ((s.reg o &&& ~~~(v64 (rwMask o))) ||| (v &&& v64 (rwMask o)))
  if 0x10000000 ≤ o || (!x.reeve && !x.sup && supervisorReg o) then s
  else if isCoreBlk o then s.writeCoreBlk x o v
  else if isClusterBlk o then s.writeCluster x o v
  else if isBinBlk o then s.writeBin x o v
  else if isEvReg o then s.writeEv x o v
  else if isMailBlk o then s.writeMail o v
  else if !x.reeve then s
  else if o == rBTCTL then (put s).setRegF rBTCTL 1 0 (s.regF rBTCTL 1 0) |>.periodWrite (bits v 1 0)
  else if o == rTHCTL then
    let t := bits v 23 16
    let s' := put s
    if 70 ≤ t && t ≤ 110 then s' else s'.setRegF rTHCTL 23 16 (s.regF rTHCTL 23 16)
  else if o == rVLCLR then
    if bit v 0 then
      (List.range 128).foldl (fun s i => s.setReg (rVLOG 0 + 8 * i) 0) (s.setReg rVLSTAT 0)
    else s
  else if rFENCED 0 ≤ o && o < rFENCED 768 then s.fenceSet o ((o - rFENCED 0) / 8 * 2 ^ 26) (bits v 1 0)
  else if rFENCEB 0 ≤ o && o < rFENCEB 64 then
    s.fenceSet o (0xE000000000 + (o - rFENCEB 0) / 8 * 2 ^ 26) (bits v 1 0)
  else if 0x00400000 ≤ o && o < pairBase 48 then
    if o % 0x40 == 8 then
      let s := put s
      if bit v 2 then s.setRegF (o - 8) 7 7 0 else s
    else s
  else if isLinkBlk o then
    if o % 0x10000 == 0 then
      let i := (o - 0x0B000000) / 0x10000
      let s := (put s).setRegF (o + 8) 9 9 0
      if bits v 3 0 == 0 then s else s.linkCmdReg i (bits v 3 0)
    else s
  else if o == rFABNODE then (if s.fabUp then s else put s)
  else if o == rFABRTF then (if bit v 0 then { s with fab := { s.fab with cache := [] } } else s)
  else if isTraceBlk o then
    if o % 0x10000 == 0 then
      let s := put s
      if bit v 0 then
        let k := (o - 0x0E600000) / 0x10000
        { (s.setReg (o + 8) 0) with trLast := Tbl.set 0 s.trLast k s.cycle, trPos := Tbl.set 0 s.trPos k 0 }
      else s
    else s
  else put s

/-- Who a source of a register write is: the Reeve while its firmware runs; a bank of a core that can execute; the host
reaches no register (R429, R430). -/
def whoOf (s : State) : RegSrc → Option Who
  | .reeve => if !s.tripped && s.reeve.up && bit (s.reg rGLBBOOT) 0 then some whoReeve else none
  | .bank c b =>
    if s.tripped || !s.coreEnabled c || s.oddBound c || (s.core c).frozen || (s.core c).pg then none
    else some { reeve := false, c := c, b := b, w := (s.bank c b).status.wld, sup := (s.bank c b).status.lvl }
  | .host => none

end State

/-- A load of a device register by an instruction (R88, R170). -/
def regLoad (cx : Ctx) (off : Nat) : M Val := do
  let s ← get
  let x : Who := { reeve := false, c := cx.c, b := cx.b, w := cx.w, sup := cx.lvl }
  if s.regViolation x off false then throw (.freeze vREGWORLD (v64 off))
  return s.regRead x off

end Sys2Proof.Machine
end

