-- ==== Sys2Proof/Machine/Access.lean ====
section
/-! DEFINITION. Memory access by an instruction: orders 5 to 10 of R74, the store buffer (R233, R245), first-level caches
(R268, R287), data breakpoints (R475), the read barrier (R145-R149), the store barriers (R139-R143), device registers. -/

namespace Sys2Proof.Machine

/-- Memory types an instruction accepts (R88, R93, R129). -/
def mtAny : MemType → Bool := fun _ => true
def mtNoDev (m : MemType) : Bool := m != .device
def mtCB (m : MemType) : Bool := m == .cacheable || m == .bin
def mtC (m : MemType) : Bool := m == .cacheable

/-- Raise a breakpoint match (R476): slot `slot`, kind 1 instruction or 2 data. -/
def brkRaise (cx : Ctx) (act : Bool) (slot kind : Nat) (va : Nat) : M Unit := do
  if !act then throw (.halt (kind + 2) slot)
  else
    let k ← getBank cx
    if k.status.ml == 15 then pure () else fault cDEBUG (v64 (va % 2 ^ 48 * 65536 + fld 4 slot + kind))

/-- Breakpoints do not apply now: in escalation, or for an exempt first instruction (R476). -/
def brkOff (s : State) (cx : Ctx) : Bool := (s.core cx.c).inEsc || (s.bank cx.c cx.b).exempt

/-- Data breakpoints on a local word access (R475). -/
def dataBrk (cx : Ctx) (va : Nat) (rd wr : Bool) (tag : BitVec 8) : M Unit := do
  let s ← get
  if brkOff s cx then pure ()
  else
    let hit (m : Nat) : Bool :=
      let a := bits (s.reg (dbgBase cx.c + 0x140 + 16 * m)) 47 3 * 8
      let e := s.reg (dbgBase cx.c + 0x148 + 16 * m)
      let len := 2 ^ bits e 5 0
      bit e 63 && ((rd && bit e 62) || (wr && bit e 61)) && bit e (57 + wn cx.w) &&
        (bit e 60 || (decide (a ≤ va) && decide (va < a + len))) &&
        (!(bit e 56) || ((tag.toNat &&& bits e 47 40) == (bits e 39 32 &&& bits e 47 40)))
    match [0, 1].find? hit with
    | some m => brkRaise cx (bit (s.reg (dbgBase cx.c + 0x148 + 16 * m)) 59) (4 + m) 2 va
    | none => pure ()

namespace State

/-- A way of L1I or L1D records a parity error (R287). -/
def wayError (s : State) (c : Nat) (instr : Bool) (way : Nat) : State :=
  let key := (if instr then 4 else 0) + way
  let x := s.core c
  let lo := if instr then 20 else 16
  let reg := clusterBase (clusterOf c) + 0x100 * (c % 8)
  let e := Tbl.get (0, 0) x.wayErr key
  let now := s.bounds
  let e := if e.1 != 0 && decide (now - e.2 < 2 ^ 20) then (e.1 + 1, e.2) else (1, now)
  let s := s.setCore c { x with wayErr := Tbl.set (0, 0) x.wayErr key e }
  if e.1 == 4 then
    let dis := s.regF reg (lo + 3) lo
    let left := ((List.range 4).filter fun n => !(dis.testBit n)).length
    if dis.testBit way then s
    else if left ≤ 2 then (s.sendMchk c false (mchkTval 0x23 0)).sendMchk c true (mchkTval 0x23 0)
    else
      let s := s.setRegF reg (lo + way) (lo + way) 1
      s.logEvent 6 0x30 c 2 (s.reg reg) 0
  else s

/-- The enabled ways of L1I or L1D of a core (R287, R293). -/
def l1Ways (s : State) (c : Nat) (instr : Bool) : List Nat :=
  (List.range 4).filter fun n => !(bit (s.reg (clusterBase (clusterOf c) + 0x100 * (c % 8))) ((if instr then 20 else 16) + n))

/-- A granule goes to L1I or L1D: to an enabled way of its set of 256 that is empty, else to one that a free value chooses
(R267). The low bits of the granule number choose the set (DESIGN CHOICE, log entry 136). -/
def l1Fill (s : State) (c : Nat) (w : Bool) (g : Nat) (instr : Bool) : State :=
  let x := s.core c
  let ls := (if instr then x.l1i else x.l1d).filter (·.gran != g)
  let used := (ls.filter fun l => l.gran % 256 == g % 256).map (·.way)
  let ways := s.l1Ways c instr
  let (way, s) : Nat × State := match ways.find? fun n => !(used.contains n) with
    | some n => (n, s)
    | none => let (v, s) := s.freeVal; (ways.getD (v.toNat % ways.length) 0, s)
  let ls := ls.filter (fun l => !(l.gran % 256 == g % 256 && l.way == way)) ++ [⟨g, w, way⟩]
  s.modCore c fun x => if instr then { x with l1i := ls } else { x with l1d := ls, side := x.side.filter (·.gran != g) }

/-- A parity error met in a first-level array (0 L1I, 1 L1D, 2 the side buffer): counted, and the line is refetched (R287). -/
def l1Refetch (s : State) (c g which : Nat) : State :=
  (s.modMem fun m => { m with upL1 := m.upL1.filter (· != (c, g, which)) }).incF
    (clusterBase (clusterOf c) + 0x100 * (c % 8) + 8) 63 32 1

/-- An access to a first-level cache: a parity error in the line refetches it and counts against its way (R287), a line not
held counts a miss and is filled, a side-buffer hit moves the line (R269). -/
def l1Touch (s : State) (c : Nat) (w : Bool) (g : Nat) (instr : Bool) : State :=
  let x := s.core c
  let which := if instr then 0 else 1
  let ways := s.l1Ways c instr
  match (if instr then x.l1i else x.l1d).find? fun l => l.gran == g && l.world == w && ways.contains l.way with
  | some l =>
    if s.mem.upL1.contains (c, g, which) then (((s.l1Refetch c g which).wayError c instr l.way).l1Fill c w g instr) else s
  | none =>
    if !instr && x.side.any fun l => l.gran == g && l.world == w then
      (if s.mem.upL1.contains (c, g, 2) then s.l1Refetch c g 2 else s).l1Fill c w g instr
    else (if instr then s else s.countEvent c 7 1).l1Fill c w g instr

end State

/-- Entries of the store buffer for the word at a physical address (R233). -/
def sbFor (s : State) (c pa : Nat) : List SBEntry := (s.core c).sb.filter fun e => e.pa / 8 == pa / 8

/-- A request that cannot be served now: the instruction stalls, leaves its request at the home, or commits the violation. -/
def cohThrow {α : Type} (e : CohFail) (why pa : Nat) : M α :=
  match e with
  | .stall => throw .stall
  | .wait q => throw (.miss q)
  | .fence => throw (.freeze why (v64 pa))

/-- The granule of a cacheable address in the core's L2, read for a load or fetch. -/
def lineRead (cx : Ctx) (pa : Nat) (instr : Bool) : M Line := do
  let s := (← get).l2Parity cx.c (pa / 64)
  let s := if (s.agLine cx.c (pa / 64)).isNone then s.countEvent cx.c 8 1 else s
  match s.cohRead cx.c cx.w (pa / 64) with
  | .ok (l, s) => set (s.l1Touch cx.c cx.w (pa / 64) instr); return l
  | .error e => cohThrow e (if instr then vFENCEFETCH else vFENCEDATA) pa

/-- The granule of a memory address by its memory type: from the core's L2, or by UC at the home (R278, R286). -/
def memLine (cx : Ctx) (pa : Nat) (mt : MemType) (instr : Bool) : M Line := do
  if mt == .cacheable then lineRead cx pa instr
  else
    match (← get).ucOpen cx.c cx.w pa with
    | .ok s => do
      let (l, s) := s.ucRead pa
      set s
      return l
    | .error e => cohThrow e (if instr then vFENCEFETCH else vFENCEDATA) pa

/-- The bin whose ring a physical address lies in, if any (R314). -/
def ringOf (s : State) (pa : Nat) : Option Nat :=
  s.liveBins.find? fun n =>
    let a := s.slotAddr n 0 0
    decide (a ≤ pa) && decide (pa < a + 64 * s.binSlots n)

/-- Two addresses of bin memory lie in the same ring, or in the same granule outside every ring (R235). -/
def sameRing (s : State) (x y : Nat) : Bool :=
  match ringOf s x, ringOf s y with
  | some m, some n => m == n
  | none, none => x / 64 == y / 64
  | _, _ => false

/-- A load of the bank waits (R234, R235): for a device store of the bank, and in bin memory for its stores to other words of
the same ring or granule. -/
def loadWaits (s : State) (cx : Ctx) (pa : Nat) (mt : MemType) : Bool :=
  (s.core cx.c).sb.any fun e => e.bank == cx.b &&
    (e.mt == .device || (mt == .bin && e.mt == .bin && e.pa / 8 != pa / 8 && sameRing s e.pa pa))

/-- The word at an address of memory as the bank sees it: younger stores of its own bank forwarded (R233), poison
checked (order 9). -/
def memWord (cx : Ctx) (va : Val) (pa : Nat) (mt : MemType) : M Word := do
  let s ← get
  let es := sbFor s cx.c pa
  if es.any (·.bank != cx.b) || loadWaits s cx pa mt then throw .stall
  let merge (w : Word) : Word := es.foldl (fun w e => e.data.apply (e.pa % 8) w) w
  if es.any fun e => match e.data with | .word _ => true | _ => false then return merge nilWord
  let l ← memLine cx pa mt false
  faultIf l.poison cPOISON va
  return merge (l.word (pa / 8 % 8))

/-- A device access waits until every earlier local access of its bank is performed (R234). -/
def devWait (cx : Ctx) : M Unit := do
  if ((← get).core cx.c).sb.any (·.bank == cx.b) then throw .stall

/-- Append a word to the bank's SATBLOG; with no room the access waits (R142). -/
def satAppend (cx : Ctx) (w : Word) : M Unit := do
  let k ← getBank cx
  if 256 ≤ k.satblog.length then throw .stall
  modify fun s => (s.modBank cx.c cx.b fun k => { k with satblog := k.satblog ++ [w] }).countEvent cx.c 12 1

/-- Reading word 0 of a pointer's target for the read barrier: orders 7 to 9 (R145). -/
def probe (cx : Ctx) (a : Nat) : M Word := do
  let (pa, mt) ← translate cx (a / 8 * 8) .read
  let s ← get
  if unassigned s pa then fault cMCHK (State.mchkTval 1 pa)
  faultIf (mt == .device) cPAGEPROT (v64 a)
  memWord cx (v64 a) pa mt

/-- Follow FORWARD words while the plot is Evacuating (R146). -/
def forward (cx : Ctx) : Nat → Nat → Word → M Word
  | 0, _, x => return x
  | n + 1, hops, x => do
    let f ← probe cx x.val.toNat
    if f.type != tyFORWARD then return x
    modify fun s => s.countEvent cx.c 9 1
    if 4 < hops + 1 then fault cMCHK (State.mchkTval 2 x.val.toNat)
    let x : Word := ⟨x.tag, f.val⟩
    if (← get).inEvac cx.w x.val.toNat then forward cx n (hops + 1) x else return x

/-- Follow the FORWARD words that a RAW address met (case 0 of R145). -/
def forward0 (cx : Ctx) : Nat → Nat → Word → M Word
  | 0, _, w => return w
  | n + 1, hops, w => do
    if w.type != tyFORWARD then return w
    modify fun s => s.countEvent cx.c 9 1
    if 4 < hops + 1 then fault cMCHK (State.mchkTval 2 w.val.toNat)
    forward0 cx n (hops + 1) (← probe cx w.val.toNat)

/-- The answer to a load-assist on `x`; without one the request is sent and the bank waits (R147). -/
def assist (cx : Ctx) (x : Word) : M Word := do
  let s ← get
  let a := x.val.toNat
  match s.gc.assists.find? fun r => r.core == cx.c && r.bank == cx.b.val && r.addr == a && r.tagb == x.tag with
  | some r =>
    match r.result with
    | some w => return w
    | none => throw (.wait { cause := 4, key := a, tagb := x.tag })
  | none =>
    let k := s.inService (match s.plotOf cx.w a with | some p => s.plotWnw p | none => 0)
    let r : Assist := { k := k, world := cx.w, addr := a, tagb := x.tag, core := cx.c, bank := cx.b.val }
    set (({ s with gc := { s.gc with assists := s.gc.assists ++ [r] } }).countEvent cx.c 10 1)
    throw (.wait { cause := 4, key := a, tagb := x.tag })

/-- The heal: a CAS on the slot with the bank's write rights that changes nothing when it fails (R146). It takes its place after
the bank's older stores (R231): `barrier` waits for them. -/
def heal (cx : Ctx) (va : Nat) (old new : Word) (s : State) : State :=
  match (translate cx va .write).run s with
  | .error _ _ => s
  | .ok (pa, mt) s1 =>
    if mt != .cacheable || unassigned s1 pa || !(sbFor s1 cx.c pa).isEmpty then s
    else
      match s1.cohOwn cx.c cx.w (pa / 64) with
      | .error _ => s
      | .ok (l, s2) =>
        if l.poison || l.word (pa / 8 % 8) != old then s2
        else s2.putOwned cx.c (pa / 64) (pa / 8 % 8) new none

/-- The read barrier on the word `v` read from slot `va` (R145); `atomic` for the load part of CAS, SWAP, FADD, LDRV. -/
def barrier (cx : Ctx) (va : Val) (v : Word) (atomic : Bool) : M Word := do
  faultIf (atomic && v.type == tyFORWARD) cTYPE va
  let viaFwd := v.type == tyFORWARD
  let v ← forward0 cx 6 0 v
  let s ← get
  if !(s.isPtr v.type) then return v
  let seen (w : Word) : M Unit := do
    let s ← get
    let k ← getBank cx
    if k.status.mrk && w.weak && s.isPtr w.type && s.inScope cx.w w.val.toNat then satAppend cx w
  if !(s.inEvac cx.w v.val.toNat) then
    seen v
    return v
  let x ← forward cx 6 0 v
  let x ← if (← get).inEvac cx.w x.val.toNat then assist cx x else pure x
  if x != v && !viaFwd then do
    if ownOlder (← get) cx then throw .stall
    modify (heal cx va.toNat v x)
  seen x
  return x

/-- Orders 5 to 8 for a word access in memory, not a device; the physical address and type. -/
def wordAddr (cx : Ctx) (ea : Val) (acc : Acc) (ok : MemType → Bool) : M (Nat × MemType) := access cx ea 8 acc ok

/-- A word load through the read barrier (R89); checked under R26 unless `raw`. -/
def loadWord (cx : Ctx) (ea : Val) (ok : MemType → Bool) (raw : Bool) : M Word := do
  let (pa, mt) ← access cx ea 8 .read ok
  if mt == .device then
    devWait cx
    let v ← regLoad cx (pa - 0xF000000000)
    dataBrk cx ea.toNat true false 0x16
    return rawWord v
  let w ← memWord cx ea pa mt
  let w ← barrier cx ea w false
  if !raw then checkWord cx w ea
  dataBrk cx ea.toNat true false w.tag
  return w

/-- The bytes of a word at an offset, sign- or zero-extended (R89). -/
def extractSub (v : Val) (off size : Nat) (signed : Bool) : Val :=
  let x := bits v (8 * (off + size) - 1) (8 * off)
  if signed then i64 (sext (8 * size) x) else v64 x

/-- A sub-word load (R89). TVAL of its TYPE is `ea` as it is, not rounded down to the word (DESIGN CHOICE, log entry 146). -/
def loadSub (cx : Ctx) (ea : Val) (size : Nat) (signed : Bool) : M Word := do
  let (pa, mt) ← access cx ea size .read mtAny
  if mt == .device then
    devWait cx
    let v ← regLoad cx ((pa - 0xF000000000) / 8 * 8)
    dataBrk cx ea.toNat true false 0x16
    return fixWord (extractSub v (pa % 8) size signed)
  let w ← memWord cx ea pa mt
  let w ← barrier cx ea w false
  checkWord cx w ea
  faultIf (w.tag != 0x16) cTYPE ea
  dataBrk cx ea.toNat true false w.tag
  return fixWord (extractSub w.val (pa % 8) size signed)

/-- The remembered-set barrier of a whole-word store of `v` into slot `va` (R139, R140): `gen` for an instruction of
Generic arithmetic, list operations and escapes, which escapes LOG when the log is full. -/
def rsBarrier (cx : Ctx) (va : Val) (v : Word) (gen : Bool) : M Unit := do
  let s ← get
  if s.isPtr v.type then
    match s.inHeap cx.w va.toNat, s.inHeap cx.w v.val.toNat with
    | some p, some q =>
      if s.plotGen q < s.plotGen p then
        let k ← getBank cx
        if 256 ≤ k.rslog.length then
          if gen then throw (.escape eLOG)
          else modB cx fun k => { k with rsovs := setBits k.rsovs (p % 64) (p % 64) 1 }
        else
          modify fun s => (s.modBank cx.c cx.b fun k => { k with rslog := k.rslog ++ [va.toNat] }).countEvent cx.c 11 1
      else pure ()
    | _, _ => pure ()
  else pure ()

/-- A store meets poison at order 9 when its own world may see the granule (R289). -/
def storePoison (cx : Ctx) (va : Val) (pa : Nat) (mt : MemType) : M Unit := do
  let s ← get
  faultIf (s.fenceOwner pa == wn cx.w && s.peekPoison pa mt) cPOISON va

/-- The store buffer has room for `n` entries (R245): STM and SAVEH wait for room for all their words before they store any
(DESIGN CHOICE, log entry 145). -/
def sbRoom (cx : Ctx) (n : Nat) : M Unit := do
  if 32 < ((← get).core cx.c).sb.length + n then throw (.wait { cause := 5 })

/-- A store enters the store buffer; with no room the bank waits (R245). -/
def sbPush (cx : Ctx) (va : Nat) (pa : Nat) (mt : MemType) (d : StoreData) (snap : Bool) : M Unit := do
  let s ← get
  if 32 ≤ (s.core cx.c).sb.length then throw (.wait { cause := 5 })
  let k ← getBank cx
  let e : SBEntry :=
    { bank := cx.b, world := cx.w, pa := pa, mt := mt, data := d, mrk := k.status.mrk, pc := k.pc, snap := snap, sup := cx.lvl,
      tr := usedEntry s cx va }
  set (s.modCore cx.c fun x => { x with sb := x.sb ++ [e] })

/-- The access of an instruction to a device register passes the register decoder before the instruction retires (R170,
R189). -/
def regCheck (cx : Ctx) (off : Nat) (write : Bool) : M Unit := do
  if (← get).regViolation { reeve := false, c := cx.c, b := cx.b, w := cx.w, sup := cx.lvl } off write then
    throw (.freeze vREGWORLD (v64 off))

/-- The pages of a transfer of `n` words are translated, and A and D set, before its first store enters the buffer: the CAS of
R258 comes after every older store of the bank. A fault is left for the word that meets it (DESIGN CHOICE, log entry 139). -/
def touchPages (cx : Ctx) (ea : Val) (n : Nat) (ok : MemType → Bool) : M Unit := do
  let try_ (a : Val) : M Bool := do
    match (access cx a 8 .write ok).run (← get) with
    | .ok _ s => do
      set s
      return true
    | .error .stall _ => throw .stall
    | .error (.miss q) _ => throw (.miss q)
    | .error _ _ => return false
  if n != 0 then
    if ← try_ ea then
      let _ ← try_ (ea + v64 (8 * (n - 1)))

/-- A whole-word store at `ea` (R90), after the checks on its operands. `snap`: the snapshot barrier covers it. -/
def storeWord (cx : Ctx) (ea : Val) (w : Word) (ok : MemType → Bool) (gen snap : Bool) (srcSpec : Nat) : M Unit := do
  let (pa, mt) ← access cx ea 8 .write ok
  if mt == .device then
    want (isFR w) srcSpec
    regCheck cx (pa - 0xF000000000) true
    dataBrk cx ea.toNat false true w.tag
    sbPush cx ea.toNat pa mt (.word w) false
  else
    storePoison cx ea pa mt
    dataBrk cx ea.toNat false true w.tag
    if 32 ≤ ((← get).core cx.c).sb.length then throw (.wait { cause := 5 })
    rsBarrier cx ea w gen
    sbPush cx ea.toNat pa mt (.word w) snap

/-- A sub-word store (R90, R30). -/
def storeSub (cx : Ctx) (ea : Val) (v : Val) (size : Nat) : M Unit := do
  let (pa, mt) ← access cx ea size .write mtAny
  if mt == .device then
    regCheck cx ((pa - 0xF000000000) / 8 * 8) true
    dataBrk cx ea.toNat false true 0x16
    sbPush cx ea.toNat pa mt (.sub size v) false
  else
    let w ← memWord cx ea pa mt
    checkWord cx w ea
    faultIf (w.tag != 0x16) cTYPE ea
    dataBrk cx ea.toNat false true 0x16
    sbPush cx ea.toNat pa mt (.sub size v) false

/-- Own stores still in the buffer must be performed first (R242, R243). -/
def ownStoresDone (cx : Ctx) : M Unit := do
  if ((← get).core cx.c).sb.any (·.bank == cx.b) then throw .stall

/-- The granule of a cacheable address in state M in the core's L2, with the word read. -/
def lineOwn (cx : Ctx) (va : Val) (pa : Nat) : M Word := do
  let s := (← get).l2Parity cx.c (pa / 64)
  if (sbFor s cx.c pa).any (·.bank != cx.b) then throw .stall
  match s.cohOwn cx.c cx.w (pa / 64) with
  | .ok (l, s) =>
    set s
    faultIf l.poison cPOISON va
    return l.word (pa / 8 % 8)
  | .error e => cohThrow e vFENCEDATA pa

/-- The snapshot barrier for content `u` about to be replaced at once (R141). -/
def satBarrier (cx : Ctx) (u : Word) : M Unit := do
  let s ← get
  let k ← getBank cx
  if k.status.mrk && s.isPtr u.type && !u.weak && s.inScope cx.w u.val.toNat then satAppend cx u

/-- Read of the word of an atomic instruction through the read barrier, with write permission (R93, R149). -/
def atomicRead (cx : Ctx) (ea : Val) : M (Nat × Word) := do
  let (pa, _) ← access cx ea 8 .write mtC
  let w ← lineOwn cx ea pa
  let w ← barrier cx ea w true
  let _ ← lineOwn cx ea pa
  checkWord cx w ea
  return (pa, w)

/-- Write of the word of an atomic instruction, performed at once (R242). -/
def atomicWrite (cx : Ctx) (ea : Val) (pa : Nat) (old new : Word) : M Unit := do
  rsBarrier cx ea new false
  satBarrier cx old
  modify fun s => s.putOwned cx.c (pa / 64) (pa / 8 % 8) new none

end Sys2Proof.Machine
end

