-- ==== Sys2Proof/Machine/Special.lean ====
section
/-! DEFINITION. Special registers (R54-R67, R138, R171, R200, R248, R478): the value and tag that a read gives, the write
of each, and the rights of R55. -/

namespace Sys2Proof.Machine

/-- The numbers that R54, R138 and R248 assign. -/
def srAssigned (n : Nat) : Bool :=
  [0x00, 0x01, 0x02, 0x03, 0x04, 0x08, 0x09, 0x0A, 0x0B, 0x10, 0x11, 0x12, 0x13, 0x18, 0x19, 0x1A, 0x1B, 0x20, 0x21,
    0x28, 0x29, 0x30, 0x31, 0x32, 0x33, 0x34, 0x35, 0x36, 0x38, 0x39, 0x3A, 0x3B, 0x40, 0x41, 0x42, 0x48, 0x49, 0x4A,
    0x4B, 0x4C, 0x4D, 0x4E, 0x4F].contains n

/-- Registers that user level may not reach (R54, R248). -/
def srSupervisor (n : Nat) : Bool :=
  [0x01, 0x02, 0x03, 0x04, 0x21, 0x30, 0x31, 0x32, 0x33, 0x34, 0x35, 0x36, 0x40, 0x41, 0x42].contains n

/-- An event counter register (R478). -/
def srEvc (n : Nat) : Bool := decide (0x48 ≤ n) && decide (n ≤ 0x4F)

/-- The tag that MFS writes (R54). -/
def srTag (n : Nat) : BitVec 8 :=
  if [0x08, 0x09, 0x0A, 0x0B, 0x21, 0x28, 0x29, 0x38, 0x39, 0x3A, 0x3B].contains n || srEvc n then 0x01 else 0x16

/-- The number of set bits among the low `n` bits of a value. -/
def popcount (v : Val) : Nat → Nat
  | 0 => 0
  | n + 1 => popcount v n + b2n (bit v n)

namespace State

/-- The counter register of EVCn of core `c`, the even core's on a yoked pair (R480). -/
def evcReg (s : State) (c n : Nat) : Nat := dbgBase (s.rep c) + 0x240 + 8 * (n - 0x48)

/-- FEAT0 to FEAT3 (R67) for bank `b` of core `c`. -/
def feat (s : State) (c : Nat) (b : Fin 4) (n : Nat) : Val :=
  let w := wn (s.bank c b).status.wld
  if n == 0x38 then v64 (fld 16 0x1F + fld 8 8 + fld 4 4 + popcount (s.reg rGLBCLEN) 12)
  else if n == 0x39 then v64 (fld 40 (b2n (bit (s.reg rCSGRANT) w)) + fld 32 32 + fld 24 4 + fld 12 2048)
  else if n == 0x3A then v64 (fld 32 (bits (s.reg rCARVE) 7 0) + fld 16 (bits (s.reg rROCSZ) 15 0) + 48)
  else v64 (fld 32 (b2n s.fabUp) + fld 28 (s.regF rBTCTL 1 0) + fld 23 b.val + fld 16 (s.rep c) + s.nodeNo)

/-- The value of special register `n` as bank `b` of core `c` reaches it, with no side effect. -/
def srVal (s : State) (c : Nat) (b : Fin 4) (n : Nat) : Val :=
  let k := s.bank c b
  let cw := s.coreW c k.status.wld
  match n with
  | 0x00 => k.status.toVal
  | 0x01 => k.cause
  | 0x02 => k.tval
  | 0x03 => k.aepc
  | 0x04 => v64 (fld 4 (k.status.cwp - k.twp).toNat + k.twp.toNat)
  | 0x08 => k.ph
  | 0x09 => k.pl
  | 0x0A => k.qt
  | 0x0B => k.rm
  | 0x10 => k.allocp
  | 0x11 => k.allocl
  | 0x12 => k.escbase
  | 0x13 => k.escpc
  | 0x18 => v64 k.rslog.length
  | 0x19 => v64 (k.rslog.headD 0)
  | 0x1A => k.rsovs
  | 0x1B => v64 k.satblog.length
  | 0x20 => k.pkr
  | 0x21 => k.tenant
  | 0x28 => v64 s.cycle
  | 0x29 => (s.pair (pairOf c)).timel
  | 0x30 => cw.tsbr
  | 0x31 => cw.trapent
  | 0x32 => cw.escvec
  | 0x33 => cw.escstk
  | 0x34 => cw.bankwin
  | 0x35 => k.sscr0
  | 0x36 => k.sscr1
  | 0x40 => k.ttb
  | 0x41 => k.asid
  | 0x42 => v64 ((List.range 8).foldl (fun m i =>
      m + (if (Tbl.get none s.lockTlb (8 * wn k.status.wld + i)).isSome then 2 ^ i else 0)) 0)
  | _ =>
    if 0x38 ≤ n && n ≤ 0x3B then s.feat c b n
    else if srEvc n then s.reg (s.evcReg c n) else 0

/-- The oldest RSLOG entry is removed by its read (R138). -/
def rsPop (s : State) (c : Nat) (b : Fin 4) : State := s.modBank c b fun k => { k with rslog := k.rslog.drop 1 }

/-- STATUS as an MTS leaves it (R58): EARLY is cleared by a 1; P always, CWP and ML only at supervisor level. -/
def statusWrite (st : Status) (v : Val) (sup : Bool) : Status :=
  { st with
    early := st.early && !(bit v 24), p := bit v 23,
    cwp := if sup then BitVec.ofNat 3 (bits v 18 16) else st.cwp,
    ml := if sup then BitVec.ofNat 4 (bits v 3 0) else st.ml }

/-- Bits [hi:lo] of a value in place, every other bit zero. -/
def keep (v : Val) (hi lo : Nat) : Val := v &&& v64 (mask hi lo)

/-- The write of special register `n` by bank `b` of core `c` (R4, R56): registers and bits that are RO keep their value. -/
def srWrite (s : State) (c : Nat) (b : Fin 4) (sup : Bool) (n : Nat) (v : Val) : State :=
  let k (f : Bank → Bank) : State := s.modBank c b f
  let cw (f : CoreWorld → CoreWorld) : State := s.modCoreW c (s.bank c b).status.wld f
  match n with
  | 0x00 => k fun x => { x with status := statusWrite x.status v sup }
  | 0x01 => k fun x => { x with cause := v &&& v64 (mask 19 16 + mask 8 8 + mask 7 0) }
  | 0x02 => k fun x => { x with tval := v }
  | 0x03 => k fun x => { x with aepc := keep v 47 2 }
  | 0x04 => k fun x => { x with twp := BitVec.ofNat 3 (bits v 2 0) }
  | 0x08 => k fun x => { x with ph := v }
  | 0x09 => k fun x => { x with pl := v }
  | 0x0A => k fun x => { x with qt := v }
  | 0x0B => k fun x => { x with rm := v }
  | 0x10 => k fun x => { x with allocp := keep v 47 3 }
  | 0x11 => k fun x => { x with allocl := keep v 47 3 }
  | 0x12 => k fun x => { x with escbase := keep v 47 12 }
  | 0x13 => k fun x => { x with escpc := keep v 47 2 }
  | 0x1A => k fun x => { x with rsovs := x.rsovs &&& ~~~v }
  | 0x20 => k fun x => { x with pkr := keep v 31 0 }
  | 0x21 => k fun x => { x with tenant := v &&& v64 (mask 7 7 + mask 5 0) }
  | 0x30 => cw fun x => { x with tsbr := keep v 39 9 }
  | 0x31 => cw fun x => { x with trapent := keep v 47 2 }
  | 0x32 => cw fun x => { x with escvec := keep v 47 2 }
  | 0x33 => cw fun x => { x with escstk := keep v 47 3 }
  | 0x34 => cw fun x => { x with bankwin := keep v 5 0 }
  | 0x35 => k fun x => { x with sscr0 := v }
  | 0x36 => k fun x => { x with sscr1 := v }
  | 0x40 => k fun x => { x with ttb := v &&& v64 (mask 39 12 + 1) }
  | 0x41 => k fun x => { x with asid := keep v 15 0 }
  | _ => if srEvc n then s.setReg (s.evcReg c n) (keep v 47 0) else s

end State

/-- Order 1 and order 2 for MFS and MTS (R55, R478): an unassigned number, a register the level may not reach. -/
def srRights (cx : Ctx) (n : Nat) (write : Bool) : M Unit := do
  faultIf (!(srAssigned n)) cILLEGAL 0
  faultIf (!cx.lvl && srSupervisor n) cPRIV (v64 n)
  if srEvc n then
    let s ← get
    let e := s.reg (s.evcReg cx.c n - 0x40)
    faultIf (bit e 18 != cx.w || !(cx.lvl || (!write && bit e 19))) cPRIV (v64 n)

/-- An MFS of a product or quotient register while its write is pending sets EARLY (R62); a result whose cycle has come
is written first (R61). -/
def earlyRead (cx : Ctx) (n : Nat) : M Unit := do
  modify fun s => s.settleMD cx.c cx.b
  modB cx fun k =>
    if (n == 0x08 || n == 0x09) && k.pend.any (fun p => !p.div) then { k with status := { k.status with early := true } }
    else if (n == 0x0A || n == 0x0B) && k.pend.any (·.div) then { k with status := { k.status with early := true } }
    else k

/-- A special register read as MFS reads it at the executing level (R98, R211): its rights, EARLY, the core's own sample
of TIMEC (R306), the pop of RSPOP. -/
def srRead (cx : Ctx) (n : Nat) : M Word := do
  srRights cx n false
  earlyRead cx n
  let v := (← get).srVal cx.c cx.b n + (if n == 0x28 then cx.skew else 0)
  if n == 0x19 then modify fun s => s.rsPop cx.c cx.b
  return ⟨srTag n, v⟩

/-- Order 2 of MTS: the rights, and CWP and ML of STATUS at user level (R58, R98). -/
def srMayWrite (cx : Ctx) (n : Nat) (v : Val) : M Unit := do
  let k ← getBank cx
  faultIf (n == 0 && !cx.lvl && (bits v 18 16 != k.status.cwp.toNat || bits v 3 0 != k.status.ml.toNat)) cPRIV 0

/-- The write of MTS: a result whose cycle has come is written first (R62). -/
def srPut (cx : Ctx) (n : Nat) (v : Val) : M Unit := do
  modify fun s => (s.settleMD cx.c cx.b).srWrite cx.c cx.b cx.lvl n v

end Sys2Proof.Machine
end

