-- ==== Sys2Proof/Machine/Sched.lean ====
section
/-! DEFINITION. What the Harrow decides from (R196, R197): which cores schedule, the choice of a bank, the routing of
interrupts, the quantum, and whether a Harrow event is pending for a core. -/

namespace Sys2Proof.Machine

namespace State

/-- The core schedules: it is powered, enabled, neither frozen nor halted, and its pair is not held. -/
def schedules (s : State) (c : Nat) : Bool :=
  let x := s.core c
  let p := s.pair (pairOf c)
  !(s.tripped || !s.coreEnabled c || s.oddBound c || x.frozen || x.halted || x.pg || s.pairMode (pairOf c) == 3 ||
    p.handover.isSome || p.release.isSome)

/-- Banks in the order of a round-robin that starts after bank `b`. -/
def afterBank (b : Fin 4) : List (Fin 4) := [b + 1, b + 2, b + 3, b]

/-- The Ready bank with the highest PRI, ties round-robin from the bank after the one that ran last (R196). -/
def chooseBank (s : State) (c : Nat) (last : Fin 4) : Option (Fin 4) :=
  ((afterBank last).filter fun b => (s.bank c b).st == 1).foldl (fun best b =>
    match best with
    | none => some b
    | some x => if (s.bank c x).pri < (s.bank c b).pri then some b else best) none

/-- The interrupt-class item that world `w` would route to its interrupt bank (R197), with its rank: 16 for a machine
check, otherwise the level. -/
def routeTo (s : State) (c : Nat) (w : Bool) : Option (Fin 4 × Nat) :=
  let cfg := s.reg (worldRegs c (wn w))
  let b : Fin 4 := Fin.ofNat 4 (bits cfg 1 0)
  let k := s.bank c b
  let mc := if w then (s.core c).mchk1 else (s.core c).mchk0
  if !(bit cfg 2) || k.status.wld != w || !(k.st == 1 || k.st == 3) || k.scanPend || k.flipPend then none
  else if !mc.isEmpty then some (b, 16)
  else
    match s.topInt c w k.status.ml.toNat with
    | some (l, _, _) => if (s.core c).stepHold && l != 15 then none else some (b, l)
    | none => none

/-- The bank to which the Harrow routes at this boundary, and whether a tie between the worlds was settled. -/
def routing (s : State) (c : Nat) : Option (Fin 4 × Option Bool) :=
  match (s.core c).run with
  | some b =>
    let k := s.bank c b
    if k.status.ml == 15 then none else (s.routeTo c (!k.status.wld)).map fun x => (x.1, none)
  | none =>
    match s.routeTo c false, s.routeTo c true with
    | some (b, i), some (d, j) =>
      if i == j then (let out := (s.core c).tieOut; some (if out then d else b, some (!out)))
      else some (if j < i then b else d, none)
    | some (b, _), none => some (b, none)
    | none, some (d, _) => some (d, none)
    | none, none => none

/-- The quantum of the Running bank has run out (R196): QUANT × 256 consecutive cycles. -/
def quantumOut (s : State) (c : Nat) : Bool :=
  let q := s.regF (coreBase c + 8) 7 0
  q != 0 && decide ((s.core c).quantum + 256 * q ≤ s.cycle)

/-- A Harrow event is pending for the core (R212): its next decision would switch away from the Running bank by one of
the actions 3, 5 and 6 of R196. -/
def harrowEvent (s : State) (c : Nat) : Bool :=
  s.schedules c && !(s.core c).inEsc &&
    match (s.core c).run with
    | none => false
    | some r =>
      let k := s.bank c r
      k.status.ml != 15 &&
        ((s.routing c).isSome ||
          match s.chooseBank c r with
          | some b => decide (k.pri < (s.bank c b).pri) || (s.quantumOut c && k.pri == (s.bank c b).pri)
          | none => false)

end State

end Sys2Proof.Machine
end

