-- ==== Sys2Proof/Machine/Routine.lean ====
section
/-! DEFINITION. The control store as instructions meet it (R206-R224): shares and their owners, the fields of micro and
nanowords, and the running of a microcode routine. -/

namespace Sys2Proof.Machine

/-- The owner of Allotment share `j` (R222): 0 Closed, 1 Infield, 2 Outfield, 3 Common. -/
def shareOwner (s : State) (j : Nat) : Nat := s.regF rCSOWN (2 * j + 1) (2 * j)

/-- The share of a microword, nanoword, dispatch key or type code of the Allotment (R221). -/
def microShare (a : Nat) : Option Nat := if 0x3000 ≤ a && a < 0x4000 then some ((a - 0x3000) / 256) else none
def nanoShare (n : Nat) : Option Nat := if 0x1800 ≤ n && n < 0x2000 then some ((n - 0x1800) / 128) else none
def keyShare (k : Nat) : Option Nat := if 0x380 ≤ k && k < 0x3C0 then some ((k - 0x380) / 4) else none
def typeShare (t : Nat) : Option Nat := if 0x20 ≤ t && t < 0x40 then some ((t - 0x20) / 2) else none

/-- A share belongs to an owner. -/
def ownedBy (s : State) (owner : Nat) : Option Nat → Bool
  | some j => shareOwner s j == owner
  | none => false

/-- A bank of world `w` may run what a share holds (R224). -/
def mayRun (s : State) (w : Bool) : Option Nat → Bool
  | some j => shareOwner s j == 3 || shareOwner s j == 1 + wn w
  | none => false

/-- The signed displacement of a microword from its address. -/
def microTo (u arg : Nat) : Nat := ((u : Int) + sext 8 arg).toNat

/-- The fields of a nanoword (R210). -/
structure Nano where
  cond : Nat
  aop : Nat
  srca : Nat
  srcb : Nat
  dst : Nat
  tsel : Nat
  mop : Nat
  madr : Nat
  mflg : Nat
  eff : Nat
  tagk : BitVec 8
  spr : Nat
  xarg : Nat
  k : Val
deriving DecidableEq, Repr

/-- A nanoword from its three words. -/
def nanoOf (lo mid hi : Val) : Nano :=
  let n := lo.toNat + 2 ^ 64 * mid.toNat + 2 ^ 128 * hi.toNat
  let f (h l : Nat) : Nat := n / 2 ^ l % 2 ^ (h + 1 - l)
  { cond := f 135 130, aop := f 129 126, srca := f 125 121, srcb := f 120 116, dst := f 115 111, tsel := f 110 108,
    mop := f 107 104, madr := f 103 99, mflg := f 98 96, eff := f 95 92, tagk := BitVec.ofNat 8 (f 91 84),
    spr := f 79 72, xarg := f 71 64, k := lo }

namespace State

/-- The dispatch entry of a key in a core's copy; zero where the copy holds none. -/
def dentOf (s : State) (c key : Nat) : Val :=
  match (s.core c).dcopy.find? (·.1 == key) with
  | some (_, v) => v
  | none => 0

end State

/-- The condition flags of a microword's ALU operation (R211). -/
structure MFlags where
  z : Bool := false
  n : Bool := false
  v : Bool := false
  c : Bool := false
deriving DecidableEq, Repr

/-- A routine as it runs: its state (R214-R217) and the owner of the share it started in; 4 for the vendor. -/
structure MRun where
  m : MicroSt
  owner : Nat
deriving DecidableEq, Repr

/-- The same routine with another state. -/
def MRun.st (r : MRun) (f : MicroSt → MicroSt) : MRun := { r with m := f r.m }

/-- How a segment ends. -/
inductive MEnd where
  | retire
  | step (m : MicroSt)
deriving DecidableEq, Repr

/-- CS_ERROR and CS_BOUND (R218): a fault of the instruction before COMMIT, a machine check and the instruction's end
after it. -/
def csFail (cx : Ctx) (r : MRun) (reason : Nat) : M MEnd := do
  let tv := State.mchkTval reason r.m.u
  if r.m.committed.isNone then fault cMCHK tv
  else
    modify fun s => s.pendMchk cx.c cx.w tv
    return .retire

/-- A TYPE fault whose TVAL the manual names no register or address for: a free value. -/
def typeFree {α : Type} : M α := do
  let (v, s) := (← get).freeVal
  set s
  fault cTYPE v

/-- The specifiers [25:21], [20:16], [15:11] of an instruction word. -/
def iwSpec (iw : Val) (n : Nat) : Nat := if n == 1 then bits iw 25 21 else if n == 2 then bits iw 20 16 else bits iw 15 11

/-- A source of R211. MDR is read only when the last memory operation has delivered it: a CAS delivers at COMMIT, so a
segment that reads MDR between the two stalls until it exceeds R217. -/
def mSource (cx : Ctx) (r : MRun) (n : Nano) (code : Nat) : M Word := do
  if code == 0 then return rawWord 0
  else if code == 1 then return r.m.rd
  else if code == 2 then return r.m.rs1
  else if code == 3 then return r.m.rs2
  else if code == 4 then return ⟨n.tagk, n.k⟩
  else if code == 5 then return rawWord r.m.iw
  else if code == 6 then return fixWord (i64 (sext 12 (bits r.m.iw 15 4)))
  else if code == 7 then
    if !r.m.rdy then fault cMCHK (State.mchkTval 0x42 r.m.u)
    return r.m.mdr
  else if 8 ≤ code && code ≤ 0x0F then return Tbl.get nilWord r.m.t (code - 8)
  else if code == 0x10 then srRead cx n.spr
  else if code == 0x11 then return rawWord (← getBank cx).pc
  else throw (.vendor r.m.u)

/-- Leading zeros of a 64-bit value. -/
def clz (v : Val) : Nat := if v == 0 then 64 else 63 - Nat.log2 v.toNat

/-- The ALU of R211: the result and the flags; none for a reserved code. -/
def mAlu (aop : Nat) (a b : Word) : Option (Val × MFlags) :=
  let x := a.val
  let y := b.val
  let out (r : Val) : Option (Val × MFlags) := some (r, { z := r == 0, n := bit r 63 })
  let cnt := bits y 5 0
  if aop == 0 then out x
  else if aop == 1 then
    let r := x + y
    some (r, { z := r == 0, n := bit r 63, v := !(inFix (x.toInt + y.toInt)), c := decide (2 ^ 64 ≤ x.toNat + y.toNat) })
  else if aop == 2 then
    let r := x - y
    some (r, { z := r == 0, n := bit r 63, v := !(inFix (x.toInt - y.toInt)), c := decide (y.toNat ≤ x.toNat) })
  else if aop == 3 then out (x &&& y)
  else if aop == 4 then out (x ||| y)
  else if aop == 5 then out (x ^^^ y)
  else if aop == 6 then out (x <<< cnt)
  else if aop == 7 then out (x >>> cnt)
  else if aop == 8 then out (x.sshiftRight cnt)
  else if aop == 9 then out (x * y)
  else if aop == 10 then out (i64 (x.toInt * y.toInt / 2 ^ 64))
  else if aop == 11 then out (v64 (x.toNat * y.toNat / 2 ^ 64))
  else if aop == 12 then out (a.tag.setWidth 64)
  else if aop == 13 then out (v64 (clz x))
  else none

/-- PEND (R212). -/
def pend (s : State) (cx : Ctx) : Bool := (s.pendingItem cx.c cx.b).isSome || s.harrowEvent cx.c

/-- The tag of an ALU result, with the forging check of R224. -/
def mTag (r : MRun) (n : Nano) (a b : Word) : M (BitVec 8) := do
  let s ← get
  if n.tsel == 0 || n.tsel == 1 then
    let t := if n.tsel == 0 then a.tag else b.tag
    let w : Word := ⟨t, 0⟩
    let ok := n.aop == 0 || s.isImmType w.type || (s.isAllotPtr w.type && ownedBy s r.owner (typeShare w.type))
    if !ok then typeFree
    return t
  else if n.tsel == 2 then return n.tagk
  else if n.tsel == 3 then return 0x01
  else if n.tsel == 4 then return 0x16
  else throw (.vendor r.m.u)

/-- The condition of R212. With no memory operation before it MRDY holds (DEDUCED, log entry 133). -/
def mCond (cx : Ctx) (r : MRun) (n : Nano) (a b : Word) (f : MFlags) : M Bool := do
  let s ← get
  match n.cond with
  | 0 => return true
  | 1 => return f.z
  | 2 => return f.n
  | 3 => return f.v
  | 4 => return f.c
  | 5 => return a.type == n.tagk.toNat % 64
  | 6 => return b.type == n.tagk.toNat % 64
  | 7 => return s.isPtr a.type
  | 8 => return r.m.rdy
  | 9 => return r.m.tmo
  | 10 => return pend s cx
  | 11 => return a.imm
  | _ => throw (.vendor r.m.u)

/-- A register write of a microword (R215): staged before COMMIT, at once after it. -/
def mWrite (cx : Ctx) (r : MRun) (d : MDst) (w : Word) : M MRun := do
  match d with
  | .spr n =>
    srRights cx n true
    if !(isFR w) then typeFree
    srMayWrite cx n w.val
  | .reg _ => pure ()
  if r.m.committed.isNone then
    if (← get).malformed w then
      match d with
      | .reg spec => fault cTYPE (regTval spec)
      | .spr _ => typeFree
    return r.st fun m => { m with regs := m.regs ++ [(d, w)] }
  else
    match d with
    | .reg spec => putReg cx spec w
    | .spr n => srPut cx n w.val
    return r

/-- The checks of a staged STORE or CAS (R213), and its remembered-set barrier: the word that a CAS will return is read
and checked as that of an atomic instruction is (R28, R74). -/
def mStage (cx : Ctx) (r : MRun) (base : Word) (ea : Val) (w : Word) (old : Option Word) : M MRun := do
  if base.imm then typeFree
  if !cx.lvl && w.type == tyHEADER then typeFree
  if (← get).malformed w then fault cTYPE ea
  let (pa, mt) ← access cx ea 8 .write (if old.isSome then mtC else mtCB)
  if old.isSome then discard (atomicRead cx ea) else storePoison cx ea pa mt
  dataBrk cx ea.toNat false true w.tag
  rsBarrier cx ea w true
  return r.st fun m => { m with mems := m.mems ++ [⟨ea, pa, mt, w, old⟩], rdy := m.rdy && old.isNone }

/-- A staged operation performed at once: a CAS, or a store of a group that holds one. -/
def mPerform (cx : Ctx) (r : MRun) (x : MemStage) : M MRun := do
  if x.mt == .cacheable then
    let cur ← lineOwn cx x.ea x.pa
    let hit := match x.old with
      | some o => cur == o
      | none => true
    if hit then
      satBarrier cx cur
      modify fun s => s.putOwned cx.c (x.pa / 64) (x.pa / 8 % 8) x.w none
    return if x.old.isSome then r.st fun m => { m with mdr := cur, rdy := true } else r
  else
    match (← get).ucOpen cx.c cx.w x.pa with
    | .error e => cohThrow e vFENCEDATA x.pa
    | .ok s => do
      let (l, s) := s.ucRead x.pa
      set s
      satBarrier cx (l.word (x.pa / 8 % 8))
      modify fun s => s.ucWrite x.pa (.word x.w)
      return r

/-- The memory operations of a commit group, in staging order. -/
def mCommitMem (cx : Ctx) (direct : Bool) : List MemStage → MRun → M MRun
  | [], r => return r
  | x :: rest, r => do
    let r ← if direct then mPerform cx r x
      else do
        sbPush cx x.ea.toNat x.pa x.mt (.word x.w) true
        pure r
    mCommitMem cx direct rest r

/-- The register writes of a commit group, in staging order. -/
def mCommitRegs (cx : Ctx) : List (MDst × Word) → M Unit
  | [] => pure ()
  | (.reg spec, w) :: rest => do
    putReg cx spec w
    mCommitRegs cx rest
  | (.spr n, w) :: rest => do
    srPut cx n w.val
    mCommitRegs cx rest

/-- The words of a group's CAS operations are read and checked once more before anything of the group is performed: a wait
in the segment may have changed them. -/
def mCasCheck (cx : Ctx) : List MemStage → M Unit
  | [] => pure ()
  | x :: rest => do
    if x.old.isSome then discard (atomicRead cx x.ea)
    mCasCheck cx rest

/-- COMMIT (R215). -/
def mCommit (cx : Ctx) (r : MRun) : M MRun := do
  let direct := r.m.mems.any (·.old.isSome)
  if direct then ownStoresDone cx else sbRoom cx r.m.mems.length
  mCasCheck cx r.m.mems
  let q ← mCommitMem cx direct r.m.mems r
  mCommitRegs cx r.m.regs
  return q.st fun m => { m with regs := [], mems := [], committed := some r.m.cycles }

/-- The memory operation of a microword (R213). -/
def mMem (cx : Ctx) (r : MRun) (n : Nano) (base a b : Word) : M MRun := do
  if n.mop == 0 then return r
  if !((← get).isPtr base.type || isRw base) then
    if 1 ≤ n.madr && n.madr ≤ 3 then fault cTYPE (regTval (iwSpec r.m.iw n.madr)) else typeFree
  let ea := base.val + i64 (8 * sext 8 n.xarg)
  if n.mop == 1 then
    let w ← loadWord cx ea mtCB false
    return r.st fun m => { m with mdr := w, rdy := true }
  else if n.mop == 2 then mStage cx r base ea b none
  else if n.mop == 3 then mStage cx r base ea b (some a)
  else throw (.vendor r.m.u)

/-- The ALU result goes to its destination. -/
def mDest (cx : Ctx) (r : MRun) (n : Nano) (w : Word) : M MRun := do
  if n.dst == 0 then return r
  else if n.dst ≤ 3 then mWrite cx r (.reg (iwSpec r.m.iw n.dst)) w
  else if 8 ≤ n.dst && n.dst ≤ 0x0F then return r.st fun m => { m with t := Tbl.set nilWord m.t (n.dst - 8) w }
  else if n.dst == 0x10 then mWrite cx r (.spr n.spr) w
  else throw (.vendor r.m.u)

/-- A Harrow wait in a segment keeps the routine's state at the microword that waits (R216). -/
def mKeep {α : Type} (cx : Ctx) (r : MRun) (x : M α) : M α := fun s =>
  match x s with
  | .error (.wait w) t => .error (.wait w) (t.modBank cx.c cx.b fun k => { k with micro := some r.m })
  | y => y

/-- A microword or nanoword may be fetched by the routine (R224); a vendor routine may fetch any. -/
def mayFetch (s : State) (owner : Nat) (j : Option Nat) : Bool := owner == 4 || ownedBy s owner j

/-- A segment passes a limit of R216 or R217, which a vendor routine never does (R218). -/
def mLimit (cx : Ctx) (r : MRun) (reason : Nat) : M MEnd :=
  if r.owner == 4 then throw (.vendor r.m.u) else csFail cx r reason

/-- The parity check of a fetch from the copy of the core's cluster (R219): the reason of a failure. -/
def mParity (cx : Ctx) (store adr : Nat) : M (Option Nat) := do
  let s ← get
  let k := clusterOf cx.c
  if s.csBad.contains (k, store, adr) then
    let (good, s) := s.csRepair k store adr
    set s
    return some (if good then 0x40 else 0x41)
  else return none

/-- The effect, the memory operation and the destination of a microword: the routine after it, with its condition. -/
def mWord (cx : Ctx) (r : MRun) (n : Nano) : M (MRun × Bool) := do
  let a ← mSource cx r n n.srca
  let b ← mSource cx r n n.srcb
  let base ← mSource cx r n n.madr
  let (v, fl) ← match mAlu n.aop a b with
    | some x => pure x
    | none => throw (.vendor r.m.u)
  let tag ← mTag r n a b
  let cond ← mCond cx r n a b fl
  let cy := if 9 ≤ n.aop && n.aop ≤ 11 then 4 else 1
  let r ← mDest cx (r.st fun m => { m with cycles := m.cycles + cy }) n ⟨tag, v⟩
  let r ← mMem cx r n base a b
  return (r, cond)

/-- Where a microword's sequencing leads: on with another, or the end of the segment. -/
inductive MNext where
  | go (r : MRun)
  | stop (e : MEnd)
deriving DecidableEq, Repr

/-- The sequencing kinds of R209, after the microword at `r.m.u`. -/
def mSeq (r : MRun) (seq arg : Nat) (cond : Bool) : MNext :=
  let u := r.m.u
  let next (nu : Nat) : MNext := .go (r.st fun m => { m with u := nu })
  if seq == 0 then next (u + 1)
  else if seq == 1 then next (if cond then microTo u arg else u + 1)
  else if seq == 2 then next (if cond then u + 1 else microTo u arg)
  else if seq == 3 then
    .go (r.st fun m => { m with tmo := !cond, cycles := if cond then m.cycles else m.cycles + 4 * (arg + 1), u := u + 1 })
  else if seq == 4 then next (u / 256 * 256 + arg)
  else if seq == 5 then
    .stop (.step { r.m with u := microTo u arg, cycles := 0, regs := [], mems := [], committed := none })
  else .stop .retire

/-- One microword with the nanoword `n` (R209-R213): the limits of R218, its operations, its effect, its successor. -/
def mStep (cx : Ctx) (r : MRun) (n : Nano) (seq arg : Nat) : M MNext := do
  let u := r.m.u
  if r.owner != 4 && r.m.committed.isSome && (n.mop != 0 || n.eff != 0 || seq == 3) then return .stop (← csFail cx r 0x43)
  modify fun s => s.trace cx.c 2 cx.b u
  let (r, cond) ← mWord cx r n
  if r.owner != 4 && (4 < r.m.regs.length || 2 < r.m.mems.length) then return .stop (← csFail cx r 0x43)
  if n.eff == 2 then throw (.escape n.spr)
  if n.eff == 3 then fault n.spr n.k
  if 4 ≤ n.eff then throw (.vendor u)
  if n.eff == 1 then modify fun s => s.trace cx.c 3 cx.b u
  let r ← if n.eff == 1 then mCommit cx r else pure r
  return mSeq r seq arg cond

/-- Microwords from `r.m.u` on; the fuel is more than the 1,024 cycles of R217 allow. -/
def mGo (cx : Ctx) : Nat → MRun → M MEnd
  | 0, r => mLimit cx r 0x42
  | fuel + 1, r => mKeep cx r do
    let u := r.m.u
    let late : Bool := match r.m.committed with
      | none => decide (1024 ≤ r.m.cycles)
      | some c0 => decide (c0 + 64 ≤ r.m.cycles)
    if late && r.owner != 4 then csFail cx r (if r.m.committed.isNone then 0x42 else 0x43)
    else if !(mayFetch (← get) r.owner (microShare u)) then csFail cx r 0x43
    else
      match ← mParity cx 0 u with
      | some reason => csFail cx r reason
      | none => do
        let s ← get
        let mw := s.reg (rMWORD u)
        let nn := bits mw 23 11
        if bits mw 10 8 == 7 || !(mayFetch s r.owner (nanoShare nn)) then
          if r.owner == 4 then throw (.vendor u) else csFail cx r 0x43
        else
          match ← mParity cx 1 nn with
          | some reason => csFail cx r reason
          | none => do
            let n := nanoOf (s.reg (rNANO nn)) (s.reg (rNANO nn + 8)) (s.reg (rNANO nn + 16))
            match ← mStep cx r n (bits mw 10 8) (bits mw 7 0) with
            | .go r => mGo cx fuel r
            | .stop e => return e

/-- Run the routine at `entry` for one segment (R214, R216, R217): the routine that the bank is in goes on with the
sources it latched when it started. -/
def runRoutine (cx : Ctx) (entry : Nat) (iw : Nat) (latch : M (Word × Word × Word)) : M Flow := do
  let k ← getBank cx
  let s ← get
  let start : M MicroSt := do
    let (rd, rs1, rs2) ← latch
    modify fun s => s.countEvent cx.c 15 1
    return { u := entry, entry := entry, rd := rd, rs1 := rs1, rs2 := rs2, iw := v64 iw }
  let m ← match k.micro with
    | some m => if m.entry == entry && m.iw == v64 iw then pure m else start
    | none => start
  let owner := match microShare entry with
    | some j => shareOwner s j
    | none => 4
  match ← mGo cx 1100 { m := m, owner := owner } with
  | .retire => return .fall
  | .step m => do
    let stop := pend (← get) cx
    modB cx fun k => { k with micro := if stop then none else some m }
    return .again

/-- The sources of an instruction of KIND 1 by its word (order 3 of R207). -/
def latchW (cx : Ctx) (iw : Nat) (rdSrc : Bool) : M (Word × Word × Word) := do
  let rs1 ← srcReg cx (iwSpec (v64 iw) 2)
  let rs2 ← srcReg cx (iwSpec (v64 iw) 3)
  let rd ← if rdSrc then srcReg cx (iwSpec (v64 iw) 1) else pure nilWord
  let rs1 ← await cx rs1
  let rs2 ← await cx rs2
  let rd ← await cx rd
  return (rd, rs1, rs2)

/-- The instruction goes on with the routine that it is in; any other instruction does `body` (R214, R216). -/
def withRoutine (cx : Ctx) (iw : Nat) (body : M Flow) : M Flow := do
  match (← getBank cx).micro with
  | some m => if m.iw == v64 iw then runRoutine cx m.entry iw (pure (m.rd, m.rs1, m.rs2)) else body
  | none => body

/-- ENTRY and RDSRC of a key whose entry in the core's copy sends it to microcode (KIND 1, R206). The vendor image's own
entries send nothing there: its routines do what the manual says of their instructions (DEDUCED, log entry 134). -/
def kindOne (s : State) (c key : Nat) : Option (Nat × Bool) :=
  let e := s.dentOf c key
  if bit e 31 && bits e 29 28 == 1 then some (bits e 13 0, bit e 27) else none

/-- An instruction whose dispatch entry is of KIND 1 runs its routine, any other its own operation (R207). -/
def byKind (cx : Ctx) (iw : Nat) (body : M Flow) : M Flow := do
  match kindOne (← get) cx.c (keyOf iw) with
  | some (entry, rdSrc) => runRoutine cx entry iw (latchW cx iw rdSrc)
  | none => body

end Sys2Proof.Machine
end

