-- ==== Sys2Proof/Machine/Lockstep.lean ====
section
/-! DEFINITION. The comparator of a yoked pair (R296, R297, R302, R303, R306, R307): an instruction runs on both cores, and
nothing of it leaves the pair unless every compared item is equal. In lockstep the odd core's banks, escalation set and special
registers are the even core's; its TLBs, side buffer, dispatch copy, the registers of an uncommitted routine and its samples of
TIMEC are its own. -/

namespace Sys2Proof.Machine

namespace State

/-- What the odd core of pair `p` runs an instruction over. -/
def oddView (s : State) (p : Nat) : State :=
  let o := s.core (2 * p + 1)
  let s := s.modCore (2 * p) fun x => { x with
    itlb := o.itlb, dtlb := o.dtlb, l2tlb := o.l2tlb, side := o.side, dcopy := o.dcopy }
  (s.pair p).micro.foldl (fun s (x : Nat × Option MicroSt) =>
    s.modBank (2 * p) (Fin.ofNat 4 x.1) fun k => if k.micro.isSome then { k with micro := x.2 } else k) s

/-- The state after an instruction that ended in `t` on the even core of pair `p` and in `t'` on the odd. -/
def keepOdd (t : State) (p : Nat) (b : Fin 4) (t' : State) : State :=
  let o := t'.core (2 * p)
  let t := t.modCore (2 * p + 1) fun x => { x with
    itlb := o.itlb, dtlb := o.dtlb, l2tlb := o.l2tlb, side := o.side, dcopy := o.dcopy }
  let m := (t'.bank (2 * p) b).micro
  t.modPair p fun x => { x with
    micro := Tbl.set none x.micro b.val (if m = (t.bank (2 * p) b).micro then none else m) }

end State

/-- The first register at which two register files differ. -/
def regDiff (x y : Tbl Word) : Option (Word × Word) :=
  ((List.range 136).find? fun i => Tbl.get nilWord x i != Tbl.get nilWord y i).map fun i =>
    (Tbl.get nilWord x i, Tbl.get nilWord y i)

/-- The data of a store as a word. -/
def StoreData.asWord : StoreData → Word
  | .word w => w
  | .sub _ v => rawWord v

/-- How two store buffers differ: an address or size, data, a store that one has alone. -/
def storeDiff : List SBEntry → List SBEntry → Option (Nat × Word × Word)
  | [], [] => none
  | x :: r, y :: q =>
    let size (e : SBEntry) : Nat := match e.data with
      | .word _ => 8
      | .sub n _ => n
    if x.pa != y.pa || size x != size y then some (2, rawWord (v64 x.pa), rawWord (v64 y.pa))
    else if x.data != y.data then some (3, x.data.asWord, y.data.asWord)
    else storeDiff r q
  | x :: _, [] => some (7, rawWord (v64 x.pa), nilWord)
  | [], y :: _ => some (7, nilWord, rawWord (v64 y.pa))

/-- The special registers of a bank whose writes are compared. -/
def comparedSprs : List Nat :=
  [0x00, 0x01, 0x02, 0x03, 0x04, 0x08, 0x09, 0x0A, 0x0B, 0x10, 0x11, 0x12, 0x13, 0x1A, 0x20, 0x21, 0x30, 0x31, 0x32, 0x33,
    0x34, 0x35, 0x36, 0x40, 0x41]

/-- The compared item at which the two runs of an instruction differ, with the two cores' words (R302); of several the one with
the lowest code, a store before a special register (DESIGN CHOICE, log entry 140). Items 6 and 7 carry free values: R311 gives
the request address, of which a run that differs has two. -/
def compareRuns (c : Nat) (b : Fin 4) (t t' : State) : Option (Nat × Word × Word) :=
  let k := t.bank c b
  let k' := t'.bank c b
  let x := t.core c
  let x' := t'.core c
  match (match regDiff k.gr k'.gr with | some d => some d | none => regDiff x.esc x'.esc) with
  | some (u, v) => some (1, u, v)
  | none =>
    match storeDiff x.sb x'.sb with
    | some d => some d
    | none =>
      match comparedSprs.find? fun n => t.srVal c b n != t'.srVal c b n with
      | some n => some (4, ⟨srTag n, t.srVal c b n⟩, ⟨srTag n, t'.srVal c b n⟩)
      | none =>
        if k.pc != k'.pc then some (5, rawWord k.pc, rawWord k'.pc)
        else
          let item := if t.mem != t'.mem || t.fab != t'.fab || t.bins != t'.bins || t.gc != t'.gc || t.bcasts != t'.bcasts ||
              t.regs != t'.regs then 6
            else if k.st != k'.st || x.run != x'.run || x.frozen != x'.frozen then 7 else 0
          let (u, s) := t.freeVal
          if item == 0 then none else some (item, rawWord u, rawWord s.freeVal.1)

/-- The odd core's TIMEC less the even core's: 0, 1 or -1 (R306). -/
def timecSkew (v : Val) : Val := if !(bit v 0) then 0 else if bit v 1 then 1 else -1

/-- An instruction of bank `b` of the even core `c` of a yoked pair, on both cores: a stall of one stalls both (R297), a
difference halts the pair (R307), with the violation that the even core commits in the same cycle recorded too (R310). -/
def lockstep (s0 : State) (c : Nat) (b : Fin 4) (iw : Nat) (cx : Ctx) (body : Ctx → M Flow) : Host.Outcome State Fault Refusal :=
  let p := pairOf c
  let (v, s) := s0.freeVal
  let o := s.oddView p
  match body cx s, body { cx with skew := timecSkew v } o with
  | .error .stall t, _ => finish s0 c b iw (.error .stall t)
  | .error (.miss q) t, _ => finish s0 c b iw (.error (.miss q) t)
  | _, .error .stall t => finish s0 c b iw (.error .stall t)
  | _, .error (.miss q) t => finish s0 c b iw (.error (.miss q) t)
  | r, r' =>
    match finish s c b iw r, finish o c b iw r' with
    | .next t, .next t' =>
      match compareRuns c b t t' with
      | some (item, x, y) =>
        let freezes := match r with
          | .error (.freeze _ _) _ => true
          | _ => false
        .next ((if freezes then t else s).yokeMismatch p item b x y)
      | none => .next (t.keepOdd p b t')
    | out, _ => out

end Sys2Proof.Machine
end

