-- ==== Sys2Proof/Machine/Issue.lean ====
section
/-! DEFINITION. How an instruction of a core is issued: the boundary before it (R174), the instruction breakpoints (R475),
its fetch (R16, R29, R241, R250), its dispatch entry and reserved fields (R69, R72, R207), and what follows it. -/

namespace Sys2Proof.Machine

namespace State

/-- V and S of a key in the core's copy of the dispatch table (R206, R208); an entry of the vendor image has V and S as
the encoding tables give them, and KIND 3 is treated as V = 0. -/
def dentV (s : State) (c key : Nat) : Bool :=
  match (s.core c).dcopy.find? (·.1 == key) with
  | some (_, v) => bit v 31 && bits v 29 28 != 3
  | none => (assignedFuncs (key / 16)).contains (key % 16)

def dentS (s : State) (c key : Nat) : Bool :=
  match (s.core c).dcopy.find? (·.1 == key) with
  | some (_, v) => bit v 30
  | none => supervisorKey key

/-- The instruction breakpoint that matches, if any (R475). -/
def instrBrk (s : State) (c : Nat) (w : Bool) (pc : Val) : Option Nat :=
  [0, 1, 2, 3].find? fun n =>
    let e := s.reg (dbgBase c + 0x100 + 8 * n)
    bit e 63 && bit e (60 + wn w) && bits e 47 2 == bits pc 47 2

end State

/-- Instruction breakpoints, ahead of the fetch (R475, R476). -/
def instrBreak (cx : Ctx) : M Unit := do
  let s ← get
  if brkOff s cx then pure ()
  else
    match s.instrBrk cx.c cx.w (s.bank cx.c cx.b).pc with
    | some n => brkRaise cx (bit (s.reg (dbgBase cx.c + 0x100 + 8 * n)) 62) n 1 0
    | none => pure ()

/-- The fetch of the instruction at the bank's PC: the half of the CODE word that the PC names (R29, R72). -/
def fetch (cx : Ctx) : M Nat := do
  let pc := (← getBank cx).pc
  let (pa, mt) ← translate cx pc.toNat .fetch
  let s ← get
  faultIf (unassigned s pa) cMCHK (State.mchkTval 1 pa)
  faultIf (mt == .bin || mt == .device) cPAGEPROT pc
  let l ← memLine cx pa mt true
  faultIf l.poison cPOISON pc
  let w := l.word (pa / 8 % 8)
  faultIf (w.tag != 0x16) cILLEGAL pc
  return bits w.val (8 * (pa % 8) + 31) (8 * (pa % 8))

/-- The bank goes on with this instruction after a wait (R194): it is not fetched again. -/
def goesOn (k : Bank) : Option Nat := k.wait.bind (·.iw)

/-- The word fetched is an instruction, the dispatch entry of its key admits it, and it is the command's (R69, R72): the
command of another word changes nothing (DESIGN CHOICE, log entry 3). -/
def dispatch (cx : Ctx) (e : Enc) (n : Nat) : M Unit := do
  modify fun s => s.csCheck cx.c cx.w (12 + cx.c) 2 (keyOf n)
  let s ← get
  if !(s.dentV cx.c (keyOf n)) then throw (.badInsn n)
  if n != e.word then throw .stall
  faultIf e.resv cILLEGAL 0
  faultIf (s.dentS cx.c (keyOf n) && !cx.lvl) cPRIV 0

/-- Everything before an instruction's own operation: breakpoint, fetch, orders 1 and 2 of R74. -/
def prelude (cx : Ctx) (e : Enc) : M Unit := do
  match goesOn (← getBank cx) with
  | some n => if n != e.word then throw .stall
  | none => do
    instrBreak cx
    dispatch cx e (← fetch cx)

/-- What bank `b` of core `c` executes as. -/
def State.ctx (s : State) (c : Nat) (b : Fin 4) : Ctx :=
  { c := c, b := b, w := (s.bank c b).status.wld, lvl := (s.bank c b).status.lvl, sb0 := (s.core c).sb.length }

/-- An instruction from its boundary to its retirement. -/
def insn (cx : Ctx) (e : Enc) (body : Ctx → M Flow) : M Flow := do
  prelude cx e
  byKind cx e.word (body cx)

/-- An instruction of core `c`: it is issued by the Running bank unless an item of R174 is taken first; a core that
issues nothing is left as it is. A yoked pair runs it on both of its cores (R302). -/
def runInstr (s : State) (c : Nat) (e : Enc) (body : Ctx → M Flow) : Host.Outcome State Fault Refusal :=
  match s.issuable c with
  | none => .next s
  | some b =>
    match s.pendingItem c b with
    | some it => .next ((s.takeItem c b it).getD (s.tsbMiss c b))
    | none =>
      if s.pairMode (pairOf c) == 2 then lockstep s c b e.word (s.ctx c b) (fun cx => insn cx e body)
      else finish s c b e.word (insn (s.ctx c b) e body s)

/-- An instruction that writes rd and goes on. -/
def done (cx : Ctx) (rd : Nat) (w : Word) : M Flow := do
  putReg cx rd w
  return .fall

end Sys2Proof.Machine
end

