-- ==== Sys2Proof/Machine/Alu.lean ====
section
/-! DEFINITION. FIX and RAW arithmetic, compares, branches, moves and tags, FLO arithmetic, multiply and divide
(R78-R85). -/

namespace Sys2Proof.Machine

/-- The last operand of a two-form instruction: a register's word with its specifier, or imm12. -/
inductive Op2 where
  | reg (w : Word) (spec : Nat)
  | imm (n : BitVec 12)
deriving DecidableEq, Repr

/-- The encoding of a two-form instruction: the T form's major, the I form's major, func, the immediate bits used. -/
def aEnc (majT majI func : Nat) (f : AForm) (immUsed : Nat) : Enc :=
  match f with
  | .t f => tEnc majT func f true true true 0
  | .i f => iEnc majI func f true true immUsed

/-- Run a two-form instruction whose operation gives the word for rd. -/
def runA (s : State) (c : Nat) (e : Enc) (f : AForm) (op : Ctx → Word → Nat → Op2 → M Word) :
    Host.Outcome State Fault Refusal :=
  runInstr s c e fun cx =>
    match f with
    | .t f => do
      let a ← srcReg cx f.rs1.toNat
      let b ← srcReg cx f.rs2.toNat
      done cx f.rd.toNat (← op cx a f.rs1.toNat (.reg b f.rs2.toNat))
    | .i f => do
      let a ← srcReg cx f.rs1.toNat
      done cx f.rd.toNat (← op cx a f.rs1.toNat (.imm f.imm))

/-- Record an imprecise arithmetic exception (R79). -/
def recordImp (cx : Ctx) (reason : Nat) : M Unit := do
  if (← getBank cx).status.impp then pure ()
  else modB cx fun k =>
    { k with status := { k.status with impp := true }, aepc := k.pc, impReason := reason, impCount := 0 }

/-- `arith(reason, w)` of R79; reason 0 raises nothing. -/
def arith (cx : Ctx) (reason : Nat) (w : Word) : M Word := do
  if reason == 0 then return w
  else
    let k ← getBank cx
    if k.status.p then fault cARITH (v64 reason)
    else
      recordImp cx reason
      return w

/-- A FIX operand that is a register or sext(imm12). -/
def fixOp : Op2 → M Val
  | .reg w spec => do want (isF w) spec; return w.val
  | .imm n => return simm n

/-- ADD.F and SUB.F of two integers. -/
def fixArith (cx : Ctx) (a : Word) (sa : Nat) (b : Op2) (op : Int → Int → Int) : M Word := do
  want (isF a) sa
  let y ← fixOp b
  let r := op a.val.toInt y.toInt
  arith cx (if inFix r then 0 else fixOverflow) (fixWord (i64 r))

def execAddF (c : Fin 96) (f : AForm) (s : State) : Host.Outcome State Fault Refusal :=
  runA s c (aEnc 0x01 0x02 0 f 12) f fun cx a sa b => fixArith cx a sa b (· + ·)

def execSubF (c : Fin 96) (f : AForm) (s : State) : Host.Outcome State Fault Refusal :=
  runA s c (aEnc 0x01 0x02 1 f 12) f fun cx a sa b => fixArith cx a sa b (· - ·)

/-- ADD.R and SUB.R. -/
def rawArith (a : Word) (sa : Nat) (b : Op2) (op : Val → Val → Val) : M Word := do
  want (isRw a) sa
  match b with
  | .reg w spec => do want (isRw w) spec; return rawWord (op a.val w.val)
  | .imm n => return rawWord (op a.val (simm n))

def execAddR (c : Fin 96) (f : AForm) (s : State) : Host.Outcome State Fault Refusal :=
  runA s c (aEnc 0x01 0x02 2 f 12) f fun _ a sa b => rawArith a sa b (· + ·)

def execSubR (c : Fin 96) (f : AForm) (s : State) : Host.Outcome State Fault Refusal :=
  runA s c (aEnc 0x01 0x02 3 f 12) f fun _ a sa b => rawArith a sa b (· - ·)

/-- AND, OR, XOR, ANDN: rs2 carries the tag of rs1. -/
def logic (a : Word) (sa : Nat) (b : Op2) (op : Val → Val → Val) : M Word := do
  want (isFR a) sa
  match b with
  | .reg w spec => do want (w.tag == a.tag) spec; return ⟨a.tag, op a.val w.val⟩
  | .imm n => return ⟨a.tag, op a.val (zimm n)⟩

def execAnd (c : Fin 96) (f : AForm) (s : State) : Host.Outcome State Fault Refusal :=
  runA s c (aEnc 0x01 0x02 4 f 12) f fun _ a sa b => logic a sa b (· &&& ·)

def execOr (c : Fin 96) (f : AForm) (s : State) : Host.Outcome State Fault Refusal :=
  runA s c (aEnc 0x01 0x02 5 f 12) f fun _ a sa b => logic a sa b (· ||| ·)

def execXor (c : Fin 96) (f : AForm) (s : State) : Host.Outcome State Fault Refusal :=
  runA s c (aEnc 0x01 0x02 6 f 12) f fun _ a sa b => logic a sa b (· ^^^ ·)

def execAndn (c : Fin 96) (f : AForm) (s : State) : Host.Outcome State Fault Refusal :=
  runA s c (aEnc 0x01 0x02 7 f 12) f fun _ a sa b => logic a sa b (fun x y => x &&& ~~~y)

/-- SLL, SRL, SRA: the count is bits [5:0] of the last operand. -/
def shift (a : Word) (sa : Nat) (b : Op2) (op : Val → Nat → Val) : M Word := do
  want (isFR a) sa
  match b with
  | .reg w spec => do want (isFR w) spec; return ⟨a.tag, op a.val (bits w.val 5 0)⟩
  | .imm n => return ⟨a.tag, op a.val (n.toNat % 64)⟩

def execSll (c : Fin 96) (f : AForm) (s : State) : Host.Outcome State Fault Refusal :=
  runA s c (aEnc 0x01 0x02 8 f 6) f fun _ a sa b => shift a sa b (· <<< ·)

def execSrl (c : Fin 96) (f : AForm) (s : State) : Host.Outcome State Fault Refusal :=
  runA s c (aEnc 0x01 0x02 9 f 6) f fun _ a sa b => shift a sa b (· >>> ·)

def execSra (c : Fin 96) (f : AForm) (s : State) : Host.Outcome State Fault Refusal :=
  runA s c (aEnc 0x01 0x02 10 f 6) f fun _ a sa b => shift a sa b (fun x n => x.sshiftRight n)

/-- The last operand of CMP.EQ and CMP.NE, of class any: a FUTURE there is compared as any other word (R73; DESIGN CHOICE, log
entry 129). -/
def anyOp : Op2 → Word
  | .reg w _ => w
  | .imm n => fixWord (simm n)

def execCmpEq (c : Fin 96) (f : AForm) (s : State) : Host.Outcome State Fault Refusal :=
  runA s c (aEnc 0x04 0x05 0 f 12) f fun _ a _ b => return boolWord (identical a (anyOp b))

def execCmpNe (c : Fin 96) (f : AForm) (s : State) : Host.Outcome State Fault Refusal :=
  runA s c (aEnc 0x04 0x05 1 f 12) f fun _ a _ b => return boolWord (!(identical a (anyOp b)))

/-- CMP.LT and CMP.LE. -/
def cmpSigned (a : Word) (sa : Nat) (b : Op2) (op : Int → Int → Bool) : M Word := do
  want (isF a) sa
  let y ← fixOp b
  return boolWord (op a.val.toInt y.toInt)

def execCmpLt (c : Fin 96) (f : AForm) (s : State) : Host.Outcome State Fault Refusal :=
  runA s c (aEnc 0x04 0x05 2 f 12) f fun _ a sa b => cmpSigned a sa b (fun x y => decide (x < y))

def execCmpLe (c : Fin 96) (f : AForm) (s : State) : Host.Outcome State Fault Refusal :=
  runA s c (aEnc 0x04 0x05 3 f 12) f fun _ a sa b => cmpSigned a sa b (fun x y => decide (x ≤ y))

/-- CMP.LTU and CMP.LEU. -/
def cmpUnsigned (a : Word) (sa : Nat) (b : Op2) (op : Nat → Nat → Bool) : M Word := do
  want (isFR a) sa
  match b with
  | .reg w spec => do want (isFR w) spec; return boolWord (op a.val.toNat w.val.toNat)
  | .imm n => return boolWord (op a.val.toNat n.toNat)

def execCmpLtu (c : Fin 96) (f : AForm) (s : State) : Host.Outcome State Fault Refusal :=
  runA s c (aEnc 0x04 0x05 4 f 12) f fun _ a sa b => cmpUnsigned a sa b (fun x y => decide (x < y))

def execCmpLeu (c : Fin 96) (f : AForm) (s : State) : Host.Outcome State Fault Refusal :=
  runA s c (aEnc 0x04 0x05 5 f 12) f fun _ a sa b => cmpUnsigned a sa b (fun x y => decide (x ≤ y))

def execCmpTy (c : Fin 96) (f : IForm) (s : State) : Host.Outcome State Fault Refusal :=
  runInstr s c (iEnc 0x05 6 f true true 6) fun cx => do
    let a ← srcReg cx f.rs1.toNat
    done cx f.rd.toNat (boolWord (a.type == f.imm.toNat % 64))

/-- A FLO compare (R81). -/
def runCmpF (s : State) (c : Nat) (func : Nat) (f : TForm) (op : Val → Val → Bool) : Host.Outcome State Fault Refusal :=
  runInstr s c (tEnc 0x04 func f true true true 0) fun cx => do
    let a ← srcReg cx f.rs1.toNat
    let b ← srcReg cx f.rs2.toNat
    want (isFL a) f.rs1.toNat
    want (isFL b) f.rs2.toNat
    done cx f.rd.toNat (boolWord (op a.val b.val))

def execCmpFeq (c : Fin 96) (f : TForm) (s : State) : Host.Outcome State Fault Refusal := runCmpF s c 8 f flEq
def execCmpFlt (c : Fin 96) (f : TForm) (s : State) : Host.Outcome State Fault Refusal := runCmpF s c 9 f flLt
def execCmpFle (c : Fin 96) (f : TForm) (s : State) : Host.Outcome State Fault Refusal := runCmpF s c 10 f flLe
def execCmpFun (c : Fin 96) (f : TForm) (s : State) : Host.Outcome State Fault Refusal := runCmpF s c 11 f flUn

/-- A FLO operation on two operands (R80). -/
def runFl2 (s : State) (c : Nat) (func : Nat) (f : TForm) (op : Val → Val → FlRes) : Host.Outcome State Fault Refusal :=
  runInstr s c (tEnc 0x03 func f true true true 0) fun cx => do
    let a ← srcReg cx f.rs1.toNat
    let b ← srcReg cx f.rs2.toNat
    want (isFL a) f.rs1.toNat
    want (isFL b) f.rs2.toNat
    let r := op a.val b.val
    done cx f.rd.toNat (← arith cx r.why (floWord r.v))

/-- A FLO operation on one operand of a class (R80). -/
def runFl1 (s : State) (c : Nat) (func : Nat) (f : TForm) (cls : Word → Bool) (op : Val → Word × Nat) :
    Host.Outcome State Fault Refusal :=
  runInstr s c (tEnc 0x03 func f true true false 0) fun cx => do
    let a ← srcReg cx f.rs1.toNat
    want (cls a) f.rs1.toNat
    let r := op a.val
    done cx f.rd.toNat (← arith cx r.2 r.1)

def execAddFl (c : Fin 96) (f : TForm) (s : State) : Host.Outcome State Fault Refusal := runFl2 s c 0 f flAdd
def execSubFl (c : Fin 96) (f : TForm) (s : State) : Host.Outcome State Fault Refusal := runFl2 s c 1 f flSub
def execMulFl (c : Fin 96) (f : TForm) (s : State) : Host.Outcome State Fault Refusal := runFl2 s c 2 f flMul
def execDivFl (c : Fin 96) (f : TForm) (s : State) : Host.Outcome State Fault Refusal := runFl2 s c 3 f flDiv

def execSqrtFl (c : Fin 96) (f : TForm) (s : State) : Host.Outcome State Fault Refusal :=
  runFl1 s c 4 f isFL fun v => (floWord (flSqrt v).v, (flSqrt v).why)

def execNegFl (c : Fin 96) (f : TForm) (s : State) : Host.Outcome State Fault Refusal :=
  runFl1 s c 5 f isFL fun v => (floWord (flNeg v), 0)

def execAbsFl (c : Fin 96) (f : TForm) (s : State) : Host.Outcome State Fault Refusal :=
  runFl1 s c 6 f isFL fun v => (floWord (flAbs v), 0)

def execCvtFl (c : Fin 96) (f : TForm) (s : State) : Host.Outcome State Fault Refusal :=
  runFl1 s c 7 f isF fun v => (floWord (flOfFix v), 0)

def execCvtFx (c : Fin 96) (f : TForm) (s : State) : Host.Outcome State Fault Refusal :=
  runFl1 s c 8 f isFL fun v =>
    match flToFix v with
    | some x => (fixWord x, 0)
    | none => (fixWord 0x8000000000000000, flInvalid)

/-- A branch (R82): `use` when rs is read, its class, and when it is taken. -/
def runBranch (s : State) (c : Nat) (func : Nat) (f : BForm) (use : Bool) (cls : Word → Bool) (taken : Word → Bool) :
    Host.Outcome State Fault Refusal :=
  runInstr s c (bEnc 0x10 func f use) fun cx => do
    let w ← if use then srcReg cx f.rs.toNat else pure nilWord
    want (cls w) f.rs.toNat
    let pc := (← getBank cx).pc
    return if taken w then .jump (pcOf (pc + (f.disp.signExtend 64) * 4)) else .fall

def execBa (c : Fin 96) (f : BForm) (s : State) : Host.Outcome State Fault Refusal :=
  runBranch s c 0 f false (fun _ => true) fun _ => true

def execBnil (c : Fin 96) (f : BForm) (s : State) : Host.Outcome State Fault Refusal :=
  runBranch s c 1 f true (fun _ => true) fun w => w.type == tyNIL

def execBnn (c : Fin 96) (f : BForm) (s : State) : Host.Outcome State Fault Refusal :=
  runBranch s c 2 f true (fun _ => true) fun w => w.type != tyNIL

def execBz (c : Fin 96) (f : BForm) (s : State) : Host.Outcome State Fault Refusal :=
  runBranch s c 3 f true isFR fun w => w.val == 0

def execBnz (c : Fin 96) (f : BForm) (s : State) : Host.Outcome State Fault Refusal :=
  runBranch s c 4 f true isFR fun w => w.val != 0

def execBltz (c : Fin 96) (f : BForm) (s : State) : Host.Outcome State Fault Refusal :=
  runBranch s c 5 f true isF fun w => decide (w.val.toInt < 0)

def execBgez (c : Fin 96) (f : BForm) (s : State) : Host.Outcome State Fault Refusal :=
  runBranch s c 6 f true isF fun w => decide (0 ≤ w.val.toInt)

def execMov (c : Fin 96) (f : TForm) (s : State) : Host.Outcome State Fault Refusal :=
  runInstr s c (tEnc 0x06 0 f true true false 0) fun cx => do
    done cx f.rd.toNat (← srcReg cx f.rs1.toNat)

def execMovi (c : Fin 96) (f : IForm) (s : State) : Host.Outcome State Fault Refusal :=
  runInstr s c (iEnc 0x06 8 f true false 12) fun cx => done cx f.rd.toNat (fixWord (simm f.imm))

def execTagof (c : Fin 96) (f : TForm) (s : State) : Host.Outcome State Fault Refusal :=
  runInstr s c (tEnc 0x06 2 f true true false 0) fun cx => do
    let w ← getReg cx f.rs1.toNat
    done cx f.rd.toNat (fixWord (w.tag.setWidth 64))

/-- USET of an Allotment immediate type (R223). -/
def State.userSet (s : State) (t : Nat) : Bool :=
  decide (0x20 ≤ t) && s.atClass t == 1 && bit (s.reg (rTATTR t)) 31

/-- The retagging of R33: `w` in register `spec` takes tag byte `t`. -/
def settag (cx : Ctx) (w : Word) (spec : Nat) (t : BitVec 8) : M Word := do
  let s ← get
  let r : Word := ⟨t, w.val⟩
  faultIf (s.reservedType r.type) cTAGRES (regTval spec)
  faultIf (r.type == tyFORWARD || s.malformed r) cTYPE (regTval spec)
  let ok := cx.lvl ||
    (if s.isImmType w.type then s.isImmType r.type && !r.imm && !r.weak && (decide (r.type < 0x20) || s.userSet r.type)
     else if s.isPtr w.type || w.type == tyREMOTE then r.type == w.type && (r.imm || !w.imm)
     else false)
  faultIf (!ok) cPRIV 0
  return r

def execSettag (c : Fin 96) (f : IForm) (s : State) : Host.Outcome State Fault Refusal :=
  runInstr s c (iEnc 0x06 9 f true true 8) fun cx => do
    let w ← srcReg cx f.rs1.toNat
    done cx f.rd.toNat (← settag cx w f.rs1.toNat (f.imm.setWidth 8))

def execSettagR (c : Fin 96) (f : TForm) (s : State) : Host.Outcome State Fault Refusal :=
  runInstr s c (tEnc 0x06 1 f true true true 0) fun cx => do
    let w ← srcReg cx f.rs1.toNat
    let t ← srcReg cx f.rs2.toNat
    want (isF t) f.rs2.toNat
    done cx f.rd.toNat (← settag cx w f.rs1.toNat (t.val.setWidth 8))

/-- MUL and DIV (R60, R61, R84): the results wait to be written. -/
def runMulDiv (s : State) (c : Nat) (func : Nat) (f : TForm) (div : Bool) (op : Val → Val → Val × Val) :
    Host.Outcome State Fault Refusal :=
  runInstr s c (tEnc 0x07 func f false true true 0) fun cx => do
    let a ← srcReg cx f.rs1.toNat
    let b ← srcReg cx f.rs2.toNat
    want (isFR a) f.rs1.toNat
    want (isFR b) f.rs2.toNat
    faultIf (div && b.val == 0) cARITH (v64 intDivzero)
    let r := op a.val b.val
    let now := (← get).cycle
    modB cx fun k => { k with pend := k.pend ++ [⟨div, r.1, r.2, now + (if div then 20 else 4)⟩] }
    return .fall

def execMulS (c : Fin 96) (f : TForm) (s : State) : Host.Outcome State Fault Refusal :=
  runMulDiv s c 0 f false fun x y =>
    let p := x.toInt * y.toInt
    (i64 (p / 2 ^ 64), i64 p)

def execMulU (c : Fin 96) (f : TForm) (s : State) : Host.Outcome State Fault Refusal :=
  runMulDiv s c 1 f false fun x y =>
    let p := x.toNat * y.toNat
    (v64 (p / 2 ^ 64), v64 p)

def execDivS (c : Fin 96) (f : TForm) (s : State) : Host.Outcome State Fault Refusal :=
  runMulDiv s c 2 f true fun x y => (i64 (x.toInt.tdiv y.toInt), i64 (x.toInt.tmod y.toInt))

def execDivU (c : Fin 96) (f : TForm) (s : State) : Host.Outcome State Fault Refusal :=
  runMulDiv s c 3 f true fun x y => (x / y, x % y)

/-- The results of a bank whose cycle has come are written, each pair's in issue order (R61); before that nothing
happens. -/
def execMuldivResultWrite (c : Fin 96) (b : Fin 4) (s : State) : Host.Outcome State Fault Refusal :=
  .next (s.settleMD c b)

end Sys2Proof.Machine
end

