-- ==== Sys2Proof/Machine/MemInstr.lean ====
section
/-! DEFINITION. Loads, stores, multiple transfers, prefetch, save areas (R86-R92, R104, R204) and the atomic instructions
(R93, R94, R242, R243). -/

namespace Sys2Proof.Machine

/-- The effective address of a base and a displacement (R87). -/
def eaOf (base : Word) (disp : Val) (size : Nat) : Val := base.val + disp * v64 size

def execLdW (c : Fin 96) (f : MForm) (s : State) : Host.Outcome State Fault Refusal :=
  runInstr s c (mEnc 0x08 0 f true) fun cx => do
    let a ← srcReg cx f.base.toNat
    let a ← addrOp cx f.base.toNat a true
    if a.type == tyREMOTE then
      done cx f.r.toNat (← remoteFuture cx pRLOAD a (fixWord (simm f.disp)) [])
    else done cx f.r.toNat (← loadWord cx (eaOf a (simm f.disp) 8) mtAny false)

/-- A sub-word load (R89). -/
def runLoadSub (s : State) (c func : Nat) (f : MForm) (size : Nat) (signed : Bool) : Host.Outcome State Fault Refusal :=
  runInstr s c (mEnc 0x08 func f true) fun cx => do
    let a ← srcReg cx f.base.toNat
    let a ← addrOp cx f.base.toNat a false
    done cx f.r.toNat (← loadSub cx (eaOf a (simm f.disp) size) size signed)

def execLdB (c : Fin 96) (f : MForm) (s : State) : Host.Outcome State Fault Refusal := runLoadSub s c 1 f 1 true
def execLdBu (c : Fin 96) (f : MForm) (s : State) : Host.Outcome State Fault Refusal := runLoadSub s c 2 f 1 false
def execLdH (c : Fin 96) (f : MForm) (s : State) : Host.Outcome State Fault Refusal := runLoadSub s c 3 f 2 true
def execLdHu (c : Fin 96) (f : MForm) (s : State) : Host.Outcome State Fault Refusal := runLoadSub s c 4 f 2 false
def execLdS (c : Fin 96) (f : MForm) (s : State) : Host.Outcome State Fault Refusal := runLoadSub s c 5 f 4 true
def execLdSu (c : Fin 96) (f : MForm) (s : State) : Host.Outcome State Fault Refusal := runLoadSub s c 6 f 4 false

/-- Order 4 of a whole-word store: the I check of R21 and the HEADER check of R34. -/
def storeChecks (cx : Ctx) (a : Word) (sa : Nat) (v : Word) (sv : Nat) : M Unit := do
  want (!a.imm) sa
  want (cx.lvl || v.type != tyHEADER) sv

def execStW (c : Fin 96) (f : MForm) (s : State) : Host.Outcome State Fault Refusal :=
  runInstr s c (mEnc 0x09 0 f true) fun cx => do
    let a ← srcReg cx f.base.toNat
    let v ← srcReg cx f.r.toNat
    let a ← addrOp cx f.base.toNat a true
    storeChecks cx a f.base.toNat v f.r.toNat
    if a.type == tyREMOTE then
      wantRemotable v f.r.toNat
      remotePosted cx a (fixWord (simm f.disp)) v
    else storeWord cx (eaOf a (simm f.disp) 8) v mtAny false true f.r.toNat
    return .fall

/-- A sub-word store (R90). -/
def runStoreSub (s : State) (c func : Nat) (f : MForm) (size : Nat) : Host.Outcome State Fault Refusal :=
  runInstr s c (mEnc 0x09 func f true) fun cx => do
    let a ← srcReg cx f.base.toNat
    let v ← srcReg cx f.r.toNat
    let a ← addrOp cx f.base.toNat a false
    want (!a.imm) f.base.toNat
    want (isFR v) f.r.toNat
    storeSub cx (eaOf a (simm f.disp) size) v.val size
    return .fall

def execStB (c : Fin 96) (f : MForm) (s : State) : Host.Outcome State Fault Refusal := runStoreSub s c 1 f 1
def execStH (c : Fin 96) (f : MForm) (s : State) : Host.Outcome State Fault Refusal := runStoreSub s c 2 f 2
def execStS (c : Fin 96) (f : MForm) (s : State) : Host.Outcome State Fault Refusal := runStoreSub s c 3 f 4

/-- The specifiers that a mask selects, in ascending order (R91). -/
def maskSpecs (v : Val) : List Nat := (List.range 32).filter fun i => bit v i

/-- The register of specifier `i` under a window offset (R52, R181). -/
def xferLoc (cx : Ctx) (wo i : Nat) : M RLoc := do
  let s ← get
  return maskLoc (s.core cx.c).inEsc (s.bank cx.c cx.b).status.cwp.toNat wo i

/-- Store the selected registers upward from an address. -/
def stmGo (cx : Ctx) (wo : Nat) : List Nat → Val → M Unit
  | [], _ => pure ()
  | i :: r, ea => do
    let l ← xferLoc cx wo i
    let w := (← get).opLoc cx.c cx.b l
    storeWord cx ea w mtNoDev false true i
    stmGo cx wo r (ea + 8)

/-- Load the selected registers upward from an address. -/
def ldmGo (cx : Ctx) (wo : Nat) : List Nat → Val → M Unit
  | [], _ => pure ()
  | i :: r, ea => do
    let w ← loadWord cx ea mtNoDev true
    let l ← xferLoc cx wo i
    modify fun s => s.wrLoc cx.c cx.b l w
    ldmGo cx wo r (ea + 8)

/-- The operands of STM and LDM: the mask and the base, tested in this order (DESIGN CHOICE, log entry 126). -/
def multOperands (cx : Ctx) (f : MForm) : M (Word × Word) := do
  faultIf (woOf f.disp != 0 && !cx.lvl) cPRIV 0
  let a ← srcReg cx f.base.toNat
  let m ← srcReg cx f.r.toNat
  want (isFR m) f.r.toNat
  let a ← addrOp cx f.base.toNat a false
  return (m, a)

def execStm (c : Fin 96) (f : MForm) (s : State) : Host.Outcome State Fault Refusal :=
  runInstr s c (mEnc 0x0A 0 f true) fun cx => do
    let (m, a) ← multOperands cx f
    want (!a.imm) f.base.toNat
    let specs := maskSpecs m.val
    sbRoom cx specs.length
    touchPages cx (eaOf a (disp9 f.disp) 8) specs.length mtNoDev
    stmGo cx (woOf f.disp) specs (eaOf a (disp9 f.disp) 8)
    return .fall

def execLdm (c : Fin 96) (f : MForm) (s : State) : Host.Outcome State Fault Refusal :=
  runInstr s c (mEnc 0x0A 1 f true) fun cx => do
    let (m, a) ← multOperands cx f
    let specs := maskSpecs m.val
    let s ← get
    let lb := s.loc cx.c cx.b f.base.toNat
    let lm := s.loc cx.c cx.b f.r.toNat
    let k := s.bank cx.c cx.b
    faultIf (specs.any fun i =>
      let l := maskLoc (s.core cx.c).inEsc k.status.cwp.toNat (woOf f.disp) i
      l == lb || l == lm) cILLEGAL 0
    ldmGo cx (woOf f.disp) specs (eaOf a (disp9 f.disp) 8)
    return .fall

/-- A granule goes to the L2 and the prefetch side buffer; a poisoned one does not, but the errors met in reading it
stand (R92, R168, R269, R291). -/
def State.prefetch (s : State) (c : Nat) (w : Bool) (pa : Nat) : State :=
  let g := pa / 64
  if s.fenceOwner pa != wn w then s
  else
    match s.cohRead c w g with
    | .ok (l, s') =>
      if l.poison then s'
      else s'.modCore c fun x =>
        let side := x.side.filter (·.gran != g) ++ [{ gran := g, world := w }]
        { x with side := side.drop (side.length - 8) }
    | .error _ => s

/-- What PREF does for an address, when nothing stops it: the granule that holds `ea`, aligned or not (DESIGN CHOICE, log
entry 131). -/
def prefTo (cx : Ctx) (ea : Val) : M Unit := do
  let (pa, mt) ← access cx (ea &&& ~~~63) 8 .read mtC
  let _ := mt
  modify fun s => s.prefetch cx.c cx.w pa

def execPref (c : Fin 96) (f : MForm) (s : State) : Host.Outcome State Fault Refusal :=
  runInstr s c (mEnc 0x0B 0 f false) fun cx => do
    let a ← getReg cx f.base.toNat
    let s ← get
    if (s.badWord a).isSome then return .fall
    else
      let a ← if a.type == tyFUTURE then
          (if (s.ott (bits a.val 16 0)).busy then future cx a
           else match (s.ott (bits a.val 16 0)).res with
             | .word r => pure r
             | _ => pure nilWord)
        else pure a
      if s.isPtr a.type || isRw a then
        match (prefTo cx (eaOf a (simm f.disp) 8)).run s with
        | .ok _ s' => set s'
        | .error _ s' => set s'
      return .fall

def execHardwarePrefetch (c : Fin 96) (g : BitVec 34) (s : State) : Host.Outcome State Fault Refusal :=
  match s.issuable c with
  | some b => .next (if s.inDram (64 * g.toNat) then s.prefetch c (s.bank c b).status.wld (64 * g.toNat) else s)
  | none => .next s

def execLdrv (c : Fin 96) (f : MForm) (s : State) : Host.Outcome State Fault Refusal :=
  runInstr s c (mEnc 0x0C 0 f true) fun cx => do
    let a ← srcReg cx f.base.toNat
    let a ← addrOp cx f.base.toNat a false
    let ea := eaOf a (simm f.disp) 8
    let (pa, _) ← access cx ea 8 .write mtC
    if ((← get).core cx.c).sb.any (fun e => e.pa / 64 == pa / 64) then throw .stall
    let (pa, w) ← atomicRead cx ea
    dataBrk cx ea.toNat true true w.tag
    modB cx fun k => { k with resv := some (pa / 64), resvCy := 0 }
    done cx f.r.toNat w

def execReservationTimeout (c : Fin 96) (b : Fin 4) (s : State) : Host.Outcome State Fault Refusal :=
  .next (s.modBank c b fun k => if k.resv.isSome then { k with resvCy := 1 } else k)

def execStcn (c : Fin 96) (f : TForm) (s : State) : Host.Outcome State Fault Refusal :=
  runInstr s c (tEnc 0x0C 1 f true true true 0) fun cx => do
    let a ← srcReg cx f.rs1.toNat
    let v ← srcReg cx f.rs2.toNat
    let a ← addrOp cx f.rs1.toNat a false
    storeChecks cx a f.rs1.toNat v f.rs2.toNat
    ownStoresDone cx
    let (pa, mt) ← access cx a.val 8 .write mtC
    let k ← getBank cx
    storePoison cx a.val pa mt
    if k.resv == some (pa / 64) then
      dataBrk cx a.val.toNat false true v.tag
      let old ← lineOwn cx a.val pa
      atomicWrite cx a.val pa old v
      modB cx fun k => { k with resv := none }
      done cx f.rd.toNat trueWord
    else
      dataBrk cx a.val.toNat false true v.tag
      modB cx fun k => { k with resv := none }
      modify fun s => s.countEvent cx.c 17 1
      done cx f.rd.toNat nilWord

/-- The address operand of CAS, SWAP and FADD with the store checks. -/
def atomicOperands (cx : Ctx) (f : TForm) : M (Word × Word) := do
  let a ← srcReg cx f.rs1.toNat
  let v ← srcReg cx f.rs2.toNat
  let a ← addrOp cx f.rs1.toNat a true
  storeChecks cx a f.rs1.toNat v f.rs2.toNat
  return (a, v)

def execCas (c : Fin 96) (f : TForm) (s : State) : Host.Outcome State Fault Refusal :=
  runInstr s c (tEnc 0x0C 2 f true true true 0) fun cx => do
    let x ← srcReg cx f.rd.toNat
    let (a, v) ← atomicOperands cx f
    if a.type == tyREMOTE then
      wantRemotable x f.rd.toNat
      wantRemotable v f.rs2.toNat
      done cx f.rd.toNat (← remoteFuture cx pRCAS a (fixWord 0) [x, v])
    else
      ownStoresDone cx
      let (pa, old) ← atomicRead cx a.val
      dataBrk cx a.val.toNat true false old.tag
      dataBrk cx a.val.toNat false true v.tag
      if old == x then atomicWrite cx a.val pa old v
      done cx f.rd.toNat old

def execSwap (c : Fin 96) (f : TForm) (s : State) : Host.Outcome State Fault Refusal :=
  runInstr s c (tEnc 0x0C 3 f true true true 0) fun cx => do
    let (a, v) ← atomicOperands cx f
    if a.type == tyREMOTE then
      wantRemotable v f.rs2.toNat
      done cx f.rd.toNat (← remoteFuture cx pRSWAP a (fixWord 0) [v])
    else
      ownStoresDone cx
      let (pa, old) ← atomicRead cx a.val
      dataBrk cx a.val.toNat true false old.tag
      dataBrk cx a.val.toNat false true v.tag
      atomicWrite cx a.val pa old v
      done cx f.rd.toNat old

def execFadd (c : Fin 96) (f : TForm) (s : State) : Host.Outcome State Fault Refusal :=
  runInstr s c (tEnc 0x0C 4 f true true true 0) fun cx => do
    let (a, v) ← atomicOperands cx f
    want (isF v) f.rs2.toNat
    if a.type == tyREMOTE then
      done cx f.rd.toNat (← remoteFuture cx pRFADD a (fixWord 0) [v])
    else
      ownStoresDone cx
      let (pa, old) ← atomicRead cx a.val
      faultIf (!(isF old)) cTYPE a.val
      let sum := old.val.toInt + v.val.toInt
      dataBrk cx a.val.toNat true false old.tag
      dataBrk cx a.val.toNat false true 0x01
      faultIf (!(inFix sum)) cARITH (v64 fixOverflow)
      atomicWrite cx a.val pa old (fixWord (i64 sum))
      done cx f.rd.toNat old

/-- The registers of a half of a save area (R204): 0 the upper half, 1 the lower. -/
def halfSpecs (h : Nat) : List Nat := (List.range 16).map fun i => if h == 0 then 16 + i else i

/-- Encoding of SAVEH and LOADH: [25:21] and disp9 reserved, a half of 0 or 1. -/
def saveEnc (func : Nat) (f : MForm) : Enc :=
  ⟨encM 0x16 func f, f.r != 0 || f.disp.toNat % 512 != 0 || decide (1 < woOf f.disp)⟩

def execSaveh (c : Fin 96) (f : MForm) (s : State) : Host.Outcome State Fault Refusal :=
  runInstr s c (saveEnc 0 f) fun cx => do
    let b ← srcReg cx f.base.toNat
    want (isRw b) f.base.toNat
    faultIf (b.val.toNat % 32 != 0) cALIGN b.val
    let n ← loadWord cx b.val mtNoDev false
    faultIf (!(isRw n)) cTYPE b.val
    sbRoom cx 17
    touchPages cx (b.val + 0x10) 17 mtNoDev
    stmGo cx 0 (halfSpecs (woOf f.disp)) (b.val + 0x18)
    let k ← getBank cx
    storeWord cx (b.val + 0x10) (rawWord (v64 (16 * woOf f.disp + k.status.cwp.toNat))) mtNoDev false true f.base.toNat
    done cx f.base.toNat (rawWord n.val)

def execLoadh (c : Fin 96) (f : MForm) (s : State) : Host.Outcome State Fault Refusal :=
  runInstr s c (saveEnc 1 f) fun cx => do
    let s ← get
    let h := woOf f.disp
    let lb := s.loc cx.c cx.b f.base.toNat
    faultIf ((halfSpecs h).any fun i => s.loc cx.c cx.b i == lb) cILLEGAL 0
    let b ← srcReg cx f.base.toNat
    want (isRw b) f.base.toNat
    let p ← loadWord cx (b.val + 8) mtNoDev false
    faultIf (!(isRw p)) cTYPE (b.val + 8)
    faultIf (p.val.toNat % 32 != 0) cALIGN p.val
    let d ← loadWord cx (p.val + 0x10) mtNoDev false
    faultIf (!(isRw d) || bits d.val 4 4 != h) cTYPE (p.val + 0x10)
    ldmGo cx 0 (halfSpecs h) (p.val + 0x18)
    done cx f.base.toNat (rawWord p.val)

end Sys2Proof.Machine
end

