-- ==== Sys2Proof/Machine/ControlFlow.lean ====
section
/-! DEFINITION. Calls, returns, gates, return from exception, windows (R49, R95-R97, R118, R182-R187), special and bank
registers (R98, R200, R201), the scan and flip of a bank's registers (R144, R156). -/

namespace Sys2Proof.Machine

/-- word(RETLINK, CWP × 2^48 + address + 4). -/
def retlink (k : Bank) : Word := mkWord tyRETLINK (v64 (fld 48 k.status.cwp.toNat + (pcOf (k.pc + 4)).toNat))

/-- The SAVE check of R49. -/
def saveCheck (cx : Ctx) : M Unit := do
  let k ← getBank cx
  faultIf (k.status.cwp == k.twp || k.status.cwp + 1 == k.twp) cWOVF 0

/-- The RESTORE check of R49. -/
def restoreCheck (cx : Ctx) : M Unit := do
  let k ← getBank cx
  faultIf (k.status.cwp - 1 == k.twp) cWUNF 0

/-- Set CWP. -/
def setCwp (cx : Ctx) (w : BitVec 3) : M Unit := modB cx fun k => { k with status := { k.status with cwp := w } }

def execCall (c : Fin 96) (f : BForm) (s : State) : Host.Outcome State Fault Refusal :=
  runInstr s c (bEnc 0x11 0 f false) fun cx => do
    let k ← getBank cx
    putReg cx 15 (retlink k)
    return .jump (pcOf (k.pc + (f.disp.signExtend 64) * 4))

def execJmpl (c : Fin 96) (f : TForm) (s : State) : Host.Outcome State Fault Refusal :=
  runInstr s c (tEnc 0x12 0 f (f.ext.getLsbD 0) true false 1) fun cx => do
    let a ← srcReg cx f.rs1.toNat
    want (a.type == tyCODE || isRw a) f.rs1.toNat
    let t := if a.type == tyCODE then a.val + 16 else a.val
    faultIf (bits t 63 48 != 0) cPAGENP t
    faultIf (bits t 1 0 != 0) cALIGN t
    let k ← getBank cx
    if f.ext.getLsbD 0 then putReg cx f.rd.toNat (retlink k)
    return .jump t

def execRet (c : Fin 96) (f : TForm) (s : State) : Host.Outcome State Fault Refusal :=
  runInstr s c (tEnc 0x12 1 f false true false 0) fun cx => do
    let a ← srcReg cx f.rs1.toNat
    want (a.type == tyRETLINK) f.rs1.toNat
    let k ← getBank cx
    let w := BitVec.ofNat 3 (bits a.val 50 48)
    if w == k.status.cwp - 1 then
      restoreCheck cx
      setCwp cx w
      return .jump (pcOf a.val)
    else if w == k.status.cwp then return .jump (pcOf a.val)
    else fault cTYPE (regTval f.rs1.toNat)

/-- The physical registers of a window: in, lc, out (R46). -/
def windowRegs (w : Nat) : List Nat := (List.range 24).map fun i => specIx w (8 + i)

/-- The clearing of R183 for a bank whose window was `old`: `lc` and `out` registers of that window that belong to no
window that is current or resident now become word(NIL, 0). -/
def clearUser (k : Bank) (old : BitVec 3) : Bank :=
  let n := (k.status.cwp - k.twp).toNat
  let wins := k.status.cwp.toNat :: (List.range n).map fun i => (k.twp.toNat + 1 + i) % 8
  let live := wins.flatMap windowRegs
  let cand := (List.range 16).map fun i => specIx old.toNat (8 + i)
  { k with gr := cand.foldl (fun g i => if live.contains i then g else Tbl.set nilWord g i nilWord) k.gr }

/-- A read of a word at a physical address by core `cx.c` in its world: the TSB accesses of RFE and CALLG (R172). Like
every load it meets the older stores of its core's buffer first (R233). -/
def tsbRead (cx : Ctx) (pa : Nat) : M Word := do
  let s ← get
  if s.fenceOwner pa != wn cx.w then throw (.freeze vFENCETSB (v64 pa))
  let es := sbFor s cx.c pa
  if es.any (·.bank != cx.b) then throw .stall
  let merge (w : Word) : Word := es.foldl (fun w e => e.data.apply (e.pa % 8) w) w
  if es.any fun e => match e.data with | .word _ => true | _ => false then return merge nilWord
  match s.cohRead cx.c cx.w (pa / 64) with
  | .ok (l, s) =>
    set s
    faultIf l.poison cPOISON (v64 pa)
    return merge (l.word (pa / 8 % 8))
  | .error e => cohThrow e vFENCETSB pa

/-- A GATE fault (R186). -/
def gateFault {α : Type} (a : Val) (index reason : Nat) : M α :=
  fault cGATE (v64 (a.toNat % 2 ^ 48 * 65536 + fld 4 index + reason))

/-- The descriptor's physical address, read with supervisor rights (R185). -/
def gateXlate (cx : Ctx) (a : Val) : M (Nat × MemType) := do
  let s ← get
  match (translate { cx with lvl := true } a.toNat .read).run s with
  | .ok r s' =>
    set s'
    let k := s'.bank cx.c cx.b
    let asid := BitVec.ofNat 16 (bits k.asid 15 0)
    let hit (e : TlbEntry) : Bool := e.hits cx.w asid a.toNat
    let e := match (s'.lockEntries cx.w).find? hit with
      | some e => some e
      | none => (s'.core cx.c).tlbFind false hit
    let user := bit k.ttb 0 && (match e with | some e => e.u | none => false)
    if r.2 != .cacheable then gateFault a 0 5
    if user then gateFault a 0 6
    if unassigned s' r.1 then fault cMCHK (State.mchkTval 1 r.1)
    return r
  | .error (.trap _ _) _ => gateFault a 0 5
  | .error e _ => throw e

/-- Words of a descriptor. -/
def gateWords (cx : Ctx) (a : Val) (pa : Nat) (mt : MemType) : List Nat → M (List Word)
  | [] => return []
  | i :: r => do
    let w ← memWord cx (a + v64 (8 * i)) (pa + 8 * i) mt
    return w :: (← gateWords cx a pa mt r)

/-- The argument check of R185, each argument word read under R26. -/
def gateArgs (cx : Ctx) (a : Val) (d : List Word) : List Nat → M Unit
  | [] => pure ()
  | i :: r => do
    let w ← getReg cx (8 + i)
    checkWord cx w (regTval (8 + i))
    if !(bit (d.getD (2 + i) nilWord).val w.type) then gateFault a i 3
    gateArgs cx a d r

def execCallg (c : Fin 96) (f : TForm) (s : State) : Host.Outcome State Fault Refusal :=
  runInstr s c (tEnc 0x12 2 f false true false 0) fun cx => do
    let g ← srcReg cx f.rs1.toNat
    want (g.type == tyGATE) f.rs1.toNat
    let a := g.val
    if cx.lvl then gateFault a 0 7
    if bits a 5 0 != 0 then gateFault a 0 1
    let (pa, mt) ← gateXlate cx a
    let d ← gateWords cx a pa mt (List.range 8)
    let d0 := (d.getD 0 nilWord).val
    if d.any (·.tag != 0x16) || !(bit d0 63) || bits d0 62 56 != 0 || bits d0 50 48 != 0 || bits d0 1 0 != 0 ||
        (d.getD 1 nilWord).val != 0 then gateFault a 0 1
    let argc := bits d0 53 51
    if argc == 7 then gateFault a 0 2
    gateArgs cx a d (List.range argc)
    let sw := bit d0 55
    let tl := bit d0 54
    if !tl && sw then gateFault a 0 4
    saveCheck cx
    let sp ← if sw then
        match (← get).tsbOf cx.c cx.b with
        | none => gateFault a 0 8
        | some t => do
          let w ← tsbRead cx (t + 64)
          if w.tag != 0x16 then gateFault a 0 8
          pure (some w)
      else pure none
    let k ← getBank cx
    putReg cx 15 (retlink k)
    setCwp cx (k.status.cwp + 1)
    match sp with
    | some w => putReg cx 14 (rawWord w.val)
    | none => pure ()
    modB cx fun k => { k with status := { k.status with lvl := tl } }
    return .jump (v64 (bits d0 47 0))

def execRetg (c : Fin 96) (f : TForm) (s : State) : Host.Outcome State Fault Refusal :=
  runInstr s c (tEnc 0x12 3 f false false false 0) fun cx => do
    let l ← srcReg cx 31
    want (l.type == tyRETLINK) 31
    let k ← getBank cx
    let w := BitVec.ofNat 3 (bits l.val 50 48)
    want (w == k.status.cwp - 1) 31
    restoreCheck cx
    modB cx fun x =>
      let y : Bank := { x with status := { x.status with cwp := w, lvl := false } }
      if k.status.lvl then clearUser y k.status.cwp else y
    return .jump (pcOf l.val)

/-- A PRIV_RETURN fault of RFE (R182). -/
def retFault (p : Bool) (reason : Nat) : M Unit := faultIf p cPRIVRET (v64 reason)

def execRfe (c : Fin 96) (f : TForm) (s : State) : Host.Outcome State Fault Refusal :=
  runInstr s c (tEnc 0x12 4 f false false false 0) fun cx => do
    let s ← get
    let esc := (s.core cx.c).inEsc
    let (p, st) ← if esc then
        pure (s.rdLoc cx.c cx.b (.esc 8), s.rdLoc cx.c cx.b (.esc 9))
      else
        match s.tsbOf cx.c cx.b with
        | none => do
          fault cPRIVRET 5
        | some t => do
          let p ← tsbRead cx t
          let st ← tsbRead cx (t + 8)
          pure (p, st)
    retFault (p.tag != 0x16 || st.tag != 0x16) 1
    let k ← getBank cx
    retFault (bit st.val 31 != k.status.wld) 2
    retFault (bits st.val 63 32 != 0 || bits st.val 27 25 != 0 || bits st.val 21 19 != 0 || bits st.val 15 4 != 0) 3
    retFault (bits p.val 63 48 != 0 || bits p.val 1 0 != 0) 4
    let n := Status.ofVal st.val
    modB cx fun x =>
      let y : Bank := { x with status := { x.status with lvl := n.lvl, cwp := n.cwp, p := n.p, ml := n.ml } }
      if k.status.lvl && !n.lvl then clearUser y k.status.cwp else y
    if esc then modify fun s => s.modCore cx.c fun x => { x with inEsc := false }
    return .resume p.val

def execEscret (c : Fin 96) (f : TForm) (s : State) : Host.Outcome State Fault Refusal :=
  runInstr s c (tEnc 0x12 5 f false false false 0) fun cx => do
    return .jump (pcOf (← getBank cx).escpc)

/-- SAVE and RESTORE (R97). -/
def windowMove (cx : Ctx) (f : IForm) (save : Bool) : M Flow := do
  let a ← srcReg cx f.rs1.toNat
  want (isFR a) f.rs1.toNat
  if save then saveCheck cx else restoreCheck cx
  let k ← getBank cx
  setCwp cx (if save then k.status.cwp + 1 else k.status.cwp - 1)
  done cx f.rd.toNat ⟨a.tag, a.val + simm f.imm⟩

def execSave (c : Fin 96) (f : IForm) (s : State) : Host.Outcome State Fault Refusal :=
  runInstr s c (iEnc 0x13 0 f true true 12) fun cx => windowMove cx f true

def execRestore (c : Fin 96) (f : IForm) (s : State) : Host.Outcome State Fault Refusal :=
  runInstr s c (iEnc 0x13 1 f true true 12) fun cx => windowMove cx f false

def execMfs (c : Fin 96) (f : IForm) (s : State) : Host.Outcome State Fault Refusal :=
  runInstr s c (iEnc 0x0F 0 f true false 8) fun cx => do
    done cx f.rd.toNat (← srRead cx (f.imm.toNat % 256))

def execMts (c : Fin 96) (f : IForm) (s : State) : Host.Outcome State Fault Refusal :=
  runInstr s c (iEnc 0x0F 1 f false true 8) fun cx => do
    let n := f.imm.toNat % 256
    srRights cx n true
    let a ← srcReg cx f.rs1.toNat
    want (isFR a) f.rs1.toNat
    srMayWrite cx n a.val
    srPut cx n a.val
    return .fall

def execRspopRead (c : Fin 96) (b : Fin 4) (s : State) : Host.Outcome State Fault Refusal := .next (s.rsPop c b)

/-- Append the words that pass the test of R141 to a bank's SATBLOG. -/
def scanGo (s : State) (w : Bool) (k : Bank) : List Nat → List Word
  | [] => []
  | i :: r =>
    let x := Tbl.get nilWord k.gr i
    if traced s w x then x :: scanGo s w k r else scanGo s w k r

namespace State

/-- The register scan of a bank (R144): none while its SATBLOG has no room. -/
def scanBank (s : State) (c : Nat) (b : Fin 4) : Option State :=
  let k := s.bank c b
  if !k.scanPend then some s
  else
    let ws := scanGo s k.status.wld k (scanRegs k)
    if 256 < k.satblog.length + ws.length then none
    else
      some ((s.setBank c b { k with scanPend := false, satblog := k.satblog ++ ws }).countEvent c 12 ws.length)

end State

/-- Replace the registers that hold pointers into Evacuating plots (R156). -/
def flipGo (c : Nat) (b : Fin 4) (w : Bool) : List Nat → WM Unit
  | [] => pure ()
  | i :: r => do
    let s ← get
    let x := Tbl.get nilWord (s.bank c b).gr i
    if s.isPtr x.type && s.inEvac w x.val.toNat then
      let y ← evacValue w x
      modify fun s => s.modBank c b fun k => { k with gr := Tbl.set nilWord k.gr i y }
    flipGo c b w r

namespace State

/-- The register flip of a bank (R156): none while a line is awaited, or a failed access of the world until the next
boundary (R150). -/
def flipBank (s : State) (c : Nat) (b : Fin 4) : Option State :=
  let k := s.bank c b
  if !k.flipPend then some s
  else if (s.gcW k.status.wld).failing then none
  else
    match flipGo c b k.status.wld (scanRegs k) s with
    | .ok _ s => some (s.modBank c b fun k => { k with flipPend := false })
    | .error (.stall, _) _ => none
    | .error (e, a) _ => some (wnwStop s k.status.wld a e)

/-- The scan and flip that come before an MFB or MTB reaches a bank. -/
def settleBank (s : State) (c : Nat) (b : Fin 4) : Option State :=
  match s.scanBank c b with
  | none => none
  | some s =>
    match s.flipBank c b with
    | none => none
    | some s => if (s.bank c b).flipPend then none else some s

end State

/-- The register of another bank that MFB and MTB reach (R200, R201). -/
def bankReg (cx : Ctx) (spec : Nat) : M (Fin 4 × Nat) := do
  let s ← get
  let v := (s.coreW cx.c cx.w).bankwin
  let t : Fin 4 := Fin.ofNat 4 (bits v 5 4)
  faultIf ((s.bank cx.c t).status.wld != cx.w) cPRIV 0
  match s.settleBank cx.c t with
  | none => throw .stall
  | some s =>
    set s
    let w := if bit v 3 then bits v 2 0 else (s.bank cx.c t).status.cwp.toNat
    return (t, specIx w spec)

def execMfb (c : Fin 96) (f : IForm) (s : State) : Host.Outcome State Fault Refusal :=
  runInstr s c (iEnc 0x0F 2 f true false 5) fun cx => do
    let (t, i) ← bankReg cx (f.imm.toNat % 32)
    done cx f.rd.toNat (Tbl.get nilWord ((← get).bank cx.c t).gr i)

def execMtb (c : Fin 96) (f : IForm) (s : State) : Host.Outcome State Fault Refusal :=
  runInstr s c (iEnc 0x0F 3 f false true 5) fun cx => do
    let w ← getReg cx f.rs1.toNat
    let (t, i) ← bankReg cx (f.imm.toNat % 32)
    modify fun s => s.modBank cx.c t fun k => { k with gr := Tbl.set nilWord k.gr i w }
    return .fall

end Sys2Proof.Machine
end

