-- ==== Sys2Proof/Machine/Maint.lean ====
section
/-! DEFINITION. Barriers (R99, R239, R240), cache maintenance and locking (R100, R270, R278), TLB invalidation and locking
(R101, R263-R265). -/

namespace Sys2Proof.Machine

namespace State

/-- A barrier's condition for a bank (R239), by what it waits for: 0 nothing, 1 stores to cacheable and uncached memory,
2 every local access, 3 every remote operation as well. -/
def barrierDone (s : State) (c : Nat) (b : Fin 4) (kind : Nat) : Bool :=
  let mine := (s.core c).sb.filter (·.bank == b)
  let local_ := if kind == 0 then true
    else if kind == 1 then !(mine.any fun e => e.mt == .cacheable || e.mt == .uncached) else mine.isEmpty
  local_ && (kind != 3 || !(s.fab.ott.any fun (_, e) => e.busy && s.rep e.core == c && e.bank == b.val))

end State

/-- A barrier instruction: it retires when its condition holds, otherwise the bank waits (R240). -/
def runBarrier (s : State) (c func : Nat) (f : TForm) (kind : Nat) : Host.Outcome State Fault Refusal :=
  runInstr s c (tEnc 0x0D func f false false false 0) fun cx => do
    if (← get).barrierDone cx.c cx.b kind then return .fall
    else throw (.wait { cause := 6, key := kind })

def execBarCO (c : Fin 96) (f : TForm) (s : State) : Host.Outcome State Fault Refusal := runBarrier s c 0 f 0
def execBarCE (c : Fin 96) (f : TForm) (s : State) : Host.Outcome State Fault Refusal := runBarrier s c 1 f 2
def execBarKO (c : Fin 96) (f : TForm) (s : State) : Host.Outcome State Fault Refusal := runBarrier s c 2 f 1
def execBarKE (c : Fin 96) (f : TForm) (s : State) : Host.Outcome State Fault Refusal := runBarrier s c 3 f 2
def execBarDO (c : Fin 96) (f : TForm) (s : State) : Host.Outcome State Fault Refusal := runBarrier s c 4 f 2
def execBarDE (c : Fin 96) (f : TForm) (s : State) : Host.Outcome State Fault Refusal := runBarrier s c 5 f 2
def execBarSO (c : Fin 96) (f : TForm) (s : State) : Host.Outcome State Fault Refusal := runBarrier s c 6 f 3
def execBarSE (c : Fin 96) (f : TForm) (s : State) : Host.Outcome State Fault Refusal := runBarrier s c 7 f 3

/-- The condition that a waiting barrier waits for holds: the wait ends and BEVT bit 2 is set (R240). -/
def execBarrierRelease (c : Fin 96) (b : Fin 4) (s : State) : Host.Outcome State Fault Refusal :=
  .next (match (s.bank c b).wait with
    | some w =>
      if w.cause == 6 && w.slot == 0 && !w.done && s.barrierDone c b w.key then
        (s.deliver c (.waitDone b .none)).deliver c (.bevt b 2)
      else s
    | none => s)

/-- A cache maintenance instruction: the physical address of rs1, translated with read rights (R100). Any address, aligned or
not, names its granule, and every memory type but device is taken (DESIGN CHOICE, log entry 147). -/
def maintAddr (cx : Ctx) (spec : Nat) : M Nat := do
  let a ← srcReg cx spec
  let a ← addrOp cx spec a false
  let (pa, _) ← access cx a.val 1 .read mtNoDev
  let s ← get
  if (s.core cx.c).sb.any (fun e => e.bank == cx.b && e.pa / 64 == pa / 64) then throw .stall
  if s.fenceOwner pa != wn cx.w then throw (.freeze vFENCEDATA (v64 pa))
  return pa

/-- A whole-line request that the home serves or queues. -/
def homeOp (r : Except CohFail State) (pa : Nat) : M Unit :=
  match r with
  | .ok s => set s
  | .error e => cohThrow e vFENCEDATA pa

def execCwbA (c : Fin 96) (f : TForm) (s : State) : Host.Outcome State Fault Refusal :=
  runInstr s c (tEnc 0x0D 8 f false true false 0) fun cx => do
    let pa ← maintAddr cx f.rs1.toNat
    homeOp ((← get).cohClean cx.c cx.w (pa / 64)) pa
    return .fall

def execCinvA (c : Fin 96) (f : TForm) (s : State) : Host.Outcome State Fault Refusal :=
  runInstr s c (tEnc 0x0D 9 f false true false 0) fun cx => do
    let pa ← maintAddr cx f.rs1.toNat
    homeOp ((← get).cohFlush cx.c cx.w (pa / 64)) pa
    return .fall

def execClockA (c : Fin 96) (f : TForm) (s : State) : Host.Outcome State Fault Refusal :=
  runInstr s c (tEnc 0x0D 10 f false true false 0) fun cx => do
    let a ← srcReg cx f.rs1.toNat
    let a ← addrOp cx f.rs1.toNat a false
    let (pa, _) ← access cx a.val 1 .read mtC
    let g := pa / 64
    let locks := ((← get).core cx.c).locks
    faultIf (!(locks.contains g) && decide (8 ≤ (locks.filter fun x => x % 1024 == g % 1024).length)) cILLEGAL 0
    let l ← lineRead cx pa false
    faultIf l.poison cPOISON a.val
    modify fun s => s.modCore cx.c fun x => { x with locks := if x.locks.contains g then x.locks else x.locks ++ [g] }
    return .fall

def execCunlkA (c : Fin 96) (f : TForm) (s : State) : Host.Outcome State Fault Refusal :=
  runInstr s c (tEnc 0x0D 11 f false true false 0) fun cx => do
    let a ← srcReg cx f.rs1.toNat
    let a ← addrOp cx f.rs1.toNat a false
    let (pa, _) ← access cx a.val 1 .read mtNoDev
    modify fun s => s.modCore cx.c fun x => { x with locks := x.locks.filter (· != pa / 64) }
    return .fall

/-- Recipients of a TLB broadcast that have yet to acknowledge: gated cores, cores that are not enabled and the odd core
of a pair that is not split hold nothing of their own and acknowledge at once (R264). -/
def bcastAgents (s : State) : List Nat :=
  (List.range 96).filter (fun c => s.coreEnabled c && !((s.core c).pg) && !(s.oddBound c)) ++ (List.range 12).map (· + 96)

/-- Every acknowledgement of the bank's broadcast has arrived: the instruction only retires (R264). -/
def broadcastDone (cx : Ctx) : M Bool := do
  return match (← getBank cx).wait with
    | some w => w.cause == 6 && w.slot == 1 && w.done
    | none => false

/-- Send a TLB broadcast and wait for its acknowledgements (R264). -/
def broadcast (cx : Ctx) (x : TlbBcast) : M Flow := do
  let s ← get
  let id := s.nextBcast
  set { s with
    nextBcast := id + 1,
    bcasts := Tbl.set none s.bcasts id (some { x with core := cx.c, bank := cx.b.val, waiting := bcastAgents s }) }
  throw (.wait { cause := 6, slot := 1, key := id })

/-- An address-space identifier operand (R263). -/
def asidOp (cx : Ctx) (spec : Nat) : M (BitVec 16) := do
  let a ← getReg cx spec
  want (isFR a) spec
  want (decide (a.val.toNat < 2 ^ 16)) spec
  return a.val.setWidth 16

/-- A TLBINV (R263, R264): kind 0 all, 1 one ASID, 2 one page. The ASID operand is tested before the address (DESIGN CHOICE, log
entry 126). -/
def runTlbinv (s : State) (c func : Nat) (f : TForm) (kind : Nat) : Host.Outcome State Fault Refusal :=
  runInstr s c (tEnc 0x0E func f false (kind != 0) (kind == 2) 0) fun cx => do
    if ← broadcastDone cx then return .fall
    let a ← if kind == 0 then pure nilWord else srcReg cx f.rs1.toNat
    if kind == 2 then let _ ← srcReg cx f.rs2.toNat
    let asid ← if kind == 1 then asidOp cx f.rs1.toNat else if kind == 2 then asidOp cx f.rs2.toNat else pure 0
    let a ← if kind == 2 then addrOp cx f.rs1.toNat a false else pure a
    ownStoresDone cx
    broadcast cx { kind := kind, world := cx.w, asid := asid, va := a.val.toNat, core := cx.c, bank := cx.b.val, waiting := [] }

def execTlbinvAll (c : Fin 96) (f : TForm) (s : State) : Host.Outcome State Fault Refusal := runTlbinv s c 0 f 0
def execTlbinvAsid (c : Fin 96) (f : TForm) (s : State) : Host.Outcome State Fault Refusal := runTlbinv s c 1 f 1
def execTlbinvVa (c : Fin 96) (f : TForm) (s : State) : Host.Outcome State Fault Refusal := runTlbinv s c 2 f 2

/-- The operands of TLBLOCK and TLBUNLK: the address is tested before the ASID (DESIGN CHOICE, log entry 126). -/
def lockOperands (cx : Ctx) (f : TForm) : M (Val × BitVec 16) := do
  let a ← srcReg cx f.rs1.toNat
  let _ ← srcReg cx f.rs2.toNat
  let a ← addrOp cx f.rs1.toNat a false
  let asid ← asidOp cx f.rs2.toNat
  return (a.val, asid)

/-- The lockable entries of a world's half that hold a page with an ASID, and the free ones. -/
def lockSlots (s : State) (w : Bool) (p : TlbEntry → Bool) : List Nat :=
  (List.range 8).filter fun i =>
    match Tbl.get none s.lockTlb (8 * wn w + i) with
    | some e => p e
    | none => false

/-- The walk of TLBLOCK: as a read, at TTB.BASE whatever TTB.EN holds; the entry that it writes, one that holds the page and
ASID or a free one, is found before A, and D when W = 1, are set (R265). -/
def lockWalk (cx : Ctx) (va : Val) (asid : BitVec 16) : M (Nat × TlbEntry) := do
  faultIf (bits va 63 48 != 0) cPAGENP va
  let s ← get
  let k := s.bank cx.c cx.b
  match walkGo cx.c cx.w va.toNat [4, 3, 2, 1] (bits k.ttb 39 12 * 4096) (s.countEvent cx.c 18 1) with
  | .error (.fault code tv t) => do
    set t
    fault code tv
  | .error .stall => throw .stall
  | .error (.wait q) => throw (.miss q)
  | .error (.fence pa) => throw (.freeze vFENCEWALK (v64 pa))
  | .ok ((level, ea, e), s) =>
    let t := leafEntry cx.w asid va.toNat level e.val (bit e.val 5 || bit e.val 1)
    faultIf (t.denies cx.lvl .read) cPAGEPROT va
    let same := lockSlots s cx.w fun e => e.vpn == t.vpn && e.size == t.size && e.asid == asid
    let free := (List.range 8).filter fun i => (Tbl.get none s.lockTlb (8 * wn cx.w + i)).isNone
    match same ++ free with
    | [] => fault cILLEGAL 0
    | i :: _ =>
      match setAD s cx.c cx.w ea e t.w with
      | .error (.fence pa) => throw (.freeze vFENCEWALK (v64 pa))
      | .error (.wait q) => throw (.miss q)
      | .error _ => throw .stall
      | .ok s =>
        set s
        return (i, t)

/-- The lockable entries that writing or freeing some slots takes away. -/
def lockGone (s : State) (w : Bool) (is : List Nat) : List TlbEntry :=
  is.filterMap fun i => Tbl.get none s.lockTlb (8 * wn w + i)

def execTlblock (c : Fin 96) (f : TForm) (s : State) : Host.Outcome State Fault Refusal :=
  runInstr s c (tEnc 0x0E 3 f false true true 0) fun cx => do
    if ← broadcastDone cx then return .fall
    let (va, asid) ← lockOperands cx f
    ownStoresDone cx
    let (i, t) ← lockWalk cx va asid
    let s ← get
    let freed := lockGone s cx.w [i]
    set { s with lockTlb := Tbl.set none s.lockTlb (8 * wn cx.w + i) (some t) }
    broadcast cx
      { kind := 3, world := cx.w, asid := asid, va := va.toNat, core := cx.c, bank := cx.b.val, waiting := [], freed := freed }

def execTlbunlk (c : Fin 96) (f : TForm) (s : State) : Host.Outcome State Fault Refusal :=
  runInstr s c (tEnc 0x0E 4 f false true true 0) fun cx => do
    if ← broadcastDone cx then return .fall
    let (va, asid) ← lockOperands cx f
    ownStoresDone cx
    let s ← get
    let gone := lockSlots s cx.w fun e => e.vpn == va.toNat / e.size && e.asid == asid
    let freed := lockGone s cx.w gone
    set (gone.foldl (fun s i => { s with lockTlb := Tbl.set none s.lockTlb (8 * wn cx.w + i) none }) s)
    broadcast cx
      { kind := 3, world := cx.w, asid := asid, va := va.toNat, core := cx.c, bank := cx.b.val, waiting := [], freed := freed }

/-- A broadcast reaches an agent: through the latch of a pair that is not split (R305). -/
def execTlbinvReceive (a : Fin 108) (id : Nat) (s : State) : Host.Outcome State Fault Refusal :=
  .next (if a.val < 96 && (s.pairMode (pairOf a.val) == 1 || s.pairMode (pairOf a.val) == 2) then
      s.modPair (pairOf a.val) fun p =>
        { p with latch := if p.latch.contains (.tlbinv id) then p.latch else p.latch ++ [.tlbinv id] }
    else s.tlbReceive a.val id)

/-- Every acknowledgement of a broadcast has arrived: the bank's wait ends as a barrier's does (R264). -/
def execTlbinvAcknowledged (id : Nat) (s : State) : Host.Outcome State Fault Refusal :=
  .next (match Tbl.get none s.bcasts id with
    | none => s
    | some x =>
      if !(x.waiting.isEmpty) then s
      else
        let s := { s with bcasts := Tbl.set none s.bcasts id none }
        let b : Fin 4 := Fin.ofNat 4 x.bank
        match (s.bank x.core b).wait with
        | some w =>
          if w.cause == 6 && w.slot == 1 && w.key == id && !w.done then
            (s.deliver x.core (.waitDone b .none)).deliver x.core (.bevt b 2)
          else s
        | none => s)

end Sys2Proof.Machine
end

