-- ==== Sys2Proof/Machine/Drain.lean ====
section
/-! DEFINITION. The performing of store buffer entries (R141, R142, R189, R245, R289). -/

namespace Sys2Proof.Machine

namespace State

/-- The old content that a drained whole-word store appends to its bank's SATBLOG (R141): only in Mark, for a store that
issued with STATUS.MK set. -/
def satWord (s : State) (e : SBEntry) (old : Word) : List Word :=
  let whole := match e.data with
    | .word _ => true
    | .sub _ _ => false
  if whole && e.mrk && e.snap && s.gcPhase e.world == 1 && traced s e.world old then [old] else []

/-- The head of a core's store buffer leaves it: banks that wait for room are woken (R195), and broadcasts that waited for the
store are acknowledged (R264). -/
def sbPop (s : State) (c : Nat) : State :=
  let s := s.modCore c fun x => { x with sb := x.sb.drop 1 }
  let s := s.banks.foldl (fun s (x : Nat × Bank) =>
    match x.2.wait with
    | some w => if x.1 / 4 == c && w.cause == 5 && !w.done then s.deliver c (.waitDone (Fin.ofNat 4 x.1) .none) else s
    | none => s) s
  s.bcasts.foldl (fun s (x : Nat × Option TlbBcast) => s.tlbAck c x.1) s

/-- A store that the home's fence check or the register decoder refuses at drain (R189): it is discarded, the core freezes,
and the stores behind it stay held. -/
def drainViolation (s : State) (c : Nat) (e : SBEntry) (why addr : Nat) : State :=
  let s := s.modCore c fun x => { x with sb := x.sb.drop 1, sbHeld := true }
  s.freezeCoreAt c e.bank e.world e.pc why (v64 addr)

/-- A store to a device register is performed (R88, R234). In a sub-word store the bytes that are not addressed are written
with what they hold, and bits that a 1 would clear with 0 (DESIGN CHOICE, log entry 22). -/
def performDevice (s : State) (c : Nat) (e : SBEntry) : State :=
  let off := (e.pa - 0xF000000000) / 8 * 8
  let x : Who := { reeve := false, c := c, b := e.bank, w := e.world, sup := e.sup }
  let v := match e.data with
    | .word w => w.val
    | .sub n v => mergeSub (s.regRead x off &&& ~~~(v64 (w1cMask off))) (e.pa % 8) n v
  if s.regViolation x off true then s.drainViolation c e vREGWORLD off else (s.sbPop c).regWrite x off v

/-- The store whose old content is `old` is written by `put`, with its SATBLOG append; none while the log is full. -/
def drainWrite (s : State) (c : Nat) (e : SBEntry) (old : Word) (put : State → State) : Option State :=
  let ws := s.satWord e old
  if !ws.isEmpty && 256 ≤ (s.bank c e.bank).satblog.length then none
  else
    let s := if ws.isEmpty then s
      else (s.modBank c e.bank fun k => { k with satblog := k.satblog ++ ws }).countEvent c 12 1
    some ((put s).sbPop c)

/-- The oldest entry of a core's store buffer is performed; none while it cannot be, or is held in a halted pair (R307). -/
def performStore (s : State) (c : Nat) : Option State :=
  match (s.core c).sb with
  | [] => none
  | e :: _ =>
    if (s.core c).sbHeld || s.pairMode (pairOf c) == 3 then none
    else if e.mt == .cacheable then
      let s := s.l2Parity c (e.pa / 64)
      match s.cohOwn c e.world (e.pa / 64) with
      | .error .stall => none
      | .error (.wait q) => some (s.sendMiss q)
      | .error .fence => some (s.drainViolation c e vFENCEDATA e.pa)
      | .ok (l, s) =>
        if l.poison then some (s.sbPop c)
        else
          let old := l.word (e.pa / 8 % 8)
          s.drainWrite c e old fun s => s.putOwned c (e.pa / 64) (e.pa / 8 % 8) (e.data.apply (e.pa % 8) old) none
    else if e.mt == .device then some (s.performDevice c e)
    else
      match s.ucOpen c e.world e.pa with
      | .error .fence => some (s.drainViolation c e vFENCEDATA e.pa)
      | .error _ => none
      | .ok s =>
        let (l, s) := s.ucRead e.pa
        if l.poison then some (s.sbPop c)
        else s.drainWrite c e (l.word (e.pa / 8 % 8)) fun s => s.ucWrite e.pa e.data

/-- A core's store buffer is performed as far as it goes: `n` bounds the entries. -/
def drainAll (s : State) (c : Nat) : Nat → State
  | 0 => s
  | n + 1 =>
    match s.performStore c with
    | some t => drainAll t c n
    | none => s

end State

def execStorePerform (c : Fin 96) (s : State) : Host.Outcome State Fault Refusal :=
  .next ((s.performStore c).getD s)

end Sys2Proof.Machine
end

