-- ==== Sys2Proof/Machine/BinInstr.lean ====
section
/-! DEFINITION. The bin instructions (R102, R319-R321, R329): BSEND, BRECV, BPEEK, BCRED. -/

namespace Sys2Proof.Machine

/-- A BIN_ERR fault on a BINREF (R319). -/
def binErr {α : Type} (ref : Word) (reason : Nat) : M α :=
  fault cBINERR (v64 (fld 48 (bits ref.val 63 48) + fld 32 (bits ref.val 11 0) + reason))

/-- The BINREF operand: its word and bin number. -/
def binOp (cx : Ctx) (spec : Nat) : M (Word × Nat) := do
  let r ← srcReg cx spec
  return (r, bits r.val 11 0)

/-- The rights of BRECV and BPEEK (R319), and of BCRED, which needs no binding. -/
def binRights (cx : Ctx) (r : Word) (n : Nat) (bound : Bool) : M Unit := do
  let s ← get
  if bits r.val 63 48 != s.srcNode then binErr r 1
  if s.binWld n != cx.w then binErr r 2
  if bound && !(s.binCore n == cx.c && s.binBank n == cx.b.val) then binErr r 3
  if s.binState n == 0 then binErr r 4

namespace State

/-- The source bin of a bank: the Active bin with SRCB = 1 that binds it (R319). -/
def sourceBin (s : State) (c b : Nat) : Option Nat :=
  s.liveBins.find? fun n => s.binState n == 1 && bit (s.reg (binBase n)) 10 && s.binCore n == c && s.binBank n == b

/-- Step 4 of R321: the number of the next send of a source bin. -/
def takeSeq (s : State) (n : Nat) : BitVec 16 × State :=
  let o := binBase n + 0x28
  let q := BitVec.ofNat 16 (s.regF o 15 0)
  if bit (s.reg o) 16 then (q - 1, s.setRegF o 16 16 0) else (q, s.setRegF o 15 0 (q + 1).toNat)

/-- Earlier remote operations of a bank to a node are outstanding: a BSEND there is performed after them (R236, R376). -/
def storesOut (s : State) (c b node : Nat) : Bool :=
  s.fab.ott.any fun (_, e) => e.busy && e.core == c && e.bank == b && e.node == node && decide (e.kind ≤ 5)

end State

/-- The words of a message, read upward from an address through the read barrier and checked (R321). -/
def msgWords (cx : Ctx) : Nat → Val → M (List Word)
  | 0, _ => return []
  | n + 1, ea => do
    let w ← loadWord cx ea mtNoDev false
    return w :: (← msgWords cx n (ea + 8))

/-- The first word that R35 keeps local, by its address. -/
def firstKept (s : State) : Val → List Word → Option Val
  | _, [] => none
  | ea, w :: r => if s.keptLocal w then some ea else firstKept s (ea + 8) r

/-- What a bank that waits in BSEND has been answered, if it has. -/
def sendAnswer (k : Bank) : Option WaitResult :=
  match k.wait with
  | some w => if w.cause == 2 && 2 ≤ w.slot && w.done then some w.res else none
  | none => none

/-- Step 6 of R321: rd takes the answer; a transport failure is REMOTE_ERR (R391). -/
def useAnswer (cx : Ctx) (rd : Nat) (r : Word) (n : Nat) : WaitResult → M Flow
  | .answer w => done cx rd w
  | .error e => do
    modB cx fun k => { k with wait := none }
    fault cREMOTE (v64 (fld 48 (bits r.val 63 48) + fld 32 n + e))
  | _ => throw .stall

def execBsend (c : Fin 96) (f : TForm) (s : State) : Host.Outcome State Fault Refusal :=
  runInstr s c (tEnc 0x14 0 f true true true 0) fun cx => do
    let d ← srcReg cx f.rd.toNat
    let (r, n) ← binOp cx f.rs1.toNat
    let a ← srcReg cx f.rs2.toNat
    let a ← await cx a
    want (r.type == tyBINREF) f.rs1.toNat
    want ((← get).isPtr a.type || isRw a) f.rs2.toNat
    want (isF d) f.rd.toNat
    match sendAnswer (← getBank cx) with
    | some a => useAnswer cx f.rd.toNat r n a
    | none =>
      if bits d.val 63 14 != 0 then binErr r 6
      match (← get).sourceBin cx.c cx.b.val with
      | none => binErr r 5
      | some sb =>
        let l := bits d.val 13 8
        let ws ← msgWords cx l (a.val + 8)
        let s ← get
        let node := bits r.val 63 48
        let here := node == s.srcNode
        if !here || s.binWld n != cx.w then
          match firstKept s (a.val + 8) ws with
          | some ea => fault cTYPE ea
          | none => pure ()
        if here then
          let (q, s) := s.takeSeq sb
          let w : WaitRec := { cause := 2, key := 2 ^ 17, slot := 2 + sb }
          set s
          modB cx fun k => { k with wait := some w }
          let m : Flight := Flight.mk n s.srcNode sb false q (State.msgHdr s.srcNode sb q (l + 1) (bits d.val 7 0) :: ws) cx.w
            (.bank cx.c cx.b) false
          modify fun s => s.binArrive m
          match sendAnswer (← getBank cx) with
          | some a => useAnswer cx f.rd.toNat r n a
          | none => throw (.wait w)
        else
          if s.storesOut cx.c cx.b.val node then throw .stall
          if !s.fabUp then fault cREMOTE (v64 (fld 48 node + fld 32 n + 14))
          match s.freeOtt with
          | none => throw .stall
          | some ix =>
            let (q, s) := s.takeSeq sb
            let e : Ott := { busy := true, node := node, vc := 2, core := cx.c, bank := cx.b.val, world := cx.w, kind := 7, ref := r }
            let p := mkPacket s.srcNode node pMSG false cx.w (mkTtag cx.c cx.b.val ix) r (rawWord 0)
              (State.msgHdr s.srcNode sb q (l + 1) (bits d.val 7 0) :: ws)
            let w : WaitRec := { cause := 2, key := ix, slot := 2 + sb }
            set ((s.setOtt ix e).countEvent cx.c 13 1)
            modB cx fun k => { k with wait := some w }
            modify fun s => s.originate node ix p
            match sendAnswer (← getBank cx) with
            | some a => useAnswer cx f.rd.toNat r n a
            | none => throw (.wait w)

/-- The oldest message of a bin, as its words (R314), read as loads of the bank are: after its older stores to the ring
(R235), fence-checked (R167), poison and words checked with the physical address in TVAL (R26). -/
def ringRead (cx : Ctx) (n first : Nat) : Nat → Nat → M (List Word)
  | 0, _ => return []
  | k + 1, j => do
    let s ← get
    let a := s.slotAddr n first j
    if (s.core cx.c).sb.any (fun e => e.bank == cx.b && e.mt == .bin && sameRing s e.pa a) then throw .stall
    if s.fenceOwner a != wn cx.w then throw (.freeze vFENCEDATA (v64 a))
    let (l, s) := s.ucRead a
    set s
    faultIf l.poison cPOISON (v64 a)
    let w := l.word (a / 8 % 8)
    checkWord cx w (v64 a)
    return w :: (← ringRead cx n first k (j + 1))

/-- Store words upward through the store barriers (R140); with no room in the store buffer the bank waits, holding the
message, and goes on from there (R194, R245, R326). `pos` words are stored. A HEADER word is stored at user level too
(DESIGN CHOICE, log entry 127). -/
def storeUp (cx : Ctx) (spec n : Nat) : List Word → Nat → Val → M Unit
  | [], _, _ => pure ()
  | w :: r, pos, ea => do
    if 32 ≤ ((← get).core cx.c).sb.length then throw (.wait { cause := 5, pos := pos, hold := some n })
    storeWord cx ea w mtNoDev false true spec
    storeUp cx spec n r (pos + 1) (ea + 8)

/-- The oldest message's MSGHDR, if the ring holds one. A FORWARD word there is not placed in a register (R28): TYPE. -/
def ringHead (cx : Ctx) (n : Nat) : M (Option Word) := do
  let s ← get
  if s.binUsed n == 0 then return none
  else
    let first := s.binRd n % s.binSlots n
    match ← ringRead cx n first 1 0 with
    | [] => return none
    | h :: _ => do
      faultIf (h.type == tyFORWARD) cTYPE (v64 (s.slotAddr n first 0))
      return some h

def execBrecv (c : Fin 96) (f : TForm) (s : State) : Host.Outcome State Fault Refusal :=
  runInstr s c (tEnc 0x14 1 f true true true 0) fun cx => do
    let (r, n) ← binOp cx f.rs1.toNat
    let a ← srcReg cx f.rs2.toNat
    let a ← await cx a
    want (r.type == tyBINREF) f.rs1.toNat
    want ((← get).isPtr a.type || isRw a) f.rs2.toNat
    want (!a.imm) f.rs2.toNat
    binRights cx r n true
    match ← ringHead cx n with
    | none => done cx f.rd.toNat nilWord
    | some h =>
      let s ← get
      let len := bits h.val 19 14 + 1
      let ws ← ringRead cx n (s.binRd n % s.binSlots n) len 0
      let pos := match (← getBank cx).wait with
        | some w => w.pos
        | none => 0
      touchPages cx (a.val + v64 (8 * pos)) (ws.length - pos) mtNoDev
      storeUp cx f.rs2.toNat n (ws.drop pos) pos (a.val + v64 (8 * pos))
      modify fun s => s.setRegF (binBase n + 0x18) 63 32 (s.binRd n + (len + 7) / 8)
      done cx f.rd.toNat h

def execBpeek (c : Fin 96) (f : TForm) (s : State) : Host.Outcome State Fault Refusal :=
  runInstr s c (tEnc 0x14 2 f true true false 0) fun cx => do
    let (r, n) ← binOp cx f.rs1.toNat
    want (r.type == tyBINREF) f.rs1.toNat
    binRights cx r n true
    done cx f.rd.toNat ((← ringHead cx n).getD nilWord)

def execBcred (c : Fin 96) (f : TForm) (s : State) : Host.Outcome State Fault Refusal :=
  runInstr s c (tEnc 0x14 3 f true true false 0) fun cx => do
    let (r, n) ← binOp cx f.rs1.toNat
    want (r.type == tyBINREF) f.rs1.toNat
    binRights cx r n false
    let s ← get
    let spare := s.regF (binBase n + 0x20) 47 32
    let def_ := match s.sourceBin cx.c cx.b.val with
      | some sb =>
        match (s.srcs (s.binEng n)).find? fun e => e.bin == n && e.node == s.srcNode && e.sbin == sb && !e.host with
        | some e => e.deficit
        | none => 0
      | none => 0
    done cx f.rd.toNat (fixWord (v64 (fld 32 (min (def_ + spare) (2 ^ 32 - 1)) + s.binFree n)))

end Sys2Proof.Machine
end

