-- ==== Sys2Proof/Machine/Micro.lean ====
section
/-! DEFINITION. The loading of the control store (R225-R228): targets and their shares, the load checks, the writing of
words; the Allotment instructions (R207, R224) and CS_BOUND (R217). -/

namespace Sys2Proof.Machine

/-- The target of a WCS step or of an Allotment load: its share. Kinds: 0 microword, 1 nanoword, 2 dispatch entry, 3 type
attribute. -/
def targetShare (kind index : Nat) : Option Nat :=
  if kind == 0 then microShare index else if kind == 1 then nanoShare index else if kind == 2 then keyShare index
  else typeShare index

/-- R226 on a microword at `u`. -/
def microOk (s : State) (owner u : Nat) (v : Val) : Bool :=
  let seq := bits v 10 8
  let arg := bits v 7 0
  bits v 63 24 == 0 && ownedBy s owner (nanoShare (bits v 23 11)) && seq != 7 &&
    !((seq == 0 || seq == 6) && arg != 0) &&
    !((seq == 1 || seq == 2 || seq == 5) && !(ownedBy s owner (microShare (microTo u arg))))

/-- A tag that an owner may create (R226). -/
def creatable (s : State) (owner : Nat) (t : BitVec 8) : Bool :=
  let w : Word := ⟨t, 0⟩
  if w.type < 0x20 then
    [tyNIL, tyFIX, tyFLO, tyCHAR, tyTRUE, tyUNBOUND, tyRAW].contains w.type && !w.imm && !w.weak
  else ownedBy s owner (typeShare w.type) && (!(w.imm || w.weak) || s.atClass w.type == 2)

/-- R226 on a nanoword. -/
def nanoOk (s : State) (owner : Nat) (lo mid hi : Val) : Bool :=
  let n := nanoOf lo mid hi
  let src (x : Nat) : Bool := decide (x ≤ 0x11)
  let usesK := n.srca == 4 || n.srcb == 4 || n.madr == 4 || n.tsel == 2
  let usesSpr := n.srca == 0x10 || n.srcb == 0x10 || n.madr == 0x10 || n.dst == 0x10
  bits hi 63 8 == 0 && bits mid 19 16 == 0 && n.mflg == 0 && decide (n.cond ≤ 11) && decide (n.aop ≤ 13) &&
    src n.srca && src n.srcb && src n.madr &&
    (decide (n.dst ≤ 3) || (decide (8 ≤ n.dst) && decide (n.dst ≤ 0x10))) && decide (n.tsel ≤ 4) &&
    decide (n.mop ≤ 3) && decide (n.eff ≤ 3) &&
    !(n.eff == 2 && !(decide (n.spr ≤ 8) || (decide (32 ≤ n.spr) && decide (n.spr ≤ 63)))) &&
    !(n.eff == 3 && !(n.spr == cILLEGAL || n.spr == cTYPE)) &&
    !(usesSpr && (n.eff == 2 || n.eff == 3)) && (!usesK || creatable s owner n.tagk)

/-- R226 on a dispatch entry. -/
def dentOk (s : State) (owner : Nat) (v : Val) : Bool :=
  bits v 63 32 == 0 && bits v 26 14 == 0 && !(bit v 31 && bits v 29 28 != 1) && ownedBy s owner (microShare (bits v 13 0))

/-- R226 on a type attribute. -/
def tattrOk (s : State) (owner : Nat) (v : Val) : Bool :=
  bits v 63 32 == 0 && bits v 27 14 == 0 && bits v 29 28 != 3 && !(bit v 31 && bits v 29 28 != 1) &&
    !(bit v 30 && !(ownedBy s owner (microShare (bits v 13 0))))

/-- The load check of a target's words. -/
def loadOk (s : State) (owner kind index : Nat) (xs : List Val) : Bool :=
  let x := xs.getD 0 0
  if kind == 0 then microOk s owner index x
  else if kind == 1 then nanoOk s owner x (xs.getD 1 0) (xs.getD 2 0)
  else if kind == 2 then dentOk s owner x
  else tattrOk s owner x

namespace State

/-- Write a target in all 12 copies, with good parity (R225, R227). -/
def csWrite (s : State) (kind index : Nat) (xs : List Val) : State :=
  let x := xs.getD 0 0
  let store := kind
  let s := { s with csBad := s.csBad.filter fun b => !(b.2.1 == store && b.2.2 == index) }
  if kind == 0 then s.setReg (rMWORD index) x
  else if kind == 1 then ((s.setReg (rNANO index) x).setReg (rNANO index + 8) (xs.getD 1 0)).setReg (rNANO index + 16) (xs.getD 2 0)
  else if kind == 2 then s.setReg (rDENT index) x
  else s.setReg (rTATTR index) x

end State

/-- The world of the bank that core `c` would issue from. -/
def issueWorld (s : State) (c : Nat) : Bool :=
  match s.issuable c with
  | some b => (s.bank c b).status.wld
  | none => false

def execAllotmentInstruction (c : Fin 96) (m : Fin 4) (fn : BitVec 4) (f : TForm) (s : State) :
    Host.Outcome State Fault Refusal :=
  let key := 0x380 + 16 * m.val + fn.toNat
  let iw := encT (0x38 + m.val) fn.toNat f
  runInstr s c ⟨iw, !(mayRun s (issueWorld s c) (keyShare key))⟩ fun _ => throw (.badInsn iw)

/-- An uncommitted segment has used its 1,024 cycles (R217): CS_BOUND in the running routine. -/
def execCsBoundExceeded (c : Fin 96) (s : State) : Host.Outcome State Fault Refusal :=
  .next (match s.issuable c with
    | none => s
    | some b =>
      match (s.bank c b).micro with
      | some m => (s.takeFault c b cMCHK (State.mchkTval 0x42 m.u) m.iw.toNat false false).getD (s.tsbMiss c b)
      | none => s)

end Sys2Proof.Machine
end

