-- ==== Sys2Proof/Machine/Control.lean ====
section
/-! DEFINITION. The control instructions (R103): yoking (R298-R301, R310), WAITE (R194, R195), ASYNC (R176), DISPATCHSYNC
(R208), PLOTSYNC (R135, R136), WCS (R225, R226); yoke ticks (R300, R305); control-store repair (R219); the taking of a
pending item at a boundary (R174, R176, R177). -/

namespace Sys2Proof.Machine

namespace State

/-- A coherent agent writes back and gives up every line it holds (R205, R299). -/
def flushAgent (s : State) (a : Nat) : State :=
  let gs := s.mem.lines.filterMap fun (k, _) => if k / 2 ^ 34 == a then some (k % 2 ^ 34) else none
  let s := gs.foldl (fun s g =>
    match s.agLine a g with
    | some l => (if l.st == LineSt.m then s.homeWb a g l.line else s.homeEvn a g).dropLine a g
    | none => s) s
  let vs := s.mem.victims.filterMap fun (k, _) => if k / 2 ^ 34 == a then some (k % 2 ^ 34) else none
  vs.foldl (fun s g => s.settle g) s

/-- Everything a core caches for itself goes: first-level lines, side buffer, locks (R205, R299). -/
def dropCoreCaches (s : State) (c : Nat) : State :=
  (s.modMem fun m => { m with upL1 := m.upL1.filter (·.1 != c) }).modCore c
    fun x => { x with l1i := [], l1d := [], side := [], locks := [] }

/-- Step 5 of R299: the even core's banks, special registers, event counter values among them, and dispatch copy go to the odd
core; the escalation set there stays `own`. -/
def copyOver (s : State) (p : Nat) (own : Tbl Word) : State :=
  let e := 2 * p
  let o := 2 * p + 1
  let s := (s.syncOdd p).modCore o fun x => { x with
    esc := own, dcopy := (s.core e).dcopy, dloaded := (s.core e).dloaded }
  (List.range 8).foldl (fun s n => s.setReg (dbgBase o + 0x240 + 8 * n) (s.reg (dbgBase e + 0x240 + 8 * n))) s

/-- The hand-over of R299, steps 2 to 6, at a yoke tick: none while a store buffer of the pair still drains. The mismatch record
of an earlier lockstep is cleared, and the hand-over counted (R311). -/
def handOver (s : State) (p : Nat) (b : Fin 4) : Option State :=
  let e := 2 * p
  let o := 2 * p + 1
  if !((s.core e).sb.isEmpty) || !((s.core o).sb.isEmpty) then none
  else
    let own := (s.core o).esc
    let s := [(0 : Fin 4), 1, 2, 3].foldl (fun s b => s.drainMD e b) s
    let s := ((s.dropResv e).dropResv o).flushAgent o
    let s := (s.dropCoreCaches o).modCore o fun x => { x with itlb := [], dtlb := [], l2tlb := [], sbHeld := false }
    let s := s.modCore e fun x => { x with itlb := [], dtlb := [], l2tlb := [], side := [] }
    let s := s.copyOver p own
    let s := (s.setYK p true).setPairMode p 2
    let s := (s.modPair p fun x => { x with handover := none, micro := [] }).retire e b .fall
    let s := [0x10, 0x18, 0x20, 0x28, 0x30].foldl (fun s r => s.setReg (pairBase p + r) 0) s
    some (s.incF (pairBase p + 0x38) 63 0 1)

/-- The release of R301, steps 2 to 5, at a yoke tick: none while the store path still drains. -/
def yokeRelease (s : State) (p : Nat) (b : Fin 4) (start : Val) : Option State :=
  let e := 2 * p
  let o := 2 * p + 1
  if !((s.core e).sb.isEmpty) then none
  else
    let s := s.syncOdd p
    let s := (s.setPairMode p 0).setYK p false
    let s := s.modPair p fun x => { x with release := none }
    let s := [(0 : Fin 4), 1, 2, 3].foldl (fun s t => s.modBank o t fun k =>
      if t == b then
        { k with st := 1, wcause := 0, pc := start, btmr := 0, bevt := 0, wait := none, micro := none, rej := false }
      else { ({} : Bank) with status := { ({} : Status) with wld := k.status.wld }, pri := k.pri }) s
    let s := s.modCore o fun x => { x with
      run := none, lastRun := b, mchk0 := [], mchk1 := [], gcInt0 := false, gcInt1 := false, inEsc := false, sb := [] }
    let s := [0, 1].foldl (fun s w => [8, 0x10, 0x18].foldl (fun s r => s.setReg (worldRegs o w + r) 0) s) s
    let s := (List.range 8).foldl (fun s n => s.setRegF (dbgBase o + 0x200 + 8 * n) 24 24 0) s
    some ((s.retire e b .fall).releaseLatch p)

/-- The latch of a pair gives its contents to the even core (R305). -/
def tickLatch (s : State) (p : Nat) : State := s.releaseLatch p

/-- A yoke tick of a pair (R66, R300, R305). -/
def yokeTick (s : State) (p : Nat) : State :=
  let s := s.modPair p fun x => { x with timel := v64 (s.cycle / 256 * 256) }
  let m := s.pairMode p
  if m == 1 then
    match (s.pair p).handover with
    | some b =>
      match s.handOver p b with
      | some t => t.tickLatch p
      | none => s
    | none => s
  else if m == 2 then
    match (s.pair p).release with
    | some (b, v) => (s.yokeRelease p b v).getD (s.tickLatch p)
    | none => s.tickLatch p
  else s

end State

/-- A tick is in the cycle in which TIMEC reaches a multiple of 256 (R300); in any other cycle nothing happens. -/
def execYokeTick (p : Fin 48) (s : State) : Host.Outcome State Fault Refusal :=
  .next (if s.cycle % 256 == 0 then s.yokeTick p.val else s)

/-- A YOKE fault with its reason (R298). -/
def yokeFault (p : Bool) (reason : Nat) : M Unit := faultIf p cYOKE (v64 reason)

def execYokeOn (c : Fin 96) (f : TForm) (s : State) : Host.Outcome State Fault Refusal :=
  runInstr s c (tEnc 0x15 0 f false false false 0) fun cx => do
    let s ← get
    let p := pairOf cx.c
    let o := 2 * p + 1
    if (s.core cx.c).inEsc then throw (.freeze vESCFAULT 0)
    yokeFault (cx.c % 2 == 1) 1
    yokeFault (s.pairMode p != 0) 2
    yokeFault (!(bit (s.feat cx.c cx.b 0x38) 16) || !(bit (s.reg (pairBase p + 8)) 0)) 3
    let bad (b : Fin 4) : Bool :=
      let k := s.bank o b
      k.st == 1 || k.st == 2 || k.st == 3 || (k.st == 4 && k.status.wld != cx.w)
    yokeFault (bad 0 || bad 1 || bad 2 || bad 3) 4
    let x := s.core o
    yokeFault (x.frozen || x.pg || x.halted) 5
    set ((s.setPairMode p 1).modPair p fun y => { y with handover := some cx.b })
    return .hold

def execYokeOff (c : Fin 96) (f : TForm) (s : State) : Host.Outcome State Fault Refusal :=
  runInstr s c (tEnc 0x15 1 f false true false 0) fun cx => do
    let a ← srcReg cx f.rs1.toNat
    want (a.type == tyCODE || isRw a) f.rs1.toNat
    let t := if a.type == tyCODE then a.val + 16 else a.val
    faultIf (bits t 63 48 != 0) cPAGENP t
    faultIf (bits t 1 0 != 0) cALIGN t
    let s ← get
    yokeFault (s.pairMode (pairOf cx.c) != 2) 2
    set (s.modPair (pairOf cx.c) fun y => { y with release := some (cx.b, t) })
    return .hold

/-- The lowest set bit of a WAITE mask (R195). -/
def lowBit (n : Nat) : Nat := ((List.range 4).find? fun i => n.testBit i).getD 0

def execWaite (c : Fin 96) (f : IForm) (s : State) : Host.Outcome State Fault Refusal :=
  runInstr s c (iEnc 0x15 2 f true false 4) fun cx => do
    let mask := f.imm.toNat % 16
    faultIf (mask == 0) cILLEGAL 0
    let k ← getBank cx
    let hit := k.bevt.toNat &&& mask
    if hit == 0 then throw (.wait { cause := 1, mask := mask })
    else
      let j := lowBit hit
      modB cx fun k => { k with bevt := k.bevt &&& ~~~(1#4 <<< j) }
      done cx f.rd.toNat (fixWord (v64 (2 ^ j)))

def execAsync (c : Fin 96) (f : TForm) (s : State) : Host.Outcome State Fault Refusal :=
  runInstr s c (tEnc 0x15 3 f false false false 0) fun cx => do
    modify fun s => s.drainMD cx.c cx.b
    if (← getBank cx).status.impp && !((← get).core cx.c).inEsc then throw .imprecise
    return .fall

def execDispatchsync (c : Fin 96) (f : TForm) (s : State) : Host.Outcome State Fault Refusal :=
  runInstr s c (tEnc 0x15 4 f false false false 0) fun cx => do
    modify fun s => s.dispatchLoad cx.c
    return .fall

/-- The changes of a plot entry that R136 allows in a phase; states 0 Free, 1 Normal, 2 Condemned, 3 Evacuating. -/
def plotChangeOk (phase : Nat) (old new : Val) : Bool :=
  let a := bits old 1 0
  let b := bits new 1 0
  let early := decide (phase ≤ 1)
  let idle := phase == 0
  let wnwOk := bits old 19 16 == bits new 19 16 || idle
  let only (keepMask : Nat) : Bool := (old &&& v64 keepMask) == (new &&& v64 keepMask)
  if a == 0 && (b == 0 || b == 1) then wnwOk
  else if a == 1 && (b == 0 || b == 1) then wnwOk
  else if a == 1 && b == 2 then early && !(bit old 9) && !(bit new 9) && wnwOk
  else if a == 2 && (b == 1 || b == 2) then early && wnwOk && only (mask 9 9)
  else if a == 2 && b == 0 then idle
  else false

def execPlotsync (c : Fin 96) (f : TForm) (s : State) : Host.Outcome State Fault Refusal :=
  runInstr s c (tEnc 0x15 5 f false true true 0) fun cx => do
    let p ← srcReg cx f.rs1.toNat
    let e ← srcReg cx f.rs2.toNat
    want (p.tag == 0x01 && decide (p.val.toNat < 32768)) f.rs1.toNat
    want (e.tag == 0x16) f.rs2.toNat
    let s ← get
    let n := p.val.toNat
    let old := s.reg (rPLOT n)
    faultIf (bit old 8 != cx.w || bit e.val 8 != bit old 8) cPRIV 0
    let wnw := bits e.val 19 16
    want (bits e.val 63 32 == 0 && !(bit e.val 30) && bits e.val 23 20 == 0 && bits e.val 15 10 == 0 && bits e.val 7 5 == 0 &&
      decide (wnw ≤ 11) && bit (s.reg (wnwBase wnw)) 1 && plotChangeOk (s.gcPhase cx.w) old e.val) f.rs2.toNat
    set (s.setReg (rPLOT n) e.val)
    return .fall

/-- The RAW source words of a WCS step. -/
def wcsWords (cx : Ctx) : Nat → Val → M (List Val)
  | 0, _ => return []
  | n + 1, ea => do
    let w ← loadWord cx ea mtNoDev false
    faultIf (w.tag != 0x16) cTYPE ea
    return w.val :: (← wcsWords cx n (ea + 8))

def execWcs (c : Fin 96) (f : TForm) (s : State) : Host.Outcome State Fault Refusal :=
  runInstr s c (tEnc 0x15 6 f false true true 0) fun cx => do
    faultIf (!(bit ((← get).reg rCSGRANT) (wn cx.w))) cPRIV 0
    let d ← srcReg cx f.rs1.toNat
    let a ← srcReg cx f.rs2.toNat
    let a ← await cx a
    want (d.tag == 0x01 && bits d.val 63 48 == 0 && bits d.val 31 18 == 0 && bits d.val 15 14 == 0) f.rs1.toNat
    want ((← get).isPtr a.type || isRw a) f.rs2.toNat
    let count := bits d.val 47 32
    let kind := bits d.val 17 16
    let index := bits d.val 13 0
    if count == 0 then return .fall
    else
      let s ← get
      match targetShare kind index with
      | none => fault cPRIV 0
      | some j =>
        let owner := shareOwner s j
        faultIf (owner != 1 + wn cx.w) cPRIV 0
        let n := if kind == 1 then 3 else 1
        let xs ← wcsWords cx n a.val
        faultIf (!(loadOk (← get) owner kind index xs)) cTYPE a.val
        modify fun s => s.csWrite kind index xs
        putReg cx f.rs1.toNat (fixWord (v64 (fld 32 (count - 1) + fld 16 kind + (index + 1) % 2 ^ 14)))
        putReg cx f.rs2.toNat (rawWord (a.val + v64 (8 * n)))
        return .again

/-- The number of a control-store structure in CSLAST (R229). -/
def csStoreNo : CsStore → Nat
  | .micro => 0
  | .nano => 1
  | .dispatch => 2
  | .attr => 3

/-- Copy `k` of a control-store word, 12 + c for the dispatch copy of core `c`, fails parity on a fetch by core `c` in world
`w` (R219): it is repaired when a good copy is left; the machine check is a fault of an uncommitted routine that runs and an
event otherwise (R218). Only dispatch entries have a copy in a core. -/
def execCsParityRepair (k : Fin 108) (st : CsStore) (adr : BitVec 14) (w : Fin 2) (c : Fin 96) (s : State) :
    Host.Outcome State Fault Refusal :=
  let n := csStoreNo st
  let world := w.val == 1
  if 12 ≤ k.val && n != 2 then .next s
  else
    let s0 := s
    let (good, s) := s.csRepair k.val n adr.toNat
    let reason := if good then 0x40 else 0x41
    let routine : Option (Fin 4 × MicroSt) := match s.issuable c with
      | some b => (s.bank c b).micro.map fun m => (b, m)
      | none => none
    let (u, s) : Nat × State := if n == 0 then (adr.toNat, s)
      else match routine with
        | some (_, m) => (m.u, s)
        | none => let (v, s) := s.freeVal; (v.toNat % 2 ^ 14, s)
    .next (match routine with
      | some (b, m) =>
        if (s.bank c b).status.wld == world then (s.takeFault c b cMCHK (State.mchkTval reason u) m.iw.toNat false false).getD (s0.tsbMiss c b)
        else s.sendMchk c world (State.mchkTval reason u)
      | none => s.sendMchk c world (State.mchkTval reason u))

/-- The Running bank takes the item of R174 that applies to it. -/
def execTrapEntry (c : Fin 96) (s : State) : Host.Outcome State Fault Refusal :=
  .next (match s.issuable c with
    | none => s
    | some b =>
      match s.pendingItem c b with
      | some it => (s.takeItem c b it).getD (s.tsbMiss c b)
      | none => s)

/-- The due imprecise exception is reported at the boundary (R176). -/
def execImpreciseExceptionDue (c : Fin 96) (s : State) : Host.Outcome State Fault Refusal :=
  .next (match s.issuable c with
    | none => s
    | some b =>
      match s.pendingItem c b with
      | some .imprecise => (s.takeItem c b .imprecise).getD (s.tsbMiss c b)
      | _ => s)

end Sys2Proof.Machine
end

