-- ==== Sys2Proof/Machine/Generic.lean ====
section
/-! DEFINITION. Generic arithmetic and compares (R105-R114), ESCRD and ESCWR (R119), and the generic routines of Allotment
types (R223). -/

namespace Sys2Proof.Machine

/-- The operand categories of R105. -/
inductive Cat where
  | fix
  | flo
  | x
  | o
deriving DecidableEq, Repr

def catOf (w : Word) : Cat :=
  if w.type == tyFIX then .fix
  else if w.type == tyFLO then .flo
  else if w.type == tyBIGNUM || w.type == tyRATIO then .x
  else .o

/-- An operand of a GEN type that the world may run (R223): the entry of its routine. -/
def genEntry (s : State) (w : Bool) (x : Word) : Option Nat :=
  if 0x20 ≤ x.type then
    let a := s.reg (rTATTR x.type)
    if bit a 30 && mayRun s w (typeShare x.type) then some (bits a 13 0) else none
  else none

/-- What a generic operation answers: a word, a word by way of a microcode fast path, or an escape. -/
inductive GRes where
  | word (w : Word)
  | esc (cls : Nat)
deriving DecidableEq, Repr

/-- The instruction word of a generic instruction. -/
def gWord (major func : Nat) (f : TForm) : Nat := encT major func f

/-- Run a generic instruction of one or two operands: FUTURE operands, the Allotment routine, the type-pair table. `micro`
tells that the operation runs in microcode (R114). Of two source registers with words that R26 refuses, rs1 is reported (DESIGN
CHOICE, log entry 148). -/
def runG (s : State) (c major func : Nat) (f : TForm) (e : Enc) (two micro : Bool) (op : Word → Word → GRes) :
    Host.Outcome State Fault Refusal :=
  runInstr s c e fun cx => withRoutine cx (gWord major func f) do
    let a0 ← srcReg cx f.rs1.toNat
    let b0 ← if two then srcReg cx f.rs2.toNat else pure nilWord
    let a ← await cx a0
    let b ← if two then await cx b0 else pure nilWord
    let s ← get
    let gen := match genEntry s cx.w a with
      | some x => some x
      | none => if two then genEntry s cx.w b else none
    match gen with
    | some entry => runRoutine cx entry (gWord major func f) (pure (nilWord, a, b))
    | none =>
      match op a b with
      | .word w => do
        modify fun s => s.countEvent cx.c (if micro then 15 else 3) 1
        done cx f.rd.toNat w
      | .esc n => throw (.escape n)

/-- A FIX result, or the escape OVERFLOW. -/
def gFix (x : Int) : GRes := if inFix x then .word (fixWord (i64 x)) else .esc eOVERFLOW

/-- A numeric operand as binary64 (R110). -/
def gFlo (w : Word) : Val := if w.type == tyFIX then flOfFix w.val else w.val

/-- The type-pair table of R109 and its operations. -/
def gArith (fx : Int → Int → Int) (fl : Val → Val → FlRes) (a b : Word) : GRes :=
  match catOf a, catOf b with
  | .o, _ => .esc eTYPE
  | _, .o => .esc eTYPE
  | .x, _ => .esc eNUMERIC
  | _, .x => .esc eNUMERIC
  | .fix, .fix => gFix (fx a.val.toInt b.val.toInt)
  | _, _ => .word (floWord (fl (gFlo a) (gFlo b)).v)

def execAddG (c : Fin 96) (f : TForm) (s : State) : Host.Outcome State Fault Refusal :=
  runG s c 0x18 0 f (tEnc 0x18 0 f true true true 0) true false (gArith (· + ·) flAdd)

def execSubG (c : Fin 96) (f : TForm) (s : State) : Host.Outcome State Fault Refusal :=
  runG s c 0x18 1 f (tEnc 0x18 1 f true true true 0) true false (gArith (· - ·) flSub)

def execMulG (c : Fin 96) (f : TForm) (s : State) : Host.Outcome State Fault Refusal :=
  runG s c 0x18 2 f (tEnc 0x18 2 f true true true 0) true true (gArith (· * ·) flMul)

/-- The conditions of R111 that all three divisions share, before the table's last rows. -/
def gDivide (floOk : Bool) (fx : Int → Int → GRes) (a b : Word) : GRes :=
  let ca := catOf a
  let cb := catOf b
  if ca == .o || cb == .o || (!floOk && (ca == .flo || cb == .flo)) then .esc eTYPE
  else if cb == .fix && b.val == 0 then .esc eDIVZERO
  else if ca == .x || cb == .x then .esc eNUMERIC
  else if ca == .flo || cb == .flo then .word (floWord (flDiv (gFlo a) (gFlo b)).v)
  else fx a.val.toInt b.val.toInt

def execDivG (c : Fin 96) (f : TForm) (s : State) : Host.Outcome State Fault Refusal :=
  runG s c 0x18 3 f (tEnc 0x18 3 f true true true 0) true true (gDivide true fun x y =>
    if x.tmod y == 0 then gFix (x.tdiv y) else .esc eQUOTIENT)

def execQuoG (c : Fin 96) (f : TForm) (s : State) : Host.Outcome State Fault Refusal :=
  runG s c 0x18 4 f (tEnc 0x18 4 f true true true 0) true true (gDivide false fun x y => gFix (x.tdiv y))

def execRemG (c : Fin 96) (f : TForm) (s : State) : Host.Outcome State Fault Refusal :=
  runG s c 0x18 5 f (tEnc 0x18 5 f true true true 0) true true (gDivide false fun x y => gFix (x.tmod y))

/-- A one-operand operation of R112. -/
def gOne (fx : Val → GRes) (fl : Val → GRes) (a _b : Word) : GRes :=
  match catOf a with
  | .fix => fx a.val
  | .flo => fl a.val
  | .x => .esc eNUMERIC
  | .o => .esc eTYPE

def execNegG (c : Fin 96) (f : TForm) (s : State) : Host.Outcome State Fault Refusal :=
  runG s c 0x18 6 f (tEnc 0x18 6 f true true false 0) false false
    (gOne (fun v => gFix (-v.toInt)) fun v => .word (floWord (flNeg v)))

def execAbsG (c : Fin 96) (f : TForm) (s : State) : Host.Outcome State Fault Refusal :=
  runG s c 0x18 7 f (tEnc 0x18 7 f true true false 0) false false
    (gOne (fun v => gFix v.toInt.natAbs) fun v => .word (floWord (flAbs v)))

def execAddiG (c : Fin 96) (f : TForm) (s : State) : Host.Outcome State Fault Refusal :=
  runG s c 0x1B 0 f (tEnc 0x1B 0 f true true false 7) false false
    (gOne (fun v => gFix (v.toInt + f.ext.toInt)) fun v => .word (floWord (flAdd v (flOfFix (i64 f.ext.toInt))).v))

def execFloatG (c : Fin 96) (f : TForm) (s : State) : Host.Outcome State Fault Refusal :=
  runG s c 0x1A 0 f (tEnc 0x1A 0 f true true false 0) false false
    (gOne (fun v => .word (floWord (flOfFix v))) fun v => .word (floWord v))

/-- TRUNC.G of a FLO (R112). -/
def gTrunc (v : Val) : GRes :=
  match flDecode v with
  | .nan _ => .esc eTYPE
  | _ => match flToFix v with
    | some x => .word (fixWord x)
    | none => .esc eOVERFLOW

def execTruncG (c : Fin 96) (f : TForm) (s : State) : Host.Outcome State Fault Refusal :=
  runG s c 0x1A 1 f (tEnc 0x1A 1 f true true false 0) false false (gOne (fun v => .word (fixWord v)) gTrunc)

def execZeropG (c : Fin 96) (f : TForm) (s : State) : Host.Outcome State Fault Refusal :=
  runG s c 0x1A 2 f (tEnc 0x1A 2 f true true false 0) false false fun a _ =>
    match catOf a with
    | .fix => .word (boolWord (a.val == 0))
    | .flo => .word (boolWord (flEq a.val 0))
    | .x => .word nilWord
    | .o => .esc eTYPE

def execNumpG (c : Fin 96) (f : TForm) (s : State) : Host.Outcome State Fault Refusal :=
  runG s c 0x1A 3 f (tEnc 0x1A 3 f true true false 0) false false fun a _ => .word (boolWord (catOf a != .o))

/-- A numeric operand as an exact number (R113). -/
def gNum (w : Word) : FNum := if w.type == tyFIX then numOfFix w.val else flDecode w.val

/-- The type-pair table of the generic compares (R113). -/
def gCmp (num : Option Ordering → Bool) (chr : Nat → Nat → Bool) (a b : Word) : GRes :=
  let ca := catOf a
  let cb := catOf b
  if a.type == tyCHAR && b.type == tyCHAR then .word (boolWord (chr a.val.toNat b.val.toNat))
  else if ca == .o || cb == .o then .esc eTYPE
  else if ca == .x || cb == .x then .esc eNUMERIC
  else .word (boolWord (num (numCmp (gNum a) (gNum b))))

def execCmpGEq (c : Fin 96) (f : TForm) (s : State) : Host.Outcome State Fault Refusal :=
  runG s c 0x19 0 f (tEnc 0x19 0 f true true true 0) true false (gCmp (· == some .eq) (· == ·))

def execCmpGLt (c : Fin 96) (f : TForm) (s : State) : Host.Outcome State Fault Refusal :=
  runG s c 0x19 1 f (tEnc 0x19 1 f true true true 0) true false (gCmp (· == some .lt) fun x y => decide (x < y))

def execCmpGLe (c : Fin 96) (f : TForm) (s : State) : Host.Outcome State Fault Refusal :=
  runG s c 0x19 2 f (tEnc 0x19 2 f true true true 0) true false
    (gCmp (fun o => o == some .eq || o == some .lt) fun x y => decide (x ≤ y))

def execCmpGEql (c : Fin 96) (f : TForm) (s : State) : Host.Outcome State Fault Refusal :=
  runG s c 0x19 3 f (tEnc 0x19 3 f true true true 0) true false fun a b =>
    if identical a b then .word trueWord
    else if a.type == b.type && (a.type == tyBIGNUM || a.type == tyRATIO) then .esc eNUMERIC
    else .word nilWord

/-- The word at ESCPC − 4, fetched with execute rights (R119): the specifier that ext[1:0] selects. -/
def escSpec (cx : Ctx) (sel : Nat) : M Nat := do
  let a := pcOf ((← getBank cx).escpc - 4)
  let (pa, mt) ← translate cx a.toNat .fetch
  let s ← get
  faultIf (unassigned s pa) cMCHK (State.mchkTval 1 pa)
  faultIf (mt == .bin || mt == .device) cPAGEPROT a
  let l ← memLine cx pa mt true
  faultIf l.poison cPOISON a
  let w := l.word (pa / 8 % 8)
  faultIf (w.tag != 0x16) cILLEGAL a
  let iw := bits w.val 31 0
  let iw := if pa % 8 == 4 then bits w.val 63 32 else iw
  return (if sel == 0 then iw / 2 ^ 21 % 32 else if sel == 1 then iw / 2 ^ 16 % 32 else iw / 2 ^ 11 % 32)

def execEscrd (c : Fin 96) (f : TForm) (s : State) : Host.Outcome State Fault Refusal :=
  runInstr s c ⟨encT 0x1B 8 f, f.rs1 != 0 || f.rs2 != 0 || decide (3 ≤ f.ext.toNat)⟩ fun cx => do
    let n ← escSpec cx f.ext.toNat
    let w ← srcReg cx n
    done cx f.rd.toNat (← await cx w)

def execEscwr (c : Fin 96) (f : TForm) (s : State) : Host.Outcome State Fault Refusal :=
  runInstr s c ⟨encT 0x1B 9 f, f.rd != 0 || f.rs2 != 0 || decide (3 ≤ f.ext.toNat)⟩ fun cx => withRoutine cx (gWord 0x1B 9 f) do
    let w ← srcReg cx f.rs1.toNat
    let w ← await cx w
    match genEntry (← get) cx.w w with
    | some entry => runRoutine cx entry (gWord 0x1B 9 f) (pure (nilWord, w, nilWord))
    | none => do
      let n ← escSpec cx f.ext.toNat
      done cx n w

end Sys2Proof.Machine
end

