-- ==== Sys2Proof/Machine/ListOps.lean ====
section
/-! DEFINITION. List operations, allocation, vectors and the long instructions (R121-R130). -/

namespace Sys2Proof.Machine

/-- A source register with a FUTURE waited on (R107): the register's checks come first for every source. -/
def listSrc (cx : Ctx) (spec : Nat) : M Word := do await cx (← srcReg cx spec)

/-- An instruction that R131 makes hardwired counts a fast path, one that runs in microcode a routine entry. -/
def countPath (cx : Ctx) (micro : Bool) : M Unit := modify fun s => s.countEvent cx.c (if micro then 15 else 3) 1

/-- A load of this chapter: cacheable or bin memory, through the read barrier (R129). -/
def listLoad (cx : Ctx) (ea : Val) : M Word := loadWord cx ea mtCB false

/-- CAR and CDR (R122). -/
def runCar (s : State) (c func : Nat) (f : TForm) (off : Nat) : Host.Outcome State Fault Refusal :=
  runInstr s c (tEnc 0x1C func f true true false 0) fun cx => do
    let x ← listSrc cx f.rs1.toNat
    if x.type == tyNIL then
      countPath cx false
      done cx f.rd.toNat nilWord
    else if x.type == tyCONS then
      let w ← loadWord cx (x.val + v64 (8 * off)) mtNoDev false
      countPath cx false
      done cx f.rd.toNat w
    else if x.type == tyREMOTE then done cx f.rd.toNat (← remoteCell cx x off)
    else throw (.escape eTYPE)

def execCar (c : Fin 96) (f : TForm) (s : State) : Host.Outcome State Fault Refusal := runCar s c 0 f 0
def execCdr (c : Fin 96) (f : TForm) (s : State) : Host.Outcome State Fault Refusal := runCar s c 1 f 1

/-- SETCAR and SETCDR (R123). -/
def runSetcar (s : State) (c func : Nat) (f : TForm) (off : Nat) : Host.Outcome State Fault Refusal :=
  runInstr s c (tEnc 0x1C func f false true true 0) fun cx => do
    let x ← srcReg cx f.rs1.toNat
    let v ← srcReg cx f.rs2.toNat
    let x ← await cx x
    let v ← await cx v
    if x.type != tyCONS && x.type != tyREMOTE then throw (.escape eTYPE)
    storeChecks cx x f.rs1.toNat v f.rs2.toNat
    if x.type == tyREMOTE then
      wantRemotable v f.rs2.toNat
      remotePosted cx x (fixWord (v64 off)) v
    else storeWord cx (x.val + v64 (8 * off)) v mtNoDev true true f.rs2.toNat
    countPath cx true
    return .fall

def execSetcar (c : Fin 96) (f : TForm) (s : State) : Host.Outcome State Fault Refusal := runSetcar s c 2 f 0
def execSetcdr (c : Fin 96) (f : TForm) (s : State) : Host.Outcome State Fault Refusal := runSetcar s c 3 f 1

/-- Two addresses lie in one plot. -/
def samePlot (a b : Nat) : Bool := a / 2 ^ 21 == b / 2 ^ 21

/-- An initialising write (R125) up to its place in the store buffer: translation and the remembered-set barrier. -/
def initPrep (cx : Ctx) (a : Nat) (w : Word) : M (Nat × MemType) := do
  let (pa, mt) ← access cx (v64 a) 8 .write mtNoDev
  storePoison cx (v64 a) pa mt
  dataBrk cx a false true w.tag
  rsBarrier cx (v64 a) w true
  return (pa, mt)

/-- The write itself: nothing goes to the SATBLOG. -/
def initPush (cx : Ctx) (a : Nat) (at_ : Nat × MemType) (w : Word) : M Unit := sbPush cx a at_.1 at_.2 (.word w) false

/-- The mark bit of an object allocated while STATUS.MK is set (R144, R158); one whose bitmap cannot be reached now is set
at a boundary (R150). -/
def markNew (cx : Ctx) (a : Nat) (p : Word) : M Unit := do
  let s ← get
  let k ← getBank cx
  if k.status.mrk && (s.inHeap cx.w a).isSome then
    let j := wnwOf s cx.w a
    let work : WM Unit := do
      setMarkBit j cx.w a true
      if p.type == tySYMBOL then setMarkBit j cx.w (a + 8) true
    match work s with
    | .ok _ s => set (s.modGcW cx.w fun g => { g with marked := g.marked ++ [(a, p)] })
    | .error (.stall, _) _ => throw .stall
    | .error (.wait q, _) _ => throw (.miss q)
    | .error (e, va) _ =>
      set ((wnwStop s cx.w va e).modGcW cx.w fun g => { g with marked := g.marked ++ [(a, p)], newMarks := g.newMarks ++ [(a, p)] })

def execCons (c : Fin 96) (f : TForm) (s : State) : Host.Outcome State Fault Refusal :=
  runInstr s c (tEnc 0x1C 4 f true true true 0) fun cx => do
    let x ← srcReg cx f.rs1.toNat
    let y ← srcReg cx f.rs2.toNat
    let x ← await cx x
    let y ← await cx y
    want (cx.lvl || x.type != tyHEADER) f.rs1.toNat
    want (cx.lvl || y.type != tyHEADER) f.rs2.toNat
    let k ← getBank cx
    let a := k.allocp.toNat
    escapeIf (decide (k.allocl.toNat < a + 16) || !(samePlot a (a + 8))) eALLOC
    sbRoom cx 2
    let p ← initPrep cx a x
    let q ← initPrep cx (a + 8) y
    initPush cx a p x
    initPush cx (a + 8) q y
    markNew cx a (mkWord tyCONS (v64 a))
    modB cx fun k => { k with allocp := v64 (a + 16) }
    countPath cx true
    done cx f.rd.toNat (mkWord tyCONS (v64 a))

/-- ALLOC and ALLOC.I (R124); `ls` is the length's register, none for an immediate. -/
def alloc (cx : Ctx) (d : Word) (sd : Nat) (n : Int) (ls : Option Nat) (rd : Nat) : M Flow := do
  let s ← get
  let t := bits d.val 5 0
  let sub := bits d.val 15 8
  let lenBad (p : Bool) : M Unit := faultIf p cTYPE (match ls with | some r => regTval r | none => 0)
  want (bits d.val 63 16 == 0 && bits d.val 7 6 == 0) sd
  let small := t == tySYMBOL || t == tyRATIO
  want (small || [tyVECTOR, tySTRING, tyBIGNUM, tyCLOSURE, tyCODE].contains t || s.isAllotPtr t) sd
  want (!small || sub == 0) sd
  if small then lenBad (n != 0) else lenBad (decide (n < 0) || decide ((2 ^ 48 : Int) ≤ n))
  let size := if t == tySYMBOL then 4 else if t == tyRATIO then 2 else 1 + n.toNat
  let k ← getBank cx
  let a := k.allocp.toNat
  escapeIf (decide (262144 < size) || decide (k.allocl.toNat < a + 8 * size) || !(samePlot a (a + 8 * size - 8))) eALLOC
  if !small then
    let h := mkWord tyHEADER (v64 (fld 48 sub + n.toNat))
    sbRoom cx 1
    initPush cx a (← initPrep cx a h) h
  markNew cx a (mkWord t (v64 a))
  modB cx fun k => { k with allocp := v64 (a + 8 * size) }
  countPath cx true
  done cx rd (mkWord t (v64 a))

def execAlloc (c : Fin 96) (f : TForm) (s : State) : Host.Outcome State Fault Refusal :=
  runInstr s c (tEnc 0x1C 5 f true true true 0) fun cx => do
    let d ← srcReg cx f.rs1.toNat
    let n ← srcReg cx f.rs2.toNat
    let d ← await cx d
    let n ← await cx n
    want (isF d) f.rs1.toNat
    want (isF n) f.rs2.toNat
    alloc cx d f.rs1.toNat n.val.toInt (some f.rs2.toNat) f.rd.toNat

def execAllocI (c : Fin 96) (f : IForm) (s : State) : Host.Outcome State Fault Refusal :=
  runInstr s c (iEnc 0x1C 8 f true true 12) fun cx => do
    let d ← listSrc cx f.rs1.toNat
    want (isF d) f.rs1.toNat
    alloc cx d f.rs1.toNat f.imm.toNat none f.rd.toNat

/-- A vector's header and the bounds test of R126: the address of the element. -/
def vecElem (cx : Ctx) (v i : Word) : M Val := do
  let h ← loadWord cx v.val mtNoDev false
  faultIf (h.type != tyHEADER) cTYPE v.val
  escapeIf (decide (i.val.toInt < 0) || decide (bits h.val 47 0 ≤ i.val.toNat)) eBOUNDS
  return v.val + 8 * (1 + i.val)

/-- The operand tests of VREF and VSET. -/
def vecOps (v i : Word) : M Unit := do
  escapeIf (v.type == tyREMOTE) eREMOTE
  escapeIf (v.type != tyVECTOR && !((← get).isAllotPtr v.type)) eTYPE
  escapeIf (i.tag != 0x01) eTYPE

def execVref (c : Fin 96) (f : TForm) (s : State) : Host.Outcome State Fault Refusal :=
  runInstr s c (tEnc 0x1D 0 f true true true 0) fun cx => do
    let v ← srcReg cx f.rs1.toNat
    let i ← srcReg cx f.rs2.toNat
    let v ← await cx v
    let i ← await cx i
    vecOps v i
    let ea ← vecElem cx v i
    let w ← loadWord cx ea mtNoDev false
    countPath cx true
    done cx f.rd.toNat w

/-- VSET; source registers are checked from [25:21] on (DESIGN CHOICE, log entry 148). -/
def execVset (c : Fin 96) (f : TForm) (s : State) : Host.Outcome State Fault Refusal :=
  runInstr s c (tEnc 0x1D 1 f true true true 0) fun cx => do
    let x ← srcReg cx f.rd.toNat
    let v ← srcReg cx f.rs1.toNat
    let i ← srcReg cx f.rs2.toNat
    let x ← await cx x
    let v ← await cx v
    let i ← await cx i
    vecOps v i
    storeChecks cx v f.rs1.toNat x f.rd.toNat
    let ea ← vecElem cx v i
    storeWord cx ea x mtNoDev true true f.rd.toNat
    countPath cx true
    return .fall

def execVlen (c : Fin 96) (f : TForm) (s : State) : Host.Outcome State Fault Refusal :=
  runInstr s c (tEnc 0x1D 2 f true true false 0) fun cx => do
    let v ← listSrc cx f.rs1.toNat
    escapeIf (v.type == tyREMOTE) eREMOTE
    escapeIf (!((← get).isHeadered v.type)) eTYPE
    let h ← loadWord cx v.val mtNoDev false
    faultIf (h.type != tyHEADER) cTYPE v.val
    countPath cx true
    done cx f.rd.toNat (fixWord (v64 (bits h.val 47 0)))

/-- The encoding of a long instruction: two of the registers it writes may not be the same (R127). -/
def longEnc (func : Nat) (f : TForm) (ext : Nat) (same : Bool) : Enc :=
  let e := tEnc 0x1E func f true true true ext
  ⟨e.word, e.resv || same⟩

/-- The walk check of R129. -/
def walkCheck (l : Word) : M Unit := do
  escapeIf (l.type == tyREMOTE) eREMOTE
  escapeIf (l.type != tyCONS) eTYPE

/-- The next cursor of a walk: a FUTURE loaded there escapes TYPE before the step commits (R128). -/
def nextCursor (cx : Ctx) (a : Val) : M Word := do
  let d ← listLoad cx a
  escapeIf (d.type == tyFUTURE) eTYPE
  return d

def execAssq (c : Fin 96) (f : TForm) (s : State) : Host.Outcome State Fault Refusal :=
  runInstr s c (longEnc 0 f 0 (f.rd == f.rs2)) fun cx => do
    let key ← srcReg cx f.rs1.toNat
    let l ← srcReg cx f.rs2.toNat
    let key ← await cx key
    let l ← await cx l
    countPath cx true
    if l.type == tyNIL then done cx f.rd.toNat nilWord
    else
      walkCheck l
      let e ← listLoad cx l.val
      let hit ← if e.type == tyCONS then do pure (identical (← listLoad cx e.val) key) else pure false
      if hit then done cx f.rd.toNat e
      else
        escapeIf (e.type == tyREMOTE) eREMOTE
        escapeIf (e.type != tyCONS && e.type != tyNIL) eTYPE
        putReg cx f.rs2.toNat (← nextCursor cx (l.val + 8))
        return .again

def execMemq (c : Fin 96) (f : TForm) (s : State) : Host.Outcome State Fault Refusal :=
  runInstr s c (longEnc 1 f 0 (f.rd == f.rs2)) fun cx => do
    let key ← srcReg cx f.rs1.toNat
    let l ← srcReg cx f.rs2.toNat
    let key ← await cx key
    let l ← await cx l
    countPath cx true
    if l.type == tyNIL then done cx f.rd.toNat nilWord
    else
      walkCheck l
      if identical (← listLoad cx l.val) key then done cx f.rd.toNat l
      else
        putReg cx f.rs2.toNat (← nextCursor cx (l.val + 8))
        return .again

def execNthcdr (c : Fin 96) (f : TForm) (s : State) : Host.Outcome State Fault Refusal :=
  runInstr s c (longEnc 2 f 0 (f.rd == f.rs1 || f.rd == f.rs2 || f.rs1 == f.rs2)) fun cx => do
    let n ← srcReg cx f.rs1.toNat
    let l ← srcReg cx f.rs2.toNat
    let n ← await cx n
    let l ← await cx l
    countPath cx true
    escapeIf (n.tag != 0x01 || decide (n.val.toInt < 0)) eTYPE
    if n.val == 0 then done cx f.rd.toNat l
    else if l.type == tyNIL then done cx f.rd.toNat nilWord
    else
      walkCheck l
      let d ← nextCursor cx (l.val + 8)
      putReg cx f.rs2.toNat d
      putReg cx f.rs1.toNat (fixWord (n.val - 1))
      return .again

def execLen (c : Fin 96) (f : TForm) (s : State) : Host.Outcome State Fault Refusal :=
  runInstr s c (longEnc 3 f 0 (f.rd == f.rs1 || f.rd == f.rs2 || f.rs1 == f.rs2)) fun cx => do
    let l ← srcReg cx f.rs1.toNat
    let n ← srcReg cx f.rs2.toNat
    let l ← await cx l
    let n ← await cx n
    countPath cx true
    escapeIf (n.tag != 0x01) eTYPE
    if l.type == tyNIL then done cx f.rd.toNat n
    else
      walkCheck l
      escapeIf (n.val == 0x7FFFFFFFFFFFFFFF) eOVERFLOW
      let d ← nextCursor cx (l.val + 8)
      putReg cx f.rs1.toNat d
      putReg cx f.rs2.toNat (fixWord (n.val + 1))
      return .again

/-- The count, address and alignment checks of COPYW and SCANT (R130). -/
def blockOps (n : Word) (sn : Nat) (as : List (Word × Nat)) : M Unit := do
  want (n.tag == 0x01 && decide (0 ≤ n.val.toInt)) sn
  let s ← get
  match as.find? fun (a, _) => !(s.isPtr a.type || isRw a) with
  | some (_, r) => want false r
  | none => pure ()

/-- The words of a step: up to the end of the 64-byte granule of the limiting address. -/
def stepWords (n : Nat) (a : Val) : Nat := min n (8 - a.toNat % 64 / 8)

/-- Copy up to so many words upward one at a time (R130), after `j` that the step has copied: how many are copied. A word
that has to wait for another unit, for its own step's stores among others (R235, R242), ends a step that has copied some. -/
def copyGo (cx : Ctx) (spec : Nat) : Nat → Nat → Val → Val → M Nat
  | 0, j, _, _ => return j
  | k + 1, j, src, dst => do
    let one : M Unit := do storeWord cx dst (← loadWord cx src mtNoDev true) mtNoDev true true spec
    match one.run (← get) with
    | .ok _ s => do
      set s
      copyGo cx spec k (j + 1) (src + 8) (dst + 8)
    | .error .stall _ => if j == 0 then throw .stall else return j
    | .error (.miss q) _ => if j == 0 then throw (.miss q) else return j
    | .error e s => do
      set s
      throw e

/-- A step of COPYW: one that is abandoned writes no memory (R115, R128). -/
def copyStep (cx : Ctx) (spec k : Nat) (src dst : Val) : M Nat := do
  let sb := ((← get).core cx.c).sb
  try copyGo cx spec k 0 src dst
  catch e =>
    modify fun s => s.modCore cx.c fun x => { x with sb := sb }
    throw e

/-- COPYW; source registers are checked from [25:21] on (DESIGN CHOICE, log entry 148). -/
def execCopyw (c : Fin 96) (f : TForm) (s : State) : Host.Outcome State Fault Refusal :=
  runInstr s c (longEnc 4 f 0 (f.rd == f.rs1 || f.rd == f.rs2 || f.rs1 == f.rs2)) fun cx => do
    let n ← srcReg cx f.rd.toNat
    let a ← srcReg cx f.rs1.toNat
    let d ← srcReg cx f.rs2.toNat
    let n ← await cx n
    let a ← await cx a
    let d ← await cx d
    blockOps n f.rd.toNat [(a, f.rs1.toNat), (d, f.rs2.toNat)]
    want (!d.imm) f.rs2.toNat
    countPath cx true
    if n.val == 0 then return .fall
    else
      let k := stepWords n.val.toNat d.val
      sbRoom cx k
      let k ← copyStep cx f.rs2.toNat k a.val d.val
      putReg cx f.rd.toNat (fixWord (n.val - v64 k))
      putReg cx f.rs1.toNat (rawWord (a.val + v64 (8 * k)))
      putReg cx f.rs2.toNat (rawWord (d.val + v64 (8 * k)))
      return .again

/-- The first word of a run that ends the scan: its index. -/
def scanRun (cx : Ctx) (ty : Nat) (neg : Bool) : Nat → Nat → Val → M (Option Nat)
  | 0, _, _ => return none
  | k + 1, j, ea => do
    let w ← loadWord cx ea mtNoDev false
    if (w.type == ty) != neg then return some j
    else scanRun cx ty neg k (j + 1) (ea + 8)

def execScant (c : Fin 96) (f : TForm) (s : State) : Host.Outcome State Fault Refusal :=
  runInstr s c (longEnc 5 f 7 (f.rd == f.rs1 || f.rd == f.rs2 || f.rs1 == f.rs2)) fun cx => do
    let a ← srcReg cx f.rs1.toNat
    let n ← srcReg cx f.rs2.toNat
    let a ← await cx a
    let n ← await cx n
    blockOps n f.rs2.toNat [(a, f.rs1.toNat)]
    countPath cx true
    if n.val == 0 then done cx f.rd.toNat nilWord
    else
      let k := stepWords n.val.toNat a.val
      match ← scanRun cx (f.ext.toNat % 64) (f.ext.getLsbD 6) k 0 a.val with
      | some j =>
        putReg cx f.rs1.toNat (rawWord (a.val + v64 (8 * j)))
        putReg cx f.rs2.toNat (fixWord (n.val - v64 j))
        done cx f.rd.toNat (rawWord (a.val + v64 (8 * j)))
      | none =>
        putReg cx f.rs1.toNat (rawWord (a.val + v64 (8 * k)))
        putReg cx f.rs2.toNat (fixWord (n.val - v64 k))
        return .again

end Sys2Proof.Machine
end

