-- ==== Sys2Proof/Machine/Harrow.lean ====
section
/-! DEFINITION. The Harrow scheduler and the bank commands (R192-R205): decisions, interrupt routing, timers, signals,
power gating of a core. -/

namespace Sys2Proof.Machine

/-- A register write from a source (R4, R170): a core's write across worlds freezes it, the host reaches no register. -/
def State.regCmd (s : State) (r : RegSrc) (off : Nat) (v : Val) : State :=
  match s.whoOf r with
  | none => s
  | some x =>
    if s.regViolation x off true then s.freezeCore x.c x.b vREGWORLD (v64 off) else s.regWrite x off v

namespace State

/-- The outgoing bank of a switch (R198): its reservation and any uncommitted step go; a routine that is in a wait of its
bank keeps its state (R216). -/
def outgoing (s : State) (c : Nat) (b : Fin 4) (ready : Bool) : State :=
  let keeps := !ready && (s.bank c b).wait.isSome
  let s := if (s.bank c b).micro.isSome && !keeps then s.trace c 4 b (s.bank c b).pc.toNat else s
  s.modBank c b fun k => { k with resv := none, micro := if keeps then k.micro else none, st := if ready then 1 else k.st }

/-- Switch core `c` to bank `b`. -/
def switchTo (s : State) (c : Nat) (b : Fin 4) : State :=
  let x := s.core c
  let s := match x.run with
    | some o => s.outgoing c o true
    | none => if x.lastRun == b then s else s.outgoing c x.lastRun false
  let s := if x.lastRun == b && x.run.isNone then s else (s.countEvent c 6 1).trace c 7 b b.val
  (s.modBank c b fun k => { k with st := 2, wcause := 0 }).modCore c fun x =>
    { x with run := some b, lastRun := b, quantum := s.cycle }

/-- The interrupt bank runs and takes its item; none while a TSB line is busy. -/
def routeSwitch (s : State) (c : Nat) (b : Fin 4) (tie : Option Bool) : Option State :=
  let s := match tie with
    | some t => s.modCore c fun x => { x with tieOut := t }
    | none => s
  let s := s.switchTo c b
  match s.pendingItem c b with
  | some it => s.takeItem c b it
  | none => some s

/-- Actions 4 to 6 of R196; `expired` when the quantum has run out. -/
def harrowChoose (s : State) (c : Nat) (expired : Bool) : State :=
  match (s.core c).run with
  | none =>
    match s.chooseBank c (s.core c).lastRun with
    | some b => s.switchTo c b
    | none => s
  | some r =>
    let k := s.bank c r
    match s.chooseBank c r with
    | some b =>
      if k.status.ml == 15 then s
      else if k.pri < (s.bank c b).pri then s.switchTo c b
      else if expired && k.pri == (s.bank c b).pri then s.switchTo c b
      else s
    | none => s

/-- The Harrow's decision at a boundary of a core (R196). -/
def harrow (s : State) (c : Nat) (expired : Bool) : State :=
  if !(s.schedules c) || (s.core c).inEsc then s
  else
    let item := match (s.core c).run with
      | some b => if (s.bank c b).scanPend || (s.bank c b).flipPend then none else (s.pendingItem c b).map fun i => (b, i)
      | none => none
    match item with
    | some (b, it) => (s.takeItem c b it).getD (s.tsbMiss c b)
    | none =>
      match s.routing c with
      | some (b, tie) => (s.routeSwitch c b tie).getD s
      | none => s.harrowChoose c expired

/-- A bank timer goes from 1 to 0 (R203). -/
def btmrExpire (s : State) (c : Nat) (b : Fin 4) : State :=
  if (s.bank c b).btmr != 1 || (s.core c).frozen || (s.core c).halted then s
  else (s.modBank c b fun k => { k with btmr := 0 }).deliver c (.bevt b 1)

/-- The supervisor timer of a world on a core: STCMP is nonzero and reached by TIMEC, by TIMEL on a yoked pair, whose odd
core's STCMP is not compared (R202, R306). -/
def stcmpMatch (s : State) (c w : Nat) : State :=
  let o := worldRegs c w + 0x20
  let t := if s.pairMode (pairOf c) == 2 then (s.pair (pairOf c)).timel.toNat else s.cycle
  if s.oddBound c || s.reg o == 0 || t < (s.reg o).toNat then s
  else (s.setReg o 0).deliver c (.ipend (w == 1) 1)

/-- Power is removed from a core (R205); nothing while its conditions do not hold, its store buffer
drains or a miss of it is outstanding. -/
def powerGate (s : State) (c : Nat) : State :=
  let x := s.core c
  let hctl := s.reg (coreBase c + 8)
  let free (b : Fin 4) : Bool := (s.bank c b).st == 0
  if x.pg || x.frozen || !(bit hctl 16) || s.pairMode (pairOf c) != 0 || !(free 0 && free 1 && free 2 && free 3) ||
      x.freeBouts - 1 < bits hctl 15 8 || !x.sb.isEmpty ||
      s.mem.trans.any (fun (k, t) => k / 2 ^ 34 == c && t != some .miA) then s
  else ((s.flushAgent c).dropCoreCaches c).modCore c fun x => { x with pg := true, itlb := [], dtlb := [], l2tlb := [], run := none, dcopy := [], dloaded := false }

end State

def execHarrowDecision (c : Fin 96) (s : State) : Host.Outcome State Fault Refusal := .next (s.harrow c (s.quantumOut c))

/-- The Running bank has run its quantum (R196): a Ready bank of equal PRI is chosen. -/
def execQuantumExpiry (c : Fin 96) (s : State) : Host.Outcome State Fault Refusal :=
  .next (s.harrow c (s.regF (coreBase c + 8) 7 0 != 0))

def execBtmrExpiry (c : Fin 96) (b : Fin 4) (s : State) : Host.Outcome State Fault Refusal := .next (s.btmrExpire c b)

def execStcmpMatch (c : Fin 96) (w : Fin 2) (s : State) : Host.Outcome State Fault Refusal := .next (s.stcmpMatch c w.val)

/-- Offset of a bank's register in its core's block. -/
def bankReg' (c : Nat) (b : Fin 4) (r : Nat) : Nat := coreBase c + 0x100 + 0x40 * b.val + r

def execBankStart (r : RegSrc) (c : Fin 96) (b : Fin 4) (s : State) : Host.Outcome State Fault Refusal :=
  .next (s.regCmd r (bankReg' c b 8) 1)

def execBankPark (r : RegSrc) (c : Fin 96) (b : Fin 4) (s : State) : Host.Outcome State Fault Refusal :=
  .next (s.regCmd r (bankReg' c b 8) 2)

def execBankUnpark (r : RegSrc) (c : Fin 96) (b : Fin 4) (s : State) : Host.Outcome State Fault Refusal :=
  .next (s.regCmd r (bankReg' c b 8) 3)

def execBankRelease (r : RegSrc) (c : Fin 96) (b : Fin 4) (s : State) : Host.Outcome State Fault Refusal :=
  .next (s.regCmd r (bankReg' c b 8) 4)

def execBpcWrite (r : RegSrc) (c : Fin 96) (b : Fin 4) (v : Val) (s : State) : Host.Outcome State Fault Refusal :=
  .next (s.regCmd r (bankReg' c b 0x10) v)

def execIcsigWrite (r : RegSrc) (c : Fin 96) (w : Fin 2) (v : Val) (s : State) : Host.Outcome State Fault Refusal :=
  .next (s.regCmd r (worldRegs c w.val + 0x28) v)

def execDbellWrite (r : RegSrc) (c : Fin 96) (w : Fin 2) (v : Val) (s : State) : Host.Outcome State Fault Refusal :=
  .next (s.regCmd r (worldRegs c w.val + 0x30) v)

def execCorePowerGate (c : Fin 96) (s : State) : Host.Outcome State Fault Refusal := .next (s.powerGate c)

def execCorePowerRestore (c : Fin 96) (s : State) : Host.Outcome State Fault Refusal := .next (s.powerRestore c)

end Sys2Proof.Machine
end

