-- ==== Sys2Proof/Machine/GcPhase.lean ====
section
/-! DEFINITION. The collection cycle (R144, R147, R150-R163): the phase changes at a bout boundary, the work of a Winnower
in each phase, register scans and flips, Winnowers entering and leaving service. -/

namespace Sys2Proof.Machine

namespace State

/-- Plots that any entry names. -/
def namedPlots (s : State) : List Nat :=
  (s.regs.filter fun (o, _) => rPLOT 0 ≤ o && o < rPLOT 32768).map fun (o, _) => (o - rPLOT 0) / 8

/-- Plots of a world that are not Free, with GEN at most SCOPE. -/
def scopePlots (s : State) (w : Bool) : List Nat :=
  s.namedPlots.filter fun p => bit (s.reg (rPLOT p)) 8 == w && s.plotState p != 0 && decide (s.plotGen p ≤ s.gcScope w)

/-- Evacuating plots of a world. -/
def evacPlots (s : State) (w : Bool) : List Nat :=
  s.namedPlots.filter fun p => bit (s.reg (rPLOT p)) 8 == w && s.plotState p == 3

/-- Change every bank of a world. -/
def worldBanks (s : State) (w : Bool) (f : Bank → Bank) : State :=
  (List.range 384).foldl (fun s i =>
    let b : Fin 4 := Fin.ofNat 4 i
    if (s.bank (i / 4) b).status.wld == w then s.modBank (i / 4) b f else s) s

def setPhase (s : State) (w : Bool) (n : Nat) : State := s.setRegF (gcBase (wn w) + 8) 1 0 n

/-- Some bank of the world has a scan or flip outstanding. -/
def scansLeft (s : State) (w : Bool) : Bool := s.banks.any fun (_, k) => k.status.wld == w && k.scanPend
def satLeft (s : State) (w : Bool) : Bool := s.banks.any fun (_, k) => k.status.wld == w && !k.satblog.isEmpty
def marksInFlight (s : State) (w : Bool) : Bool :=
  s.cores.any fun (_, x) => x.sb.any fun e => e.world == w && e.mrk

/-- Any Winnower has work of a kind left for a world. -/
def anyWnw (s : State) (w : Bool) (p : Wnw → Bool) : Bool := (List.range 12).any fun k => p (s.wnw k w)

/-- A bank that waited only for its scan or flip is Ready (R144, R194). -/
def endScanWait (k : Bank) : Bank :=
  if k.wcause == 7 && !k.scanPend && !k.flipPend then
    if k.st == 3 then k.ready
    else if k.st == 5 && k.prev == 3 then { k with prev := 1, wcause := 0 }
    else k
  else k

/-- Idle to Mark (R155). -/
def toMark (s : State) (w : Bool) : State :=
  let o := gcBase (wn w)
  let s := s.worldBanks w fun k => { k with status := { k.status with mrk := true }, scanPend := true }
  let s := (((s.setRegF o 0 0 0).setRegF (o + 8) 5 5 0).incF (o + 0x38) 63 0 1).setPhase w 1
  let s := s.modGcW w fun _ => { roots := List.range (s.regF (o + 0x28) 15 0), exports := (List.range (expCount s w)).drop 1 }
  s.gcInterrupt w

/-- Change every entry of the store buffers that a world issued. -/
def worldStores (s : State) (w : Bool) (f : SBEntry → SBEntry) : State :=
  s.cores.foldl (fun s x => if x.2.sb.any (·.world == w) then
    s.modCore x.1 fun y => { y with sb := y.sb.map fun e => if e.world == w then f e else e } else s) s

/-- Every SATBLOG of a world is emptied, and a store issued with MK set appends nothing any more (R142). -/
def emptySat (s : State) (w : Bool) : State :=
  let bs := s.banks.map fun (i, k) => (i, if k.status.wld == w then { k with satblog := [] } else k)
  ({ s with banks := bs.filter fun (_, k) => k != {} } : State).worldStores w fun e => { e with mrk := false }

/-- Marking is complete (R155). -/
def markDone (s : State) (w : Bool) : Bool :=
  let g := s.gcW w
  !(s.scansLeft w) && !(s.satLeft w) && !(s.marksInFlight w) && g.roots.isEmpty && g.exports.isEmpty && !g.failing &&
    g.newMarks.isEmpty && !(s.anyWnw w fun x => !(x.stack.isEmpty && x.spill == 0))

/-- Addresses in ascending order, by insertion. -/
def insertNat (a : Nat) : List Nat → List Nat
  | [] => [a]
  | b :: r => if a ≤ b then a :: b :: r else b :: insertNat a r

def sortNats (l : List Nat) : List Nat := l.foldr insertNat []

/-- Mark to Evacuate (R155, R156). -/
def toEvacuate (s : State) (w : Bool) : State :=
  let plots := s.scopePlots w
  let s := plots.foldl (fun s p => if s.plotState p == 2 then s.setRegF (rPLOT p) 1 0 3 else s) s
  let s := (s.emptySat w).worldBanks w fun k => { k with status := { k.status with mrk := false }, flipPend := true }
  let old := sortNats (((s.gcW w).marked.map (·.1)).filter fun a => s.inEvac w a)
  let s := old.foldl (fun s a => s.modWnw (wnwOf s w a) w fun x => { x with toCopy := x.toCopy ++ [a] }) s
  ((s.worldStores w fun e => { e with pre := true }).setPhase w 2).modGcW w fun g => { g with draining := true, liveTodo := plots }

/-- The words of the marked objects that start in plot `p` (R153). -/
def liveSizes (w : Bool) : List (Nat × Word) → Nat → WM Nat
  | [], n => return n
  | (a, _) :: r, n => do
    let k := wnwOf (← get) w a
    let sz ← objSize k w a (← wRead k w a)
    liveSizes w r (n + sz)

/-- LIVEBASE word of a plot (R153). -/
def liveWord (w : Bool) (p : Nat) : WM Unit := do
  let s ← get
  let mine := (s.gcW w).marked.filter fun x => s.plotOf w x.1 == some p
  let n ← liveSizes w mine 0
  wWrite (s.inService (s.plotWnw p)) w (bits (s.reg (gcBase (wn w) + 0x30)) 47 3 * 8 + 8 * p) (fixWord (v64 n))
  modify fun s => s.modGcW w fun g => { g with liveTodo := g.liveTodo.filter (· != p) }

/-- The LIVEBASE words that are still to be written. -/
def writeLive (s : State) (w : Bool) : State := (s.gcW w).liveTodo.foldl (fun s p => runW s w (liveWord w p)) s

/-- Copying is complete (R155). -/
def copyDone (s : State) (w : Bool) : Bool :=
  !(s.gcW w).failing && (s.gcW w).liveTodo.isEmpty && !(s.gcW w).draining && !(s.anyWnw w fun x => !x.toCopy.isEmpty)

/-- Evacuate to Fix-up (R155, R159): the marked objects in scope that were not moved, and every new copy. -/
def toFixup (s : State) (w : Bool) : State :=
  let g := s.gcW w
  let moved := g.copied.map (·.1)
  let objs := (g.marked.map (·.1)).filter fun a => if s.inEvac w a then !(moved.contains a) else s.inScope w a
  let s := (objs ++ g.copied.map fun x => x.2.val.toNat).foldl (fun s a => s.addFix w (wnwOf s w a) 0 a) s
  let s := (List.range (s.regF (gcBase (wn w) + 0x28) 15 0)).foldl (fun s n => s.addFix w (s.inService (n % 12)) 1 n) s
  let s := ((List.range (expCount s w)).drop 1).foldl (fun s i => s.addFix w (s.inService (i % 12)) 2 i) s
  (s.setPhase w 3).gcInterrupt w

/-- Fix-up is complete. No flip is left either: a register not flipped yet may hold a pointer into a plot that is about to
be freed (R156). -/
def fixDone (s : State) (w : Bool) : Bool :=
  !(s.gcW w).failing && !(s.anyWnw w fun x => !x.toFix.isEmpty) && !(s.banks.any fun (_, k) => k.status.wld == w && k.flipPend)

/-- Clear `n` words of a mark bitmap from an address. -/
def clearWords (k : Nat) (w : Bool) : Nat → Nat → WM Unit
  | 0, _ => pure ()
  | n + 1, a => do
    let x ← wRead k w a
    if x.val != 0 then wWrite k w a ⟨x.tag, 0⟩
    clearWords k w n (a + 8)

/-- Clear the mark bitmaps of plots (R153): 32 KiB each. -/
def clearMaps (w : Bool) : List Nat → WM Unit
  | [] => pure ()
  | p :: r => do
    let s ← get
    clearWords (s.inService (s.plotWnw p)) w 4096 (bits (s.reg (gcBase (wn w) + 0x18)) 47 15 * 2 ^ 15 + 2 ^ 15 * p)
    clearMaps w r

/-- The plots whose mark bitmaps hold bits of a cycle (R155, R162): those with GEN at most SCOPE, Free ones with an object
marked in them included, and the destination plots. -/
def markedPlots (s : State) (w : Bool) : List Nat :=
  let g := s.gcW w
  let hb := s.heapBase w
  let hit := (g.marked.map fun x => (x.1 - hb) / 2 ^ 21).eraseDups
  let low := (s.namedPlots ++ hit).filter fun p => bit (s.reg (rPLOT p)) 8 == w && decide (s.plotGen p ≤ s.gcScope w)
  (low ++ g.dests).eraseDups

/-- Fix-up to Idle (R155): the bitmaps, the plots, SKIPPED. -/
def toIdle (w : Bool) : WM Unit := do
  let s ← get
  let plots := s.markedPlots w
  clearMaps w plots
  modify fun s =>
    let g := s.gcW w
    let s := (s.evacPlots w).foldl (fun s p => s.setRegF (rPLOT p) 1 0 (if g.unmov.contains p then 1 else 0)) s
    let left := s.namedPlots.filter fun p => bit (s.reg (rPLOT p)) 8 == w && s.plotState p == 2 && decide (s.gcScope w < s.plotGen p)
    let s := s.setRegF (gcBase (wn w) + 8) 31 16 left.length
    ((s.modGcW w fun _ => {}).setPhase w 0).gcInterrupt w

/-- An ABORT takes effect (R162). -/
def doAbort (s : State) (w : Bool) : State :=
  let o := gcBase (wn w)
  let plots := s.markedPlots w
  let s := (s.emptySat w).worldBanks w fun k =>
    endScanWait { k with status := { k.status with mrk := false }, scanPend := false }
  let s := (List.range 12).foldl (fun s k => s.modWnw k w fun x =>
    { x with stack := [], spill := 0, full := false, toCopy := [], toFix := [] }) s
  let s := ((s.setRegF (o + 8) 8 8 0).setRegF (o + 8) 7 7 1).setPhase w 0
  (s.modGcW w fun _ => { clearing := plots }).gcInterrupt w

/-- The marks of new objects that were left are set (R144, R150). -/
def setNewMarks (w : Bool) : List (Nat × Word) → WM Unit
  | [] => pure ()
  | (a, p) :: r => do
    let k := wnwOf (← get) w a
    setMarkBit k w a true
    if p.type == tySYMBOL then setMarkBit k w (a + 8) true
    modify fun s => s.modGcW w fun g => { g with newMarks := g.newMarks.drop 1 }
    setNewMarks w r

/-- Whether an access failed since the last boundary is cleared, and what failed outside a Winnower's own work is tried again
(R150). -/
def retryFailed (s : State) (w : Bool) : State :=
  let s := s.modGcW w fun g => { g with failing := false }
  if (s.gcW w).newMarks.isEmpty then s else runW s w (setNewMarks w (s.gcW w).newMarks)

/-- The collection control of a world at a bout boundary (R155): a phase does not advance while an access fails, and failed
accesses are tried again (R150). -/
def gcBoundary (s : State) (w : Bool) : State :=
  let held := (s.gcW w).failing
  let s := s.retryFailed w
  if held && s.gcPhase w != 0 && !(s.gcPhase w == 1 && (s.gcW w).abort) then s else
  let o := gcBase (wn w)
  match s.gcPhase w with
  | 0 => if bit (s.reg o) 0 && !(bit (s.reg (o + 8)) 7) then s.toMark w else s
  | 1 =>
    if (s.gcW w).abort then s.doAbort w
    else if s.markDone w then ((s.toEvacuate w).writeLive w).gcInterrupt w else s
  | 2 =>
    let s := s.writeLive w
    if s.copyDone w then s.toFixup w else s
  | _ => if s.fixDone w then runW s w (toIdle w) else s

end State

/-- Winnower `k` retrieves one mark-stack entry that `j` spilled (R154, R163). -/
def unspill (k j : Nat) (w : Bool) : WM Unit := do
  let s ← get
  let x := s.wnw j w
  let base := bits (s.reg (wnwBase j + 0x40 + 0x40 * wn w)) 47 12 * 4096
  let p ← wRead k w (base + 8 * (x.spill - 1))
  modify fun s => (s.modWnw j w fun y => { y with spill := y.spill - 1 }).modWnw k w fun y => { y with stack := p :: y.stack }

/-- The spill areas that Winnower `k` takes entries from: its own, then those of Winnowers out of service whose successor it
is (R163). -/
def spillOf (s : State) (k : Nat) (w : Bool) : Option Nat :=
  ((List.range 12).map fun i => (k + i) % 12).find? fun j =>
    (s.wnw j w).spill != 0 && (j == k || (!(bit (s.reg (wnwBase j)) 1) && s.inService j == k))

/-- Scan one marked object (R36, R158). -/
def scanObj (k : Nat) (w : Bool) (p : Word) : WM Unit := do
  let a := p.val.toNat
  let w0 ← wRead k w a
  let n := if w0.type == tyHEADER then 1 + bits w0.val 47 0 else if p.type == tySYMBOL then 4 else 2
  workAt w a
  scanWords none k w n a

/-- One piece of marking by Winnower `k` (R155, R157): an object of its mark stack, a spilled one, a root range, an export
entry; nothing while a full spill area stops it (R154). -/
def markStep (k : Nat) (w : Bool) : WM Unit := do
  let s ← get
  let x := s.wnw k w
  if x.full then pure ()
  else
    match x.stack with
    | p :: r =>
      modify fun s => s.modWnw k w fun y => { y with stack := r }
      scanObj k w p
    | [] =>
      match spillOf s k w with
      | some j => unspill k j w
      | none =>
        let g := s.gcW w
        match g.roots.find? fun n => s.inService (n % 12) == k with
        | some n =>
          match ← rootRange k w n with
          | some (a, c) => scanWords (some k) k w c a
          | none => pure ()
          modify fun s => s.modGcW w fun g => { g with roots := g.roots.filter (· != n) }
        | none =>
          match g.exports.find? fun i => s.inService (i % 12) == k with
          | some i =>
            let a := exportAddr s w i
            let e1 ← wRead k w (a + 8)
            if bit e1.val 63 then scanWords (some k) k w 1 a
            modify fun s => s.modGcW w fun g => { g with exports := g.exports.filter (· != i) }
          | none => pure ()

/-- One copy by Winnower `k` (R158). -/
def copyStepW (k : Nat) (w : Bool) : WM Unit := do
  let s ← get
  match (s.wnw k w).toCopy with
  | [] => pure ()
  | a :: r =>
    let ty := ((s.gcW w).marked.filter (·.1 == a)).map fun x => x.2.type
    let _ ← copyObj k w a (ty.contains tyCODE) (ty.any fun t => s.isHeadered t) (ty.contains tySYMBOL)
    modify fun s => s.modWnw k w fun x => { x with toCopy := r }

/-- One fix-up by Winnower `k` (R159). -/
def fixStep (k : Nat) (w : Bool) : WM Unit := do
  let s ← get
  match (s.wnw k w).toFix with
  | [] => pure ()
  | (kind, v) :: r =>
    if kind == 0 then
      let n ← objSize k w v (← wRead k w v)
      fixSlots k w n v
    else if kind == 1 then
      match ← rootRange k w v with
      | some (a, c) => fixSlots k w c a
      | none => pure ()
    else
      let a := exportAddr s w v
      let e1 ← wRead k w (a + 8)
      if bit e1.val 63 then fixSlot k w a
    modify fun s => s.modWnw k w fun x => { x with toFix := r }

/-- Winnower `k` serves its oldest load-assist (R147, R158, R160). -/
def assistStep (k : Nat) : WM Unit := do
  let s ← get
  match s.gc.assists.find? fun r => r.k == k && r.result.isNone with
  | none => pure ()
  | some r =>
    let v ← evacValue r.world ⟨r.tagb, v64 r.addr⟩
    workAt r.world r.addr
    modify fun s =>
      let s := s.incF (wnwBase k + 0x20) 63 0 1
      let as := s.gc.assists.map fun q => if q == r then { q with result := some v } else q
      { s with gc := { s.gc with assists := as.filter fun q => !(q.core == 128 && q.result.isSome) } }

namespace State

/-- The register scan of a bank ends: a bank that waited for it is Ready. -/
def scanRow (s : State) (c : Nat) (b : Fin 4) : State :=
  match s.scanBank c b with
  | some s => s.modBank c b endScanWait
  | none => s

def flipRow (s : State) (c : Nat) (b : Fin 4) : State :=
  match s.flipBank c b with
  | some s => s.modBank c b endScanWait
  | none => s

/-- Steps 2 to 4 of R163: a Winnower that leaves service hands its plots, its work and the assists pending at it to its
successor, which takes the entries that it spilled as its own stack empties; it waits for no destination plot any more. -/
def leaveService (s : State) (k : Nat) : State :=
  let s := s.setRegF (wnwBase k) 1 1 0
  let j := s.inService k
  let s := s.namedPlots.foldl (fun s p => if s.plotWnw p == k then s.setRegF (rPLOT p) 19 16 j else s) s
  let s := (List.range 32768).foldl (fun s p => if p % 12 == k && s.plotWnw p == k then s.setRegF (rPLOT p) 19 16 j else s) s
  let s := [false, true].foldl (fun s w =>
    let x := s.wnw k w
    let s := s.modWnw j w fun y => { y with toCopy := y.toCopy ++ x.toCopy, toFix := y.toFix ++ x.toFix }
    let s := s.modWnw k w fun y => { y with toCopy := [], toFix := [] }
    let s := if x.full then setFull s k w false else s
    if x.destWait then setDestWait s k w false else s) s
  { s with gc := { s.gc with assists := s.gc.assists.map fun r => if r.k == k then { r with k := j } else r } }

end State

/-- Step 1 of R163: the mark stack of a Winnower that leaves service goes to its spill area, from the bottom. -/
def spillAll (k : Nat) (w : Bool) : List Word → WM Unit
  | [] => pure ()
  | p :: r => do
    spillOne k w p
    modify fun s => s.modWnw k w fun y => { y with stack := y.stack.dropLast }
    spillAll k w r

namespace State

/-- Winnowers enter and leave service at a boundary (R163); one whose mark stack cannot be spilled yet stays. -/
def serviceBoundary (s : State) : State :=
  (List.range 12).foldl (fun s k =>
    let c := s.reg (wnwBase k)
    if bit c 0 && !(bit c 1) then s.setRegF (wnwBase k) 1 1 1
    else if !(bit c 0) && bit c 1 then
      let s := [false, true].foldl (fun s w => runW s w (spillAll k w (s.wnw k w).stack.reverse)) s
      if (s.wnw k false).stack.isEmpty && (s.wnw k true).stack.isEmpty then s.leaveService k else s
    else s) s

end State

/-- A Winnower row: work of a phase, unless a failed access waits for the next boundary (R150). -/
def wnwRow (s : State) (k : Nat) (w : Bool) (phase : Nat) (m : WM Unit) : Host.Outcome State Fault Refusal :=
  .next (if !s.tripped && s.gcPhase w == phase && !(s.gcW w).failing && bit (s.reg (wnwBase k)) 1 then runW s w m else s)

def execWinnowerMark (k : Fin 12) (w : Fin 2) (s : State) : Host.Outcome State Fault Refusal :=
  wnwRow s k (w == 1) 1 (markStep k (w == 1))

def execWinnowerCopy (k : Fin 12) (w : Fin 2) (s : State) : Host.Outcome State Fault Refusal :=
  let s := s.drained (w == 1)
  if (s.gcW (w == 1)).draining then .next s else wnwRow s k (w == 1) 2 (copyStepW k (w == 1))

def execWinnowerFixup (k : Fin 12) (w : Fin 2) (s : State) : Host.Outcome State Fault Refusal :=
  wnwRow s k (w == 1) 3 (fixStep k (w == 1))

def execWinnowerAssist (k : Fin 12) (s : State) : Host.Outcome State Fault Refusal :=
  .next (match s.gc.assists.find? fun r => r.k == k.val && r.result.isNone with
    | none => s
    | some r =>
      let s := s.drained r.world
      if (s.gcW r.world).draining || (s.gcW r.world).failing || s.tripped then s else runW s r.world (assistStep k))

def execAssistReply (c : Fin 96) (b : Fin 4) (s : State) : Host.Outcome State Fault Refusal :=
  .next (match (s.bank c b).wait with
    | some w =>
      if w.cause == 4 && !w.done && s.gc.assists.any (fun r =>
          r.core == c && r.bank == b && r.addr == w.key && r.tagb == w.tagb && r.result.isSome) then
        s.deliver c (.waitDone b .none)
      else s
    | none => s)

/-- The Winnower of the bank's cluster takes the oldest SATBLOG entry (R142): what it names is marked. -/
def satTake (c : Nat) (b : Fin 4) (w : Bool) : WM Unit := do
  match ((← get).bank c b).satblog with
  | [] => pure ()
  | x :: r =>
    let s ← get
    if s.isPtr x.type && s.inScope w x.val.toNat then markObj w x
    modify fun s => s.modBank c b fun k => { k with satblog := r }

def execSatblogTake (c : Fin 96) (b : Fin 4) (s : State) : Host.Outcome State Fault Refusal :=
  let w := (s.bank c b).status.wld
  .next (if s.gcPhase w == 1 && !(s.gcW w).failing && !s.tripped && !(s.wnw (s.inService (clusterOf c)) w).full then runW s w (satTake c b w) else s)

def execRegisterScan (c : Fin 96) (b : Fin 4) (s : State) : Host.Outcome State Fault Refusal := .next (s.scanRow c b)

def execRegisterFlip (c : Fin 96) (b : Fin 4) (s : State) : Host.Outcome State Fault Refusal := .next (s.flipRow c b)

/-- The Winnowers have cleared the bitmaps after an abort (R162): BUSY clears. -/
def execBitmapClearDone (w : Fin 2) (s : State) : Host.Outcome State Fault Refusal :=
  let v : Bool := w == 1
  .next (if bit (s.reg (gcBase w.val + 8)) 7 && !(s.gcW v).failing && !s.tripped then
      runW s v (do
        State.clearMaps v (s.gcW v).clearing
        modify fun s => (s.modGcW v fun g => { g with clearing := [] }).setRegF (gcBase w.val + 8) 7 7 0)
    else s)

def execGoWrite (r : RegSrc) (w : Fin 2) (v : Val) (s : State) : Host.Outcome State Fault Refusal :=
  .next (s.regCmd r (gcBase w.val) (setBits v 0 0 1))

def execAbortWrite (r : RegSrc) (w : Fin 2) (v : Val) (s : State) : Host.Outcome State Fault Refusal :=
  .next (s.regCmd r (gcBase w.val) (setBits v 1 1 1))

def execDestqPush (r : RegSrc) (k : Fin 12) (w : Fin 2) (v : Val) (s : State) : Host.Outcome State Fault Refusal :=
  .next (s.regCmd r (wnwBase k.val + 0x50 + 0x40 * w.val) v)

def execWctlEnWrite (r : RegSrc) (k : Fin 12) (v : Val) (s : State) : Host.Outcome State Fault Refusal :=
  .next (s.regCmd r (wnwBase k.val) v)

end Sys2Proof.Machine
end

