-- ==== Sys2Proof/Machine/CohRows.lean ====
section
/-! DEFINITION. The coherence protocol message by message (R243, R273-R285) and the patrol scrub (R292): requests that
arrive at a home, probes and grants at an agent, acknowledgements, evictions, retries. -/

namespace Sys2Proof.Machine

namespace State

def txn (s : State) (g : Nat) : Option HomeTxn := Tbl.get none s.mem.txns g

def setTxn (s : State) (g : Nat) (t : Option HomeTxn) : State :=
  s.modMem fun m => { m with txns := Tbl.set none m.txns g t }

/-- The line is blocked or free (R280). -/
def setBlk (s : State) (g : Nat) (on : Bool) : State := s.setDir g { s.dirE g with blk := on }

def sendProbe (s : State) (a g : Nat) (p : Probe) : State := s.modMem fun m => { m with probes := m.probes ++ [(a, g, p)] }

def sendFill (s : State) (a g : Nat) (d : Option Line) (gnt : Bool) (final : LineSt) (w : Bool) : State :=
  s.modMem fun m => { m with fills := m.fills ++ [⟨a, g, d, gnt, final, w⟩] }

/-- The transaction `t` of a line begins with its probes sent. -/
def begin_ (s : State) (g : Nat) (t : HomeTxn) (ps : List (Nat × Probe)) : State :=
  let s := ps.foldl (fun s x => s.sendProbe x.1 g x.2) s
  (s.setTxn g (some { t with acks := ps.map (·.1) })).setBlk g true

/-- The agents of P, the nearest to `r` first and the lower index on a tie, without `r` (R279). -/
def byDistance (r : Nat) (pv : List Nat) : List Nat :=
  let d (a : Nat) : Nat := meshDist (agCluster a) (agCluster r)
  ((List.range 7).flatMap fun n => (List.range 108).filter fun a => pv.contains a && d a == n).filter (· != r)

/-- Data or a grant has been sent and CMP is awaited (BC of R282). -/
def grantAll (s : State) (g : Nat) (t : HomeTxn) (e : DirEntry) : State :=
  (s.setDir g { e with blk := true }).setTxn g (some { t with tr := .bc, acks := [] })

/-- RD, RO or UPG served with memory data (R278). -/
def serveMem (s : State) (g : Nat) (t : HomeTxn) : State :=
  let (l, s) := s.memData g
  if t.req == Req.rd then
    (s.sendFill t.agent g (some l) false .e t.world).grantAll g { t with sent := true } { dst := .ex, fwd := some t.agent, pv := [t.agent] }
  else
    (s.sendFill t.agent g (some l) true .m t.world).grantAll g { t with sent := true } { dst := .ex, fwd := some t.agent, pv := [t.agent] }

/-- An uncached access is performed at the memory controller (R278). -/
def performUc (s : State) (g : Nat) (wr : Option (Nat × Word)) : State :=
  match wr with
  | some (i, x) => s.ucWrite (64 * g + 8 * i) (.word x)
  | none => (s.ucRead (64 * g)).2

/-- Every probe of a CWB, CINV or UC has been answered: what remains is done at the home (R278); the line is free again. -/
def finishBu (s : State) (g : Nat) (req : Req) : State :=
  let s := match req with
    | .cwb => s.l3Clean g
    | .cinv => ((s.l3Clean g).setL3 g none).setDir g {}
    | .uc wr => (((s.l3Clean g).setL3 g none).setDir g {}).performUc g wr
    | _ => s
  (s.setTxn g none).setBlk g false

/-- The home serves a request whose line has its directory entry (R278). -/
def serve (s : State) (g : Nat) (t : HomeTxn) : State :=
  let e := s.dirE g
  let r := t.agent
  match t.req with
  | .rd =>
    match e.dst with
    | .i => s.serveMem g { t with tr := .bm }
    | .sh =>
      (match byDistance r e.pv with
      | [] =>
        let (l, s) := s.memData g
        (s.sendFill r g (some l) false .f t.world).grantAll g { t with sent := true } { e with fwd := some r, pv := [r] }
      | x :: rest =>
        let dem : List (Nat × Probe) := match e.fwd with
          | some f => if f == x || f == r then [] else [(f, .fdem)]
          | none => []
        s.begin_ g { t with tr := .bp, respTry := rest } ((x, .prd r) :: dem))
    | .ex => s.begin_ g { t with tr := .bp } [(e.fwd.getD 0, .prd r)]
  | .ro | .upg =>
    match e.dst with
    | .i => s.serveMem g { t with tr := .bm, req := .ro }
    | .sh =>
      let others := byDistance r e.pv
      if t.req == Req.upg && e.pv.contains r then
        (match others with
        | [] => (s.sendFill r g none true .m t.world).grantAll g t { dst := .ex, fwd := some r, pv := [r] }
        | _ => s.begin_ g { t with tr := .bp } (others.map fun a => (a, Probe.pinv)))
      else
        (match others with
        | [] => s.serveMem g { t with tr := .bm, req := .ro }
        | x :: rest => s.begin_ g { t with tr := .bp, req := .ro, respTry := rest } ((x, .pro r) :: rest.map fun a => (a, Probe.pinv)))
    | .ex => s.begin_ g { t with tr := .bp, req := .ro } [(e.fwd.getD 0, .pro r)]
  | .cwb =>
    match e.dst with
    | .ex => s.begin_ g { t with tr := .bu } [(e.fwd.getD 0, .pcln)]
    | _ => s.finishBu g t.req
  | .cinv | .uc _ =>
    match e.dst with
    | .i => s.finishBu g t.req
    | _ => s.begin_ g { t with tr := .bu } (e.pv.map fun a => (a, Probe.pinv))

/-- The request needs a directory entry (R285). -/
def needsEntry (req : Req) : Bool :=
  match req with
  | .rd | .ro | .upg => true
  | _ => false

/-- The home takes a request for a line that is not blocked: the directory check, the entry, a recall where the set is
full (R274, R278, R285). -/
def take (s : State) (q : QReq) : State :=
  let g := q.gran
  let s := s.dirCheck g
  let t : HomeTxn := { req := q.req, agent := q.agent, world := q.world, tr := .bm }
  if !(needsEntry q.req) then s.serve g t
  else
    match s.dirVictim g with
    | none => s.nackDir q
    | some none => s.serve g t
    | some (some v) =>
      let s := s.incF (clusterBase (home v) + 0x10010) 63 0 1
      let s := s.setTxn g (some { t with tr := .br })
      s.begin_ v { t with tr := .br, cont := some g } ((s.dirE v).pv.map fun a => (a, Probe.pinv))

/-- Waiting requests for a line are taken in order of arrival while the line is not blocked; `n` bounds them. -/
def pump (s : State) (g : Nat) : Nat → State
  | 0 => s
  | n + 1 =>
    if (s.txn g).isSome then s
    else
      match s.mem.queue.find? (·.gran == g) with
      | none => s
      | some q => pump ((s.modMem fun m => { m with queue := m.queue.erase q }).take q) g n

/-- A request arrives at the home: the fence check first, then a blocked line's queue, then service. -/
def arrive (s : State) (q : QReq) : State :=
  if (s.txn q.gran).isSome then s.waitHome q else s.take q

/-- A line's transaction has ended: the line is free, and the next waiting request is taken (R280). -/
def unblock (s : State) (g : Nat) : State :=
  let s := (s.setTxn g none).setBlk g false
  s.pump g (s.mem.queue.length + 1)

/-- A request that fails the fence changes nothing at the home: a core's is the violation FENCE_DATA of the bank that runs
there (R189), a Winnower's a failed access of its world's work. -/
def homeFence (s : State) (a : Nat) (w : Bool) (pa : Nat) : State :=
  if a < 96 then
    if (s.core a).frozen then s
    else s.freezeCore a ((s.core a).run.getD (s.core a).lastRun) vFENCEDATA (v64 pa)
  else wnwFail s w pa .fence

/-- An agent sends a request (R275, R276) and it reaches the home. `ok` says whether the agent's own state lets it send; the odd
core of a pair in lockstep sends none (R296). -/
def homeReq (s : State) (a g : Nat) (w : Bool) (req : Req) (tr : Option AgentTr) (ok : Bool) : State :=
  let space := s.inDram (64 * g) || ((match req with | .uc _ => true | _ => false) && s.inBin (64 * g))
  if !ok || !space || s.tripped || (decide (a < 96) && s.oddBound a) then s
  else if s.fenceOwner (64 * g) != wn w then s.homeFence a w (64 * g)
  else
    let s := match tr with
      | some t => s.setTrans a g (some t)
      | none => s
    s.arrive ⟨g, a, req, w⟩

/-- A probe to the agent for the line is under way or its acknowledgement is. -/
def probed (s : State) (a g : Nat) : Bool :=
  s.mem.probes.any (fun p => p.1 == a && p.2.1 == g) || s.mem.acks.any (fun k => k.agent == a && k.gran == g)

/-- The next agent is asked for the data, or the home uses memory data (R279). -/
def tryNext (s : State) (g : Nat) (t : HomeTxn) : State :=
  let isRd := t.req == Req.rd
  match t.respTry with
  | x :: rest =>
    (s.sendProbe x g (if isRd then .prd t.agent else .pro t.agent)).setTxn g
      (some { t with respTry := rest, acks := t.acks ++ [x] })
  | [] =>
    let (l, s) := s.memData g
    (s.sendFill t.agent g (some l) false (if isRd then .f else .m) t.world).setTxn g
      (some { t with sent := true, back := t.back || (s.dirE g).dst == DState.ex })

/-- Every probe of a transaction has been answered (R282). -/
def probesDone (s : State) (g : Nat) (t : HomeTxn) : State :=
  let r := t.agent
  let e := s.dirE g
  match t.tr with
  | .bp =>
    let s := match t.req with
      | .rd =>
        let pv := (e.pv.filter fun a => a != r && !(t.back && e.dst == DState.ex)) ++ [r]
        s.grantAll g t { e with dst := .sh, fwd := some r, pv := pv }
      | .upg => (s.sendFill r g none true .m t.world).grantAll g t { e with dst := .ex, fwd := some r, pv := [r] }
      | _ => (s.sendFill r g none true .m t.world).grantAll g t { e with dst := .ex, fwd := some r, pv := [r] }
    if t.cmp then s.unblock g else s
  | .bu => (s.finishBu g t.req).pump g (s.mem.queue.length + 1)
  | .br =>
    (match t.cont with
    | none => s
    | some h =>
      let s := ((s.setDir g {}).setTxn g none).setBlk g false
      let s := match s.txn h with
        | some u => (s.setTxn h none).serve h { u with tr := .bm }
        | none => s
      s.pump g (s.mem.queue.length + 1))
  | _ => s

/-- An acknowledgement reaches the home: dirty data is written to L3, a NODATA answer has the next agent asked. -/
def takeAck (s : State) (k : ProbeAck) : State :=
  let g := k.gran
  let s := s.modMem fun m => { m with acks := m.acks.erase k }
  let s := match k.dirty with
    | some l => s.placeL3 g ⟨true, l⟩
    | none => s
  match s.txn g with
  | none => s
  | some t =>
    let t := { t with acks := t.acks.erase k.agent }
    let asks := match k.probe with
      | .prd _ | .pro _ => true
      | _ => false
    let s := s.setTxn g (some t)
    let s := if asks && k.nodata then s.tryNext g t else s
    match s.txn g with
    | none => s
    | some t => if t.acks.isEmpty then s.probesDone g t else s

/-- The agent answers a probe (R277): the line it holds, or the victim buffer, or nothing. -/
def answerProbe (s : State) (a g : Nat) (p : Probe) : State :=
  let s := s.modMem fun m => { m with probes := m.probes.erase (a, g, p) }
  let s := s.l2Parity a g
  let ack (s : State) (nodata : Bool) (d : Option Line) : State :=
    s.modMem fun m => { m with acks := m.acks ++ [⟨a, g, p, nodata, d⟩] }
  let (final, w) : LineSt × Bool := match s.txn g with
    | some t => (if t.req == Req.rd then .f else .m, t.world)
    | none => (.f, false)
  let stale (s : State) : State := s.modMem fun m => { m with
    wbs := m.wbs.filter fun x => !(x.1 == a && x.2.1 == g), staleWbs := m.staleWbs ++ [(a, g)] }
  match s.agLine a g, s.victim a g with
  | some l, _ =>
    let dirty := l.st == LineSt.m
    (match p with
    | .prd r =>
      let s := (s.sendFill r g (some l.line) false final w).setAgLine a g (some { l with st := .s })
      ack s false (if dirty then some l.line else none)
    | .pro r =>
      let s := (s.sendFill r g (some l.line) false final w).dropLine a g
      let s := if s.trans a g == some .smG then s.setTrans a g (some .imD) else s
      ack s false none
    | .pinv =>
      let s := s.dropLine a g
      let s := if s.trans a g == some .smG then s.setTrans a g (some .imD) else s
      ack s false (if dirty then some l.line else none)
    | .pcln =>
      let s := if dirty then s.setAgLine a g (some { l with st := .e }) else s
      ack s false (if dirty then some l.line else none)
    | .fdem => ack (if l.st == LineSt.f then s.setAgLine a g (some { l with st := .s }) else s) false none)
  | none, some v =>
    let live := s.mem.wbs.any fun x => x.1 == a && x.2.1 == g
    if !live then ack s true none
    else
      let back (s : State) : State := match s.txn g with
        | some t => s.setTxn g (some { t with back := true })
        | none => s
      (match p with
      | .prd r => ack (back (stale (s.sendFill r g (some v) false final w))) false (some v)
      | .pro r => ack (stale (s.sendFill r g (some v) false final w)) false none
      | .pinv | .pcln => ack (stale s) false (some v)
      | .fdem => ack s false none)
  | none, none => ack s true none

/-- A reservation of a core defers another agent's request for the granule (R243): the probe waits. -/
def holdsProbe (s : State) (a g : Nat) : Bool :=
  s.banks.any fun (k, x) => k / 4 == a && x.resv == some g && x.resvCy == 0

/-- A probe of a kind reaches an agent. -/
def probeRow (s : State) (a g : Nat) (kind : Probe → Bool) : State :=
  match s.mem.probes.find? fun x => x.1 == a && x.2.1 == g && kind x.2.2 with
  | some x => if s.holdsProbe a g && x.2.2 != .fdem then s else s.answerProbe a g x.2.2
  | none => s

end State

def execHomeRd (a : Fin 108) (g : BitVec 34) (w : Fin 2) (s : State) : Host.Outcome State Fault Refusal :=
  .next (s.homeReq a.val g.toNat (w == 1) .rd (some .isD) ((s.agLine a.val g.toNat).isNone && !(s.missOut a.val g.toNat)))

def execHomeRo (a : Fin 108) (g : BitVec 34) (w : Fin 2) (s : State) : Host.Outcome State Fault Refusal :=
  .next (s.homeReq a.val g.toNat (w == 1) .ro (some .imD) ((s.agLine a.val g.toNat).isNone && !(s.missOut a.val g.toNat)))

def execHomeUpg (a : Fin 108) (g : BitVec 34) (w : Fin 2) (s : State) : Host.Outcome State Fault Refusal :=
  .next (s.homeReq a.val g.toNat (w == 1) .upg (some .smG)
    (match s.agLine a.val g.toNat with
    | some l => (l.st == LineSt.s || l.st == LineSt.f) && !(s.missOut a.val g.toNat)
    | none => false))

/-- WB reaches the home (R278, R283): the owner's data goes to L3 unless the home has probed it, any other is stale; WBACK
is sent in every case. -/
def execHomeWb (a : Fin 108) (g : BitVec 34) (s : State) : Host.Outcome State Fault Refusal :=
  .next (
    let a := a.val
    let g := g.toNat
    let send (s : State) : State := s.modMem fun m => { m with
      wbs := m.wbs.filter fun x => !(x.1 == a && x.2.1 == g),
      staleWbs := m.staleWbs.erase (a, g), wbacks := m.wbacks ++ [(a, g)] }
    if s.mem.wbacks.contains (a, g) then s
    else
    match s.mem.wbs.find? fun x => x.1 == a && x.2.1 == g with
    | some x =>
      if s.mem.probes.any fun p => p.1 == a && p.2.1 == g then
        s.modMem fun m => { m with wbacks := m.wbacks ++ [(a, g)] }
      else send (s.homeWb a g x.2.2)
    | none => if s.mem.staleWbs.contains (a, g) then send s else s)

def execHomeEvn (a : Fin 108) (g : BitVec 34) (s : State) : Host.Outcome State Fault Refusal :=
  .next (
    if s.mem.evns.contains (a.val, g.toNat) then
      (s.modMem fun m => { m with evns := m.evns.erase (a.val, g.toNat) }).homeEvn a.val g.toNat
    else s)

def execHomeCwb (a : Fin 108) (g : BitVec 34) (w : Fin 2) (s : State) : Host.Outcome State Fault Refusal :=
  .next (s.homeReq a.val g.toNat (w == 1) .cwb none (!(s.missOut a.val g.toNat)))

def execHomeCinv (a : Fin 108) (g : BitVec 34) (w : Fin 2) (s : State) : Host.Outcome State Fault Refusal :=
  .next (s.homeReq a.val g.toNat (w == 1) .cinv none (!(s.missOut a.val g.toNat)))

def execHomeUc (a : Fin 108) (g : BitVec 34) (w : Fin 2) (wr : Option (Fin 8 × Word)) (s : State) :
    Host.Outcome State Fault Refusal :=
  .next (s.homeReq a.val g.toNat (w == 1) (.uc (wr.map fun x => (x.1.val, x.2))) none true)

/-- CMP reaches the home (R280). -/
def execHomeCmp (a : Fin 108) (g : BitVec 34) (s : State) : Host.Outcome State Fault Refusal :=
  .next (
    if s.mem.cmps.contains (a.val, g.toNat) then
      let s := s.modMem fun m => { m with cmps := m.cmps.erase (a.val, g.toNat) }
      match s.txn g.toNat with
      | some t => if t.tr == HomeTr.bc then s.unblock g.toNat else s.setTxn g.toNat (some { t with cmp := true })
      | none => s
    else s)

def execProbeAcknowledge (a : Fin 108) (g : BitVec 34) (s : State) : Host.Outcome State Fault Refusal :=
  .next (match s.mem.acks.find? fun k => k.agent == a.val && k.gran == g.toNat with
    | some k => s.takeAck k
    | none => s)

def execPrd (a : Fin 108) (g : BitVec 34) (s : State) : Host.Outcome State Fault Refusal :=
  .next (s.probeRow a.val g.toNat fun p => match p with | .prd _ => true | _ => false)

def execPro (a : Fin 108) (g : BitVec 34) (s : State) : Host.Outcome State Fault Refusal :=
  .next (s.probeRow a.val g.toNat fun p => match p with | .pro _ => true | _ => false)

def execPinv (a : Fin 108) (g : BitVec 34) (s : State) : Host.Outcome State Fault Refusal :=
  .next (s.probeRow a.val g.toNat fun p => p == Probe.pinv)

def execPcln (a : Fin 108) (g : BitVec 34) (s : State) : Host.Outcome State Fault Refusal :=
  .next (s.probeRow a.val g.toNat fun p => p == Probe.pcln)

def execFdem (a : Fin 108) (g : BitVec 34) (s : State) : Host.Outcome State Fault Refusal :=
  .next (s.probeRow a.val g.toNat fun p => p == Probe.fdem)

/-- Data and grants arrive at the agent (R281): when it holds everything it awaits, the line is installed and CMP sent. -/
def execAgentFill (a : Fin 108) (g : BitVec 34) (s : State) : Host.Outcome State Fault Refusal :=
  .next (
    let a := a.val
    let g := g.toNat
    let fs := s.mem.fills.filter fun f => f.agent == a && f.gran == g
    match fs with
    | [] => s
    | f :: _ =>
      if (decide (a < 96) && s.oddBound a) || (s.waysFull a g && (s.evictable a g).isEmpty) then s
      else
      let data : Option Line := match fs.find? fun f => f.data.isSome with
        | some f => f.data
        | none => (s.agLine a g).map (·.line)
      match data with
      | none => s
      | some l =>
        if f.final == LineSt.m && !(fs.any (·.gnt)) then s
        else
          let s := s.fillLine a g ⟨f.final, f.world, l⟩
          let s := s.setTrans a g (if (s.victim a g).isSome then some .miA else none)
          s.modMem fun m => { m with
            fills := m.fills.filter fun f => !(f.agent == a && f.gran == g), cmps := m.cmps ++ [(a, g)] })

/-- WBACK reaches the agent (R276): after any probe the home sent it before. -/
def execWback (a : Fin 108) (g : BitVec 34) (s : State) : Host.Outcome State Fault Refusal :=
  .next (
    let a := a.val
    let g := g.toNat
    if s.mem.wbacks.contains (a, g) && !(s.mem.probes.any fun p => p.1 == a && p.2.1 == g) then
      let s := s.modMem fun m => { m with
        wbacks := m.wbacks.erase (a, g), wbs := m.wbs.filter fun x => !(x.1 == a && x.2.1 == g),
        staleWbs := m.staleWbs.filter (· != (a, g)) }
      let s := s.setVictim a g none
      if s.trans a g == some .miA then s.setTrans a g none else s
    else s)

/-- An agent evicts a line (R276): never a locked one (R270), nor one with a transaction of its own under way; a modified
line needs room in the victim buffer of 8. -/
def execAgentEviction (a : Fin 108) (g : BitVec 34) (s : State) : Host.Outcome State Fault Refusal :=
  .next (
    let a := a.val
    let g := g.toNat
    if s.missOut a g || (a < 96 && (s.core a).locks.contains g) then s
    else
      let s := s.l2Parity a g
      match s.agLine a g with
      | none => s
      | some l =>
        match l.st with
        | .m =>
          if 8 ≤ (s.mem.victims.filter fun (k, _) => k / 2 ^ 34 == a).length || (s.victim a g).isSome then s
          else
            let s := ((s.dropLine a g).setVictim a g (some l.line)).setTrans a g (some .miA)
            s.modMem fun m => { m with wbs := m.wbs ++ [(a, g, l.line)] }
        | .e | .f => (s.dropLine a g).modMem fun m => { m with evns := m.evns ++ [(a, g)] }
        | .s => s.dropLine a g)

/-- A NACKed request is sent again (R280): the home checks its fence as of any request. -/
def execRequestRetry (a : Fin 108) (g : BitVec 34) (s : State) : Host.Outcome State Fault Refusal :=
  .next (match s.mem.nacked.find? fun q => q.agent == a.val && q.gran == g.toNat with
    | some q =>
      let s := s.modMem fun m => { m with nacked := m.nacked.erase q }
      if s.fenceOwner (64 * q.gran) != wn q.world then
        (if s.missOut q.agent q.gran then s.setTrans q.agent q.gran (if (s.victim q.agent q.gran).isSome then some .miA else none)
          else s).homeFence q.agent q.world (64 * q.gran)
      else s.arrive q
    | none => s)

def execDirectoryRebuild (k : Fin 12) (set : Fin 16384) (s : State) : Host.Outcome State Fault Refusal :=
  .next (s.dirRebuild k.val set.val)

/-- The storage address of granule `i` of channel `ch` (R290): a[11:8] xor a[15:12] is the channel. -/
def channelAddr (ch i : Nat) : Nat :=
  let hi := i / 4 % 16
  i / 64 * 65536 + hi * 4096 + (hi ^^^ ch) * 256 + i % 4 * 64

/-- SCRUBCTL.INTERVAL bouts, 0 taken as 1, have passed since the latest scrub read of a channel (R292, R294). -/
def State.scrubDue (s : State) (ch : Nat) : Bool :=
  match Tbl.get none s.mem.scrubAt ch with
  | some b => decide (max 1 (s.regF rSCRUB 23 0) ≤ s.bounds - b)
  | none => true

/-- The patrol scrub reads the next granule of a channel when its interval has passed (R292). -/
def execPatrolScrub (ch : Fin 16) (s : State) : Host.Outcome State Fault Refusal :=
  .next (
    if bit (s.reg rSCRUB) 31 && bit (s.reg rMCSTAT) ch.val && s.scrubDue ch.val then
      let i := Tbl.get 0 s.mem.scrubPos ch.val
      let st := channelAddr ch.val i
      let top := 0x0C00000000 - s.carve
      let pa := if st < top then st else 0xE000000000 + (st - top)
      let s := (s.mcRead pa true).2
      s.modMem fun m => { m with
        scrubPos := Tbl.set 0 m.scrubPos ch.val ((i + 1) % 50331648), scrubAt := Tbl.set none m.scrubAt ch.val (some s.bounds) }
    else s)

end Sys2Proof.Machine
end

