-- ==== Sys2Proof/Machine/BinRows.lean ====
section
/-! DEFINITION. Commands on bins (R318, R330), the expiry of a source entry (R324), and the write that ends a debug break
of a pair (R309). -/

namespace Sys2Proof.Machine

/-- A source entry has the name of a key. -/
def SrcEntry.named (e : SrcEntry) (k : SrcKey) : Bool :=
  e.bin == k.bin.toNat && e.node == k.node.toNat && e.sbin == k.sbin.toNat && e.host == k.host

/-- A write of BDCTL that carries a command (R316, R318). -/
def State.binWrite' (s : State) (r : RegSrc) (n cmd : Nat) : State := s.regCmd r (binBase n) (v64 (fld 28 cmd))

def execClrdbgWrite (r : RegSrc) (p : Fin 48) (v : Val) (s : State) : Host.Outcome State Fault Refusal :=
  .next (s.regCmd r (pairBase p.val + 8) v)

/-- An entry goes after 64 consecutive bouts with ACT = 0 (R324). -/
def execSourceEntryExpiry (k : Fin 12) (src : SrcKey) (s : State) : Host.Outcome State Fault Refusal :=
  .next (s.setSrcs k.val ((s.srcs k.val).filter fun e => !(e.named src && decide (64 ≤ e.idle))))

def execActivate (r : RegSrc) (n : Fin 4096) (s : State) : Host.Outcome State Fault Refusal := .next (s.binWrite' r n.val 1)
def execBinDisable (r : RegSrc) (n : Fin 4096) (s : State) : Host.Outcome State Fault Refusal := .next (s.binWrite' r n.val 2)
def execBinForce (r : RegSrc) (n : Fin 4096) (s : State) : Host.Outcome State Fault Refusal := .next (s.binWrite' r n.val 3)
def execBinRelease (r : RegSrc) (n : Fin 4096) (s : State) : Host.Outcome State Fault Refusal := .next (s.binWrite' r n.val 4)
def execClear (r : RegSrc) (n : Fin 4096) (s : State) : Host.Outcome State Fault Refusal := .next (s.binWrite' r n.val 5)

/-- A Draining bin with no message in flight becomes Disabled (R330). -/
def execBinDrainComplete (n : Fin 4096) (s : State) : Host.Outcome State Fault Refusal :=
  .next (if s.binState n.val == 2 && !(s.bins.flight.any (·.bin == n.val)) then s.setBinState n.val 3 else s)

end Sys2Proof.Machine
end

