-- ==== Sys2Proof/Machine/Reeve.lean ====
section
/-! DEFINITION. The ports of the Reeve: command and reply packets (R406), sequence state (R408), queues of replies (R409,
R410, R412) and how each port delivers a reply (R409, R415, R416, R435). -/

namespace Sys2Proof.Machine

/-- Status codes of R407. -/
def stOK : Byte := 0x00
def stBUSY : Byte := 0x01
def stBAD_CRC : Byte := 0x02
def stBAD_SEQ : Byte := 0x03
def stDENIED : Byte := 0x04
def stBAD_PARAM : Byte := 0x05
def stNOT_READY : Byte := 0x06
def stFROZEN : Byte := 0x07
def stUNSUPPORTED : Byte := 0x08

/-- A command packet (R406). -/
def cmdPacket (op : Byte) (seq : BitVec 16) (ps : List Byte) : List Byte :=
  let b := [0xC7, op] ++ leBytes 2 seq.toNat ++ leBytes 2 ps.length ++ ps
  b ++ leBytes 2 (crc16 0xFFFF b).toNat

/-- A command packet that passes framing and CRC. -/
structure RCmd where
  op : Byte
  seq : BitVec 16
  ps : List Byte
deriving DecidableEq, Repr

/-- Read a command packet (R406, R407). -/
def parseCmd (bs : List Byte) : Option RCmd :=
  let n := leNat ((bs.drop 4).take 2)
  let body := bs.take (bs.length - 2)
  if bs.getD 0 0 == 0xC7 && decide (n ≤ 1024) && bs.length == n + 8 &&
      leNat (bs.drop (n + 6)) == (crc16 0xFFFF body).toNat then
    some ⟨bs.getD 1 0, BitVec.ofNat 16 (leNat ((bs.drop 2).take 2)), (bs.drop 6).take n⟩
  else none

namespace State

/-- An instance of a port (R408): a link port instance belongs to a source node. -/
def port (s : State) (p : Port) : PortSt :=
  match p with
  | .link _ n => ((s.reeve.linkPorts.find? (·.1 == n)).map (·.2)).getD {}
  | _ => Tbl.get {} s.reeve.ports (portKey p)

def setPort (s : State) (p : Port) (x : PortSt) : State :=
  match p with
  | .link _ n => { s with reeve := { s.reeve with linkPorts := s.reeve.linkPorts.map fun y => if y.1 == n then (n, x) else y } }
  | _ => { s with reeve := { s.reeve with ports := Tbl.set {} s.reeve.ports (portKey p) x } }

/-- A source node is heard: its instance becomes the most recent of at most 16 (R415). -/
def hearNode (s : State) (l : Nat) (n : BitVec 16) : State :=
  let x := (s.reeve.linkPorts.find? (·.1 == n)).getD (n, {})
  let l' := (s.reeve.linkPorts.filter (·.1 != n)) ++ [x]
  { s with reeve := { s.reeve with
    linkPorts := l'.drop (l'.length - 16), linkVia := Tbl.set 0 s.reeve.linkVia n.toNat l } }

/-- A reply packet (R406): NEXT_EVT is taken when it is made. -/
def replyPacket (s : State) (op : Byte) (seq : BitVec 16) (status : Byte) (data : List Byte) : List Byte :=
  let b := [0xC8, op] ++ leBytes 2 seq.toNat ++ [status] ++ leBytes 2 s.reeve.nextEvt.toNat ++ leBytes 2 data.length ++ data
  b ++ leBytes 2 (crc16 0xFFFF b).toNat

/-- The longest reply of a port (R406). -/
def replyLimit (s : State) (p : Port) : Nat :=
  match p with
  | .mgmt => s.reeve.mrl.toNat
  | .link _ _ => 512
  | _ => 1035

/-- The host's command window shows the oldest reply and vector 48 is sent (R435). -/
def showHost (s : State) : State :=
  if s.host.rplv then s
  else
    match (Tbl.get {} s.reeve.ports 2).queue with
    | [] => s
    | r :: _ =>
      let t : Tbl Val := (List.range 130).foldl (fun t k => Tbl.set 0 t k (v64 (leNat ((r.bytes.drop (8 * k)).take 8)))) []
      ({ s with host := { s.host with mbrpl := t, rplv := true, cmdb := false } }).sendVector 48

/-- A packet that carries command or reply bytes (R360). -/
def bytesPacket (s : State) (n ty : Nat) (bs : List Byte) : Packet :=
  let ws := (List.range ((bs.length + 7) / 8)).map fun i => rawWord (v64 (leNat ((bs.drop (8 * i)).take 8)))
  mkPacket s.srcNode n ty false false 0 (rawWord (v64 bs.length)) (rawWord 0) ws

/-- A queued reply reaches where its port shows or sends it (R409). -/
def pushReply (s : State) (p : Port) : State :=
  match p with
  | .core w => s.showMail w.val
  | .host => s.showHost
  | .mgmt => s.updateIbi
  | .debug => s
  | .link _ n =>
    let x := s.port p
    let s := s.setPort p { x with queue := [], out := x.out.filter fun q => !(x.queue.any fun r => r.seq == some q) }
    x.queue.foldl (fun s r => s.route none (s.bytesPacket n.toNat pRRPL r.bytes)) s

/-- Queue a reply; one to a packet that was not accepted is dropped while 32 are queued (R409). -/
def queueReply (s : State) (p : Port) (bs : List Byte) (acc : Option (BitVec 16)) (front : Bool) : State :=
  let x := s.port p
  let r : Reply := ⟨bs, acc⟩
  if acc.isNone && !front && 32 ≤ x.queue.length then s.setPort p { x with dropped := x.dropped + 1 }
  else (s.setPort p { x with queue := if front then r :: x.queue else x.queue ++ [r] }).pushReply p

/-- An accepted command completes: its reply is kept with the 16 newest and queued (R408, R409), or discarded
when a reset of its window came between (R416, R437). -/
def complete (s : State) (p : Port) (op : Byte) (seq : BitVec 16) (status : Byte) (data : List Byte) : State :=
  let bs := s.replyPacket op seq status data
  let x := s.port p
  let kept := x.kept.map fun k => if k.1 == seq then (k.1, k.2.1, some bs) else k
  if x.lost.contains seq then s.setPort p { x with kept := kept, lastDone := seq, lost := x.lost.erase seq }
  else (s.setPort p { x with kept := kept, lastDone := seq }).queueReply p bs (some seq) false

/-- A reply to a packet that is not accepted. -/
def reject (s : State) (p : Port) (op : Byte) (seq : BitVec 16) (status : Byte) : State :=
  s.queueReply p (s.replyPacket op seq status []) none false

/-- The data of SYNC (R412). -/
def syncData (s : State) (x : PortSt) : List Byte :=
  let oldest := match s.reeve.log with
    | e :: _ => e.num
    | [] => s.reeve.nextEvt
  leBytes 2 x.lastAcc.toNat ++ leBytes 2 x.lastDone.toNat ++ [BitVec.ofNat 8 x.queue.length, BitVec.ofNat 8 (min 255 x.dropped)] ++
    leBytes 2 s.reeve.nextEvt.toNat ++ leBytes 2 oldest.toNat ++ [if x.fresh then 1 else 0]

/-- SYNC is answered ahead of every queued reply (R412). -/
def answerSync (s : State) (p : Port) (seq : BitVec 16) : State :=
  let x := s.port p
  let bs := s.replyPacket 0x01 seq stOK (s.syncData x)
  (s.setPort p { x with dropped := 0, fresh := false }).queueReply p bs none true

/-- Bytes of the staging area (R421). -/
def staged (s : State) (o n : Nat) : List Byte := (List.range n).map fun i => Tbl.get (0 : BitVec 8) s.reeve.staging (o + i)

/-- Write bytes into the staging area upward from an offset. -/
def stage (s : State) (o : Nat) : List Byte → State
  | [] => s
  | b :: r => stage { s with reeve := { s.reeve with staging := Tbl.set (0 : BitVec 8) s.reeve.staging o b } } (o + 1) r

end State

/-- A signed image: its kind, level, body and all of its bytes (R421). -/
structure Image where
  kind : Nat
  level : Nat
  body : List Byte
  bytes : List Byte
deriving DecidableEq, Repr

/-- The checks of R421 on bytes that begin with an image. -/
def readImage (bs : List Byte) : Option Image :=
  let n := leNat ((bs.drop 8).take 4)
  let body := (bs.drop 64).take n
  if leNat (bs.take 4) == 0x4D494B43 && (bs.getD 4 0 == 1 || bs.getD 4 0 == 2) && bs.getD 5 0 == 0 &&
      decide (64 + n + 64 ≤ 262144) && decide (64 + n + 64 ≤ bs.length) && ((bs.drop 16).take 48).all (· == 0) &&
      leNat ((bs.drop 12).take 4) == (crc32 body).toNat && Config.signatureOk (bs.take (64 + n + 64)) then
    some ⟨(bs.getD 4 0).toNat, leNat ((bs.drop 6).take 2), body, bs.take (64 + n + 64)⟩
  else none

namespace State

/-- The staged image, when it passes the checks (R421): the staging area holds 262,144 bytes. -/
def stagedImage (s : State) : Option Image :=
  let n := leNat (s.staged 8 4)
  if 64 + n + 64 ≤ 262144 then readImage (s.staged 0 (64 + n + 64)) else none

/-- Reeve firmware runs (R401, R459 step 6). -/
def runFirmware (s : State) (im : Image) : State :=
  let s := s.setRegF rGLBBOOT 0 0 1
  { s with reeve := { s.reeve with fwWait := false, fwImage := im.bytes } }

end State

end Sys2Proof.Machine
end

