-- ==== Sys2Proof/Machine/FabRows.lean ====
section
/-! DEFINITION. Packets that arrive on a link (R361-R363), the destination's order check (R374, R375), what each packet
type does (R365-R368, R388-R398, R461), and the rows of the packet types. -/

namespace Sys2Proof.Packet

/-- Every word of the packet. -/
def words (p : Packet) : List Word := [p.w0, p.w1, p.w2, p.w3] ++ p.data

/-- Bytes carried by an RCMD, RRPL or NBOOT packet: `n` bytes of its data words. -/
def bytes (p : Packet) (n : Nat) : List Byte := (p.data.flatMap fun w => Machine.leBytes 8 w.val.toNat).take n

end Sys2Proof.Packet

namespace Sys2Proof.Machine

def isRaw (w : Word) : Bool := w.tag == 0x16
def isFix (w : Word) : Bool := w.tag == 0x01
def isRemote (w : Word) : Bool := w.type == tyREMOTE
def zeroWord (w : Word) : Bool := w == rawWord 0

/-- Words from index `n` on are the zero filling of the last flit. -/
def zerosFrom (ws : List Word) (n : Nat) : Bool := (ws.drop n).all zeroWord

namespace State

/-- The type, length, tags and the fields marked zero of R358-R361. -/
def packetOk (s : State) (p : Packet) : Bool :=
  let ty := p.ty
  let n := p.data.length / 4
  let v2 := p.w2.val
  let v3 := p.w3.val
  let d := p.data
  let mgmt := vcOf ty == 3
  let hdr := isRaw p.w0 && isRaw p.w1 && bits p.w0.val 7 0 == 0 && bits p.w1.val 46 26 == 0 &&
    p.data.length % 4 == 0 && p.len == n && decide (n ≤ 16) &&
    (decide (ty < 0x10) || (decide (0x20 ≤ ty) && decide (ty < 0x30)) || p.oseq == 0) && (!mgmt || p.ttag == 0)
  let good := p.words.all fun w => !(s.reservedType w.type) && !(s.malformed w)
  hdr && good &&
    (if ty == pRLOAD then n == 0 && isRemote p.w2 && isFix p.w3
     else if ty == pRCELL then n == 0 && isRemote p.w2 && isFix p.w3
     else if ty == pRSTORE || ty == pRSWAP then n == 1 && isRemote p.w2 && isFix p.w3 && zerosFrom d 1
     else if ty == pRCAS then n == 1 && isRemote p.w2 && isFix p.w3 && zerosFrom d 2
     else if ty == pRFADD then n == 1 && isRemote p.w2 && isFix p.w3 && zerosFrom d 1
     else if ty == pLEASE then
       isRaw p.w2 && decide (1 ≤ v2.toNat) && decide (v2.toNat ≤ 64) && n == (v2.toNat + 3) / 4 && zeroWord p.w3 &&
         (d.take v2.toNat).all isRemote && zerosFrom d v2.toNat
     else if ty == pRDATA then n == 0 && zeroWord p.w3
     else if ty == pRACK then n == 0 && zeroWord p.w2 && zeroWord p.w3
     else if ty == pRERR then n == 0 && isRaw p.w2 && zeroWord p.w3
     else if ty == pBANS then n == 0 && (p.w2 == trueWord || isFix p.w2) && zeroWord p.w3
     else if ty == pFNAK then n == 0 && isRaw p.w2 && zeroWord p.w3
     else if ty == pMSG then
       let h := d.getD 0 nilWord
       let l := bits h.val 19 14 + 1
       p.w2.tag == BitVec.ofNat 8 tyBINREF && zeroWord p.w3 && h.type == tyMSGHDR && n == (l + 3) / 4 && zerosFrom d l
     else if ty == pDISC || ty == pJOIN || ty == pASSIGN || ty == pEPOCH then n == 0 && isRaw p.w2 && isRaw p.w3
     else if ty == pRTUPD then isRaw p.w3 && d.all isRaw && isRaw p.w2
     else if ty == pRESYNC || ty == pRSACK then n == 0 && isRaw p.w2 && zeroWord p.w3
     else if ty == pRCMD || ty == pRRPL then
       isRaw p.w2 && decide (1 ≤ v2.toNat) && decide (v2.toNat ≤ 512) && n == (v2.toNat + 31) / 32 && zeroWord p.w3 && d.all isRaw
     else if ty == pNBOOT then isRaw p.w2 && isRaw p.w3 && d.all isRaw && n == (bits v3 15 0 + 31) / 32
     else false)

/-- What the class of a link does with a packet (R362). -/
inductive Verdict where
  | accept
  | discard
  | violation
deriving DecidableEq, Repr

/-- The bin of a MSG, and the world that a packet names (2 for none). DEDUCED (log entry 153): a message to a bin of another node
names none that is known here, an EPOCH of one world names that world. -/
def msgBin (p : Packet) : Nat := bits p.w2.val 11 0
def packetWorld (s : State) (p : Packet) : Nat :=
  if p.ty == pLEASE then b2n p.swld
  else if p.ty < 0x10 then b2n (bit p.w2.val 47)
  else if p.ty == pMSG then (if p.dst == s.nodeNo then b2n (s.binWld (msgBin p)) else 2)
  else if p.ty == pEPOCH && !(bit p.w2.val 46) then b2n (bit p.w2.val 47)
  else 2

/-- The rights of R362. -/
def linkRights (s : State) (l : Nat) (p : Packet) : Verdict :=
  let c := s.linkClass l
  let wl := bit (s.reg (rLNKCLS l)) 4
  let vc := vcOf p.ty
  if !p.isLocal && p.dst != s.nodeNo then (if c == 0 then .accept else .violation)
  else if c == 0 || vc == 1 then .accept
  else if vc == 0 then
    (if c == 1 && (if p.ty == pLEASE then (p.data.take p.w2.val.toNat).all fun w => bit w.val 47 == wl
      else bit p.w2.val 47 == wl) then .accept else .violation)
  else if vc == 2 then
    let n := msgBin p
    let lo := s.regF (rLNKCLS l) 19 8
    let hi := s.regF (rLNKCLS l) 31 20
    (if s.binWld n == wl && (c == 1 || (decide (lo ≤ n) && decide (n ≤ hi))) then .accept else .violation)
  else if [pRESYNC, pRSACK, pRCMD, pRRPL].contains p.ty then .accept
  else .discard

/-- The answer to a packet (R359): its TTAG and world are copied. -/
def answer (s : State) (p : Packet) (ty : Nat) (w2 : Word) : State :=
  s.route none (mkPacket s.srcNode p.src ty false p.swld p.ttag w2 (rawWord 0) [])

def sendFnak (s : State) (p : Packet) (reason : Nat) : State :=
  s.answer p pFNAK (rawWord (v64 (fld 48 p.oseq.toNat + fld 32 p.ty + reason)))

/-- Each word of a LEASE is handled on its own (R395); one whose entry cannot be read is skipped. -/
def leaseEach (s : State) (w : Bool) : List Word → Except WnwErr State
  | [] => .ok s
  | x :: r =>
    match leaseWords w [x] s with
    | .ok _ s => leaseEach s w r
    | .error (e, va) _ =>
      if e.waits then .error e else leaseEach ((wnwFail s w va e).incF (gcBase (wn w) + 0xA0) 63 0 1) w r

/-- A LEASE at its owner (R395): the error reason, 0 for an acknowledgement, and the state. -/
def leaseRun (s : State) (w : Bool) (ws : List Word) : Except WnwErr (Nat × State) :=
  let s := s.incF (modCtr 1) 63 0 1
  if !s.fabUp || !(expEn s w) then .ok (4, s) else (leaseEach s w ws).map fun s => (0, s)

/-- What stops a request here, or the answer and the state (R390, R395). -/
def requestRun (s : State) (p : Packet) : Except WnwErr (Answer × State) :=
  if p.ty == pLEASE then
    (leaseRun s p.swld (p.data.take p.w2.val.toNat)).map fun r => (if r.1 == 0 then .ack else .err r.1, r.2)
  else ownerRun s p.ty p.swld p.w2 p.w3 (p.data.getD 0 (rawWord 0)) (p.data.getD 1 (rawWord 0))

/-- A request is performed here and a MSG given to its engine (R322, R390, R395); none while it cannot be yet. -/
def performReq (s : State) (p : Packet) : Option State :=
  if p.ty == pMSG then
    let h := p.data.getD 0 nilWord
    let ws := p.data.take (bits h.val 19 14 + 1)
    some (s.binArrive (Flight.mk (msgBin p) (bits h.val 63 48) (bits h.val 47 36) false (BitVec.ofNat 16 (bits h.val 35 20)) ws
      p.swld (.packet p) false))
  else
    match s.requestRun p with
    | .error _ => none
    | .ok (.data w, s) => some (s.answer p pRDATA w)
    | .ok (.ack, s) => some (s.answer p pRACK (rawWord 0))
    | .ok (.err n, s) => some (s.answer p pRERR (rawWord (v64 n)))

/-- What a request that cannot be performed yet leaves at the Winnower that it waits for (R158). -/
def reqStop (s : State) (p : Packet) : State :=
  if vcOf p.ty == 0 && !s.tripped then
    match s.requestRun p with
    | .error e => wnwStop s p.swld 0 e
    | .ok _ => s
  else s

def srcOrd (s : State) (n : Nat) : SrcOrd := Tbl.get {} s.fab.src n
def setSrcOrd (s : State) (n : Nat) (e : SrcOrd) : State := { s with fab := { s.fab with src := Tbl.set {} s.fab.src n e } }

/-- Held packets whose turn has come are delivered in order (R374); `f` bounds them. -/
def drainHeld (s : State) (n : Nat) (m : Bool) : Nat → State
  | 0 => s
  | f + 1 =>
    let e := s.srcOrd n
    let held := if m then e.heldMsg else e.heldReq
    match held.find? fun h => h.1 == (if m then e.msg else e.req) with
    | none => s
    | some h =>
      match s.performReq h.2.2 with
      | none => s.reqStop h.2.2
      | some s =>
        let e := s.srcOrd n
        let e' := if m then { e with msg := e.msg + 1, gapMsg := 0, heldMsg := e.heldMsg.filter (·.1 != h.1) }
          else { e with req := e.req + 1, gapReq := 0, heldReq := e.heldReq.filter (·.1 != h.1) }
        drainHeld (s.setSrcOrd n e') n m f

/-- The order check of the destination (R374). -/
def takeOrdered (s : State) (l : Nat) (p : Packet) : Option State :=
  let n := p.src
  let m := vcOf p.ty == 2
  let e := s.srcOrd n
  let x := if m then e.msg else e.req
  if !e.valid then some (s.sendFnak p 4)
  else if p.oseq == x then
    (s.performReq p).map fun s =>
      let e := s.srcOrd n
      (s.setSrcOrd n (if m then { e with msg := x + 1, gapMsg := 0 } else { e with req := x + 1, gapReq := 0 })).drainHeld n m 16
  else if newer16 p.oseq x then
    if (if m then e.heldMsg else e.heldReq).any (·.1 == p.oseq) then some (s.incF rFABDUP 63 0 1)
    else if e.heldMsg.length + e.heldReq.length < 16 then
      let h := (p.oseq, l, p)
      some ((s.setSrcOrd n (if m then { e with heldMsg := e.heldMsg ++ [h] } else { e with heldReq := e.heldReq ++ [h] })).incF
        rFABHELD 63 0 1)
    else some ((s.sendFnak p 3).incF rFABRSND 63 0 1)
  else some (s.incF rFABDUP 63 0 1)

/-- Every transaction of the module fails with NOADDR when its address is lost (R367). -/
def failAll (s : State) : State :=
  let s := s.fab.ott.foldl (fun s (x : Nat × Ott) => if x.2.busy then s.completeOtt x.1 (.error 14) else s) s
  { s with fab := { s.fab with dst := [] } }

/-- A FNAK reaches the source (R370, R374, R375): the transaction is the one whose TTAG it copies (R362); a RESEND names it by
its number, for one of R374 answers no packet (DEDUCED, log entry 143). A reason outside 1 to 4 does nothing. -/
def takeFnak (s : State) (p : Packet) : State :=
  let q := BitVec.ofNat 16 (bits p.w2.val 63 48)
  let ty := bits p.w2.val 39 32
  let r := bits p.w2.val 7 0
  let named (e : Ott) : Bool := e.busy && e.node == p.src && (match e.packet with
    | some x => x.oseq == q && vcOf x.ty == vcOf ty
    | none => false)
  let tagged (e : Ott) : Bool := e.busy && (match e.packet with
    | some x => x.ttag == p.ttag
    | none => false)
  match if r == 3 then s.fab.ott.find? fun x => named x.2 else s.fab.ott.find? fun x => tagged x.2 with
  | none => s.incF rFABNOMATCH 63 0 1
  | some (ix, e) =>
    let n := e.node
    if r == 1 || r == 2 then s.abandonTx ix n 12
    else if r == 3 then { s with fab := { s.fab with resend := s.fab.resend ++ [(n, vcOf ty, q, s.cycle + 256)] } }
    else if r != 4 then s
    else
      let d := s.dstCtr n
      let w := d.waiting.filter fun x => (s.ott x.1).packet.isSome && x.1 != ix
      let rest := d.waiting.filter fun x => (s.ott x.1).packet.isNone
      let w := w ++ (match e.packet with | some x => [(ix, x)] | none => [])
      (s.setDst n { d with unsync := true, resyncing := false, waiting := w ++ rest }).kick n

/-- RSACK (R375): the held-back packets go; those sent before keep their numbers. -/
def takeRsack (s : State) (n : Nat) : State :=
  let d := s.dstCtr n
  if !d.resyncing then s
  else
    let s := s.setDst n { d with unsync := false, resyncing := false, waiting := [] }
    d.waiting.foldl (fun s x =>
      match (s.ott x.1).packet with
      | some y => routeGo 3 s none [] y
      | none => s.numberAndSend n x.1 x.2) s

/-- A response reaches the requester whose TTAG it copies (R362, R391), when it is one that the request can have. -/
def takeResponse (s : State) (p : Packet) : State :=
  let ix := p.ttag % 2 ^ 17
  let e := s.ott ix
  let fits := e.busy && (match e.packet with
    | some x => x.ttag == p.ttag
    | none => false) &&
    (if p.ty == pRDATA then [0, 1, 3, 4, 5].contains e.kind
     else if p.ty == pRACK then e.kind == 2 || e.kind == 6
     else if p.ty == pRERR then e.kind != 7
     else e.kind == 7)
  if !fits then s.incF rFABNOMATCH 63 0 1
  else
    s.completeTx ix (if p.ty == pRDATA then .word p.w2
      else if p.ty == pRACK then .none
      else if p.ty == pRERR then .error p.w2.val.toNat
      else .answer p.w2)

/-- The module's candidate key (R365): its ROOTPREF and identity. -/
def rootPref (s : State) : Bool := bit (s.reg rFABCTL) 1
def betterKey (p : Bool) (k : BitVec 64) (q : Bool) (j : BitVec 64) : Bool := (p && !q) || (p == q && decide (k.toNat < j.toNat))

/-- Neighbours on Up PEER links whose candidate can be reached (R365): link and what it said. -/
def neighbours (s : State) : List (Nat × Neigh) :=
  (List.range 6).filterMap fun l =>
    match Tbl.get none s.fab.neigh l with
    | some n => if s.linkState l == 5 && s.linkClass l == 0 && n.dist < 254 then some (l, n) else none
    | none => none

/-- DISC on every Up PEER link (R365, R381). -/
def sendDisc (s : State) : State :=
  let w3 := fld 63 (b2n s.fab.bestPref) + fld 48 (s.regF rFABSTAT 15 8) + fld 32 s.nodeNo + fld 31 (b2n s.fabUp) + s.regF rBTCTL 1 0
  let p := mkPacket 0 0 pDISC true false 0 (rawWord s.fab.best) (rawWord (v64 w3)) []
  let s := { s with fab := { s.fab with lastDisc := 0 } }
  s.peerLinks.foldl (fun s l => s.sendOn l p) s

/-- The parent link: the least distance to the best candidate, the lowest index on a tie (R365). -/
def parentOf (s : State) (p : Bool) (k : BitVec 64) : Option (Nat × Neigh) :=
  (s.neighbours.filter fun x => x.2.pref == p && x.2.key == k).foldl (fun b x =>
    match b with
    | none => some x
    | some y => if x.2.dist < y.2.dist then some x else some y) none

/-- The module takes part in discovery (R365): DISCEN is set and the firmware, which begins it, runs (R459 step 7). -/
def discovers (s : State) : Bool := bit (s.reg rFABCTL) 2 && bit (s.reg rGLBBOOT) 0

/-- The best candidate, the distance to it and the parent link are computed again (R365); a change is sent as DISC. The
distance to the root (R381) is unknown while the module's own key is best and it is not yet the root. -/
def elect (s : State) : State :=
  if !s.discovers then s
  else
    let own := s.reg rFABCHIP
    let (bp, bk) := s.neighbours.foldl (fun (b : Bool × BitVec 64) x =>
      if betterKey x.2.pref x.2.key b.1 b.2 then (x.2.pref, x.2.key) else b) (s.rootPref, own)
    let self := bk == own
    let par := if self then none else s.parentOf bp bk
    let dist := match par with
      | some x => x.2.dist + 1
      | none => 0
    let pl := match par with
      | some x => x.1
      | none => 7
    let changed := bk != s.fab.best || bp != s.fab.bestPref
    let moved := s.regF rFABSTAT 15 8 != dist
    let s := { s with fab := { s.fab with
      best := bk, bestPref := bp, bestSelf := self, elect := if changed then 0 else s.fab.elect,
      joinAge := if changed then min s.fab.joinAge 16 else s.fab.joinAge,
      rnodeOld := s.fab.rnodeOld || (changed && !self) } }
    let s := s.setRegF rFABSTAT 15 8 dist
    let s := if self then s else (s.setReg rFABROOT bk).setRegF rFABSTAT 7 7 0
    let s := if s.regF rBTSTAT 58 56 != pl then
        { (s.setRegF rBTSTAT 58 56 pl).setRegF rBTSTAT 63 63 0 with fab := { s.fab with alignCnt := 0 } }
      else s
    let s := s.setRegF rBTSTAT 55 48 (if self && !(bit (s.reg rFABSTAT) 7) then 0xFF else dist)
    if changed || moved then s.sendDisc else s

/-- The parent neighbour, once there is one. -/
def parent (s : State) : Option (Nat × Neigh) :=
  if s.fab.bestSelf then none else s.parentOf s.fab.bestPref s.fab.best

/-- A module without an address asks its parent for one (R366), while the periods agree (R380). -/
def sendJoin (s : State) : State :=
  match s.parent with
  | some (l, n) =>
    if n.fab && n.period == s.regF rBTCTL 1 0 then
      let w3 := fld 32 s.nodeNo + fld 31 (b2n (bit (s.reg rFABCTL) 0)) + n.node.toNat
      let s := { s with fab := { s.fab with joinAge := 4096 } }
      s.sendOn l (mkPacket 0 0 pJOIN true false 0 (rawWord (s.reg rFABCHIP)) (rawWord (v64 w3)) [])
    else s
  | none => s

/-- DISC arrives (R365). -/
def takeDisc (s : State) (l : Nat) (p : Packet) : State :=
  if !s.discovers then s
  else
    let v := p.w3.val
    let n : Neigh := ⟨p.w2.val, bit v 63, bits v 55 48, BitVec.ofNat 16 (bits v 47 32), bit v 31, bits v 1 0⟩
    let s := { s with fab := { s.fab with neigh := Tbl.set none s.fab.neigh l (some n) } }
    let s := s.setRegF (rLNKCLS l) 47 32 n.node.toNat
    let s := s.elect
    let s := match s.parent with
      | some (k, _) => if k == l && n.period != s.regF rBTCTL 1 0 then s.logEvent 7 3 l 2 0 0 else s
      | none => s
    if !s.fabUp && s.fab.joinAge == 0 then s.sendJoin else s

def addrOf (s : State) (n : Nat) : AddrRec := Tbl.get {} s.fab.addrs n
def setAddr (s : State) (n : Nat) (a : AddrRec) : State := { s with fab := { s.fab with addrs := Tbl.set {} s.fab.addrs n a } }
def addrFree (s : State) (n : Nat) : Bool := !(s.addrOf n).held && (s.addrOf n).blocked == 0

/-- The root's choice for a JOIN (R366, R367): the node, or a refusal. -/
def rootChoose (s : State) (req : Nat) (fixed : Bool) (par : Nat) : Option Nat :=
  if fixed && s.addrFree req then some req
  else if fixed && (s.addrOf req).held then none
  else
    match (List.range 63).find? fun i => s.addrFree (par / 64 * 64 + i + 1) with
    | some i => some (par / 64 * 64 + i + 1)
    | none =>
      (((List.range 1024).find? fun g => (List.range 64).all fun i => s.addrFree (64 * g + i))).map (64 * ·)

def assignPacket (s : State) (dst : Nat) (loc : Bool) (chip : Val) (node root : Nat) (refused : Bool) : Packet :=
  mkPacket s.srcNode dst pASSIGN loc false 0 (rawWord chip) (rawWord (v64 (fld 32 node + fld 16 root + b2n refused))) []

/-- An ASSIGN for this module (R366, R367). -/
def takeAssign (s : State) (node root : Nat) (refused : Bool) : State :=
  if refused then
    let s := s.setRegF rFABSTAT 6 6 1
    if s.fabUp then ((s.setRegF rFABNODE 16 16 0).failAll).logEvent 7 4 0 2 0 0
    else s.logEvent 7 2 0 2 0 0
  else
    let s := (s.setReg rFABNODE (v64 (fld 16 1 + node))).setRegF rFABSTAT 31 16 root
    let s : State := { s with fab := { s.fab with joinAge := if s.fab.rnodeOld then 16 else 4096, rnodeOld := false } }
    (s.setRegF rFABSTAT 6 6 0).logEvent 7 1 0 2 0 0

/-- The root's answer to a JOIN: to the parent that forwarded it, or, for a joiner on a link of the root, `via`. -/
def replyAssign (s : State) (dst : Nat) (via : Option Nat) (chip : Val) (node : Nat) (refused : Bool) : State :=
  match via with
  | some l => s.sendOn l (s.assignPacket 0 true chip node s.nodeNo refused)
  | none =>
    if dst == s.nodeNo && chip == s.reg rFABCHIP then s.takeAssign node s.nodeNo refused
    else s.route none (s.assignPacket dst false chip node s.nodeNo refused)

/-- The root handles a JOIN (R366, R367). -/
def rootJoin (s : State) (src : Nat) (via : Option Nat) (chip : Val) (req : Nat) (fixed : Bool) (par : Nat) : State :=
  let a := s.addrOf req
  if fixed && a.held && a.chip == chip then (s.setAddr req { a with age := 0 }).replyAssign src via chip req false
  else if fixed && a.held && via.isNone && src == req then
    if chip.toNat < a.chip.toNat then
      let s := (s.setAddr req { a with chip := chip, age := 0 }).replyAssign src via chip req false
      s.replyAssign req none a.chip req true
    else s.replyAssign src via chip req true
  else
    match s.rootChoose req fixed par with
    | some n => (s.setAddr n { chip := chip, held := true }).replyAssign src via chip n false
    | none => s.replyAssign src via chip req true

def isRoot (s : State) : Bool := bit (s.reg rFABSTAT) 7

/-- JOIN arrives: LOCAL from a joiner, or routed at the root (R366). -/
def takeJoin (s : State) (l : Nat) (p : Packet) : State :=
  let chip := p.w2.val
  let req := bits p.w3.val 47 32
  let fixed := bit p.w3.val 31
  if p.isLocal then
    if !s.fabUp then s
    else
      let s := { s with fab := { s.fab with joins := Tbl.set none s.fab.joins l (some (chip, 0)) } }
      if s.isRoot then s.rootJoin s.nodeNo (some l) chip req fixed s.nodeNo
      else s.route none (mkPacket s.srcNode (s.regF rFABSTAT 31 16) pJOIN false false 0 p.w2
        (rawWord (v64 (fld 32 req + fld 31 (b2n fixed) + s.nodeNo))) [])
  else if s.isRoot then s.rootJoin p.src none chip req fixed (bits p.w3.val 15 0)
  else s

/-- ASSIGN arrives: for this module, or for a joiner on a recorded link (R366). -/
def takeAssignPacket (s : State) (p : Packet) : State :=
  let chip := p.w2.val
  let node := bits p.w3.val 47 32
  let root := bits p.w3.val 31 16
  let refused := bit p.w3.val 0
  if chip == s.reg rFABCHIP then s.takeAssign node root refused
  else
    match s.fab.joins.find? fun (_, j) => (j.map (·.1)) == some chip with
    | some (l, _) =>
      let s := { s with fab := { s.fab with joins := Tbl.set none s.fab.joins l none } }
      s.sendOn l { (s.assignPacket 0 true chip node root refused) with w3 := p.w3 }
    | none => s

/-- One pair of RTUPD (R360, R368). -/
def rtupdPair (s : State) (k v : Val) : State :=
  let i := bits k 15 0
  match bits k 17 16 with
  | 0 => if i < 1024 then s.setReg (rRTSEG i) (v64 (bits v 15 9 * 512 + bits v 7 0)) else s
  | 1 => if i < 64 then s.setReg (rRTMOD i) (v64 (bits v 15 9 * 512 + bits v 7 0)) else s
  | 2 => if i < 6 then s.setRegF (rLNKCLS i) 3 3 (bits v 0 0) else s
  | _ => s

/-- The pairs of an RTUPD, in order. -/
def rtupdAll (s : State) : List Word → State
  | a :: b :: r => rtupdAll (s.rtupdPair a.val b.val) r
  | _ => s

/-- A line of the remote object cache that an EPOCH names (R398). -/
def epochHits (v : Val) (node : BitVec 16) (w : Bool) : Bool :=
  bit v 46 || (node.toNat == bits v 63 48 && w == bit v 47)

/-- EPOCH arrives (R398). -/
def takeEpoch (s : State) (l : Nat) (p : Packet) : State :=
  let v := p.w2.val
  let key := 2 * bits p.w3.val 63 48 + b2n (bit v 47)
  let n := BitVec.ofNat 16 (bits v 15 0)
  let seen := match s.fab.epochs.find? (·.1 == key) with
    | some e => !(newer16 n e.2)
    | none => false
  if seen then s
  else
    let es := (s.fab.epochs.filter (·.1 != key)) ++ [(key, n)]
    let roc := s.fab.roc.filter fun x => !(epochHits v x.node x.world)
    let ott := s.fab.ott.map fun (i, e) =>
      (i, if e.busy && (e.kind == 0 || e.kind == 1) && e.ref.imm &&
          epochHits v (BitVec.ofNat 16 (bits e.ref.val 63 48)) (bit e.ref.val 47) then { e with noCache := true } else e)
    let s := { s with fab := { s.fab with epochs := es.drop (es.length - 64), roc := roc, ott := ott } }
    (s.peerLinks.filter (· != l)).foldl (fun s k =>
      s.sendOn k (mkPacket s.nodeNo (s.linkPnode k) pEPOCH false false 0 p.w2 p.w3 [])) s

/-- RCMD arrives: a command of the source node's instance (R415). -/
def takeRcmd (s : State) (l : Nat) (p : Packet) : State :=
  if !s.reeve.up || !(bit (s.reg rGLBBOOT) 0) then s
  else
    let n := BitVec.ofNat 16 p.src
    let s := s.hearNode l n
    { s with reeve := { s.reeve with inbox := s.reeve.inbox ++ [(.link (Fin.ofNat 6 l) n, p.bytes p.w2.val.toNat)] } }

/-- RRPL arrives: the answer that the oldest FABSEND to its node waits for (R424). -/
def takeRrpl (s : State) (p : Packet) : State :=
  match s.reeve.fabsend.find? fun f => f.node.toNat == p.src with
  | some f =>
    let bs := p.bytes p.w2.val.toNat
    let s := { s with reeve := { s.reeve with fabsend := s.reeve.fabsend.erase f } }
    if s.replyLimit f.port < 11 + bs.length then s.complete f.port 0x53 f.seq stBAD_PARAM []
    else s.complete f.port 0x53 f.seq stOK bs
  | none => s

/-- An NBOOT packet on a link (R461). -/
def nbootPacket (kind off : Nat) (bs : List Byte) : Packet :=
  let ws := (List.range ((bs.length + 7) / 8)).map fun i => rawWord (v64 (leNat ((bs.drop (8 * i)).take 8)))
  mkPacket 0 0 pNBOOT true false 0 (rawWord (v64 (fld 56 kind + off))) (rawWord (v64 bs.length)) ws

/-- The booting module verifies the staged image and runs it, or asks the next Up link after `l` (R461). -/
def nbootEnd (s : State) (l : Nat) : State :=
  match s.stagedImage with
  | some im => if im.kind == 1 then s.runFirmware im else s
  | none =>
    let s := s.logEvent 0 4 0 2 0 0
    let s := { s with reeve := { s.reeve with nbFrom := 0 } }
    match ((List.range 6).map fun i => (l + 1 + i) % 6).find? fun k => s.linkState k == 5 with
    | some k => s.sendOn k (nbootPacket 1 0 [])
    | none => s

/-- The server sends its image from an offset: DATA packets and END (R461). -/
def nbootServe (s : State) (l off : Nat) : State :=
  let im := s.reeve.fwImage
  let n := (im.length - off + 511) / 512
  let s := (List.range n).foldl (fun s i =>
    s.sendOn l (nbootPacket 2 (off + 512 * i) ((im.drop (off + 512 * i)).take 512))) s
  s.sendOn l (nbootPacket 3 im.length [])

/-- NBOOT arrives (R461). -/
def takeNboot (s : State) (l : Nat) (p : Packet) : State :=
  let kind := bits p.w2.val 63 56
  let off := bits p.w2.val 31 0
  let n := bits p.w3.val 15 0
  if kind == 1 || kind == 4 then
    if bit (s.reg rGLBBOOT) 0 && bit (s.reg rNBCTL) 0 && s.linkClass l == 0 && !s.reeve.fwImage.isEmpty then
      s.nbootServe l (if kind == 4 then off else 0)
    else s
  else if s.reeve.fwWait && s.regF rGLBSTRAP 1 0 == 2 then
    if kind == 2 && 1 ≤ n && n ≤ 512 && off + n ≤ 262144 then
      if s.reeve.nbFrom < off then s.sendOn l (nbootPacket 4 s.reeve.nbFrom [])
      else
        let s := s.stage off (p.bytes n)
        { s with reeve := { s.reeve with nbFrom := max s.reeve.nbFrom (off + n) } }
    else if kind == 3 then
      (if s.reeve.nbFrom < off then s.sendOn l (nbootPacket 4 s.reeve.nbFrom []) else s.nbootEnd l)
    else s
  else s

/-- A packet for this module, admitted by its link, is acted on (R362, R374); none while it cannot be. -/
def actOn (s : State) (l : Nat) (p : Packet) : Option State :=
  let vc := vcOf p.ty
  if vc == 0 || vc == 2 then s.takeOrdered l p
  else if p.ty == pFNAK then some (s.takeFnak p)
  else if vc == 1 then some (s.takeResponse p)
  else if p.ty == pDISC then some (s.takeDisc l p)
  else if p.ty == pJOIN then some (s.takeJoin l p)
  else if p.ty == pASSIGN then some (s.takeAssignPacket p)
  else if p.ty == pRTUPD then
    some (if s.fabUp && s.linkClass l == 0 && p.src == s.regF rFABSTAT 31 16 then s.rtupdAll ([p.w2, p.w3] ++ p.data) else s)
  else if p.ty == pRESYNC then
    let o := s.srcOrd p.src
    let rq := BitVec.ofNat 16 (bits p.w2.val 15 0)
    let mg := BitVec.ofNat 16 (bits p.w2.val 31 16)
    let e : SrcOrd := { o with
      valid := true, req := rq, msg := mg,
      heldReq := o.heldReq.filter fun h => newer16 h.1 rq, heldMsg := o.heldMsg.filter fun h => newer16 h.1 mg }
    some ((s.setSrcOrd p.src e).answer p pRSACK p.w2)
  else if p.ty == pRSACK then some (s.takeRsack p.src)
  else if p.ty == pEPOCH then some (s.takeEpoch l p)
  else if p.ty == pRCMD then some (s.takeRcmd l p)
  else if p.ty == pRRPL then some (s.takeRrpl p)
  else some (s.takeNboot l p)

/-- A packet's violation of its link's rights (R363). -/
def linkViolation (s : State) (l : Nat) (p : Packet) : State :=
  let s := (s.setRegF rFRZP l l 1).flushCache l
  s.logViolation 0x10 1 (s.packetWorld p) l p.w0.val p.w1.val

/-- A packet that a link delivers (R357, R361-R363, R370); none while it stays in the receiver's buffer. -/
def fabIn (s : State) (l : Nat) (p : Packet) : Option State :=
  if s.tripped then none
  else if s.reeve.fwWait && s.regF rGLBSTRAP 1 0 == 2 then
    some (if p.ty == pNBOOT && s.packetOk p then s.takeNboot l p else s)
  else if s.linkFrozen l && vcOf p.ty != 1 then none
  else if !(s.packetOk p) then some (s.incF rFABBAD 63 0 1)
  else if !s.fabUp && !p.isLocal then some s
  else
    match s.linkRights l p with
    | .violation => some (s.linkViolation l p)
    | .discard => some (s.incF rFABBAD 63 0 1)
    | .accept => if !p.isLocal && p.dst != s.nodeNo then some (s.route (some l) p) else s.actOn l p

/-- A packet of `k` flits on a VC leaves the receiver's buffer (R352). -/
def freeFlits (s : State) (l v k : Nat) : State :=
  s.modLink l fun x => { x with freed := Tbl.set 0 x.freed v (Tbl.get 0 x.freed v + BitVec.ofNat 16 k), credDue := true }

/-- Packets held in a link's receive buffers are taken in order, each VC on its own (R363, R364). -/
def drainRx (s : State) (l : Nat) : State :=
  let xs := ((s.link l).rxOld.map fun x => (x, true)) ++ (s.link l).rxHeld.map fun x => (x, false)
  let s := s.modLink l fun x => { x with rxOld := [], rxHeld := [] }
  let go := xs.foldl (fun (a : State × List ((Nat × Packet) × Bool)) y =>
    let (x, old) := y
    if a.2.any (·.1.1 == x.1) then (a.1, a.2 ++ [y])
    else
      match a.1.fabIn l x.2 with
      | some s => (if old then s else s.freeFlits l x.1 x.2.flits, a.2)
      | none => (if a.1.linkFrozen l then a.1 else a.1.reqStop x.2, a.2 ++ [y])) (s, [])
  let rest (old : Bool) := (go.2.filter fun y => y.2 == old).map (·.1)
  go.1.modLink l fun x => { x with rxOld := rest true ++ x.rxOld, rxHeld := rest false ++ x.rxHeld }

/-- A whole packet reaches the fabric unit from link `l`; one that cannot be taken stays in the receive buffer. -/
def packetIn (s : State) (l v : Nat) (p : Packet) : State :=
  (s.modLink l fun x => { x with rxHeld := x.rxHeld ++ [(v, p)] }).drainRx l

/-- The row of a packet type: a packet of that type arrives on an Up link. -/
def packetRow (s : State) (l : Nat) (ty : Nat) (p : Packet) : State :=
  if p.ty == ty && s.linkState l == 5 then s.packetIn l (vcOf ty) p else s

end State

def execMsg (l : Fin 6) (p : Packet) (s : State) : Host.Outcome State Fault Refusal := .next (s.packetRow l.val pMSG p)
def execRload (l : Fin 6) (p : Packet) (s : State) : Host.Outcome State Fault Refusal := .next (s.packetRow l.val pRLOAD p)
def execRcell (l : Fin 6) (p : Packet) (s : State) : Host.Outcome State Fault Refusal := .next (s.packetRow l.val pRCELL p)
def execRstore (l : Fin 6) (p : Packet) (s : State) : Host.Outcome State Fault Refusal := .next (s.packetRow l.val pRSTORE p)
def execRcas (l : Fin 6) (p : Packet) (s : State) : Host.Outcome State Fault Refusal := .next (s.packetRow l.val pRCAS p)
def execRswap (l : Fin 6) (p : Packet) (s : State) : Host.Outcome State Fault Refusal := .next (s.packetRow l.val pRSWAP p)
def execRfadd (l : Fin 6) (p : Packet) (s : State) : Host.Outcome State Fault Refusal := .next (s.packetRow l.val pRFADD p)
def execLease (l : Fin 6) (p : Packet) (s : State) : Host.Outcome State Fault Refusal := .next (s.packetRow l.val pLEASE p)
def execRdata (l : Fin 6) (p : Packet) (s : State) : Host.Outcome State Fault Refusal := .next (s.packetRow l.val pRDATA p)
def execRack (l : Fin 6) (p : Packet) (s : State) : Host.Outcome State Fault Refusal := .next (s.packetRow l.val pRACK p)
def execRerr (l : Fin 6) (p : Packet) (s : State) : Host.Outcome State Fault Refusal := .next (s.packetRow l.val pRERR p)
def execBans (l : Fin 6) (p : Packet) (s : State) : Host.Outcome State Fault Refusal := .next (s.packetRow l.val pBANS p)
def execFnak (l : Fin 6) (p : Packet) (s : State) : Host.Outcome State Fault Refusal := .next (s.packetRow l.val pFNAK p)
def execDisc (l : Fin 6) (p : Packet) (s : State) : Host.Outcome State Fault Refusal := .next (s.packetRow l.val pDISC p)
def execJoin (l : Fin 6) (p : Packet) (s : State) : Host.Outcome State Fault Refusal := .next (s.packetRow l.val pJOIN p)
def execAssign (l : Fin 6) (p : Packet) (s : State) : Host.Outcome State Fault Refusal := .next (s.packetRow l.val pASSIGN p)
def execRtupd (l : Fin 6) (p : Packet) (s : State) : Host.Outcome State Fault Refusal := .next (s.packetRow l.val pRTUPD p)
def execResync (l : Fin 6) (p : Packet) (s : State) : Host.Outcome State Fault Refusal := .next (s.packetRow l.val pRESYNC p)
def execRsack (l : Fin 6) (p : Packet) (s : State) : Host.Outcome State Fault Refusal := .next (s.packetRow l.val pRSACK p)
def execEpoch (l : Fin 6) (p : Packet) (s : State) : Host.Outcome State Fault Refusal := .next (s.packetRow l.val pEPOCH p)
def execRrpl (l : Fin 6) (p : Packet) (s : State) : Host.Outcome State Fault Refusal := .next (s.packetRow l.val pRRPL p)
def execNboot (l : Fin 6) (p : Packet) (s : State) : Host.Outcome State Fault Refusal := .next (s.packetRow l.val pNBOOT p)

end Sys2Proof.Machine
end

