-- ==== Sys2Proof/Machine/Line.lean ====
section
/-! DEFINITION. The line of a Furrow link (R336, R337, R341): arithmetic in GF(2^8), the Reed-Solomon code RS(164,160), the
scrambler, the precoder and the PAM4 symbols of each lane. -/

namespace Sys2Proof.Machine

/-- A byte times α, modulo x^8 + x^4 + x^3 + x^2 + 1 (R341). -/
def gfTimesAlpha (b : Byte) : Byte := if b.msb then (b <<< 1) ^^^ 0x1D else b <<< 1

/-- The product in GF(2^8): the bits of `a` from the highest down. -/
def gfMul (a b : Byte) : Byte :=
  [7, 6, 5, 4, 3, 2, 1, 0].foldl (fun r i => if a.getLsbD i then gfTimesAlpha r ^^^ b else gfTimesAlpha r) 0

/-- α to the power `n`. -/
def gfAlpha : Nat → Byte
  | 0 => 1
  | n + 1 => gfTimesAlpha (gfAlpha n)

/-- The inverse, a^254. -/
def gfInv (a : Byte) : Byte := (List.range 7).foldl (fun r _ => gfMul (gfMul r r) a) 1 |> fun r => gfMul r r

/-- The value at `x` of the polynomial whose coefficients are `bs`, byte 0 the highest (DESIGN CHOICE, log entry 142). -/
def gfEval (x : Byte) (bs : List Byte) : Byte := bs.foldl (fun r b => gfMul r x ^^^ b) 0

/-- The four syndromes of a codeword, at the generator's roots α^0 to α^3 (R341). -/
def rsSyndromes (cw : List Byte) : Byte × Byte × Byte × Byte :=
  (gfEval 1 cw, gfEval 2 cw, gfEval 4 cw, gfEval 8 cw)

/-- The generator without its leading 1, highest coefficient first: (x + 1)(x + α)(x + α^2)(x + α^3). -/
def rsGenerator : Byte × Byte × Byte × Byte := (0x0F, 0x36, 0x78, 0x40)

/-- The parity bytes of 160 bytes (R341): the remainder of the message times x^4 by the generator. -/
def rsParity (msg : List Byte) : List Byte :=
  let (g3, g2, g1, g0) := rsGenerator
  let (a, b, c, d) := msg.foldl (fun (r : Byte × Byte × Byte × Byte) m =>
    let f := m ^^^ r.1
    (r.2.1 ^^^ gfMul f g3, r.2.2.1 ^^^ gfMul f g2, r.2.2.2 ^^^ gfMul f g1, gfMul f g0)) (0, 0, 0, 0)
  [a, b, c, d]

/-- The codeword of four flits' bytes. -/
def rsEncode (msg : List Byte) : List Byte := msg ++ rsParity msg

/-- The byte index of a codeword whose locator is `x`, if the codeword is that long. -/
def rsIndex (x : Byte) : Option Nat := (List.range 164).find? fun i => gfAlpha (163 - i) == x

/-- Byte `i` changed by `e`. -/
def fixByte (cw : List Byte) (i : Nat) (e : Byte) : List Byte := cw.set i (cw.getD i 0 ^^^ e)

/-- Two errors with locators `x` and `y`, corrected. -/
def rsFixTwo (cw : List Byte) (s0 s1 : Byte) (i j : Nat) : List Byte :=
  let x := gfAlpha (163 - i)
  let y := gfAlpha (163 - j)
  let e := gfMul (s1 ^^^ gfMul s0 y) (gfInv (x ^^^ y))
  fixByte (fixByte cw i e) j (s0 ^^^ e)

/-- Up to two byte errors are corrected (R341): the codeword within two bytes of what came, if there is one. -/
def rsDecode (cw : List Byte) : Option (List Byte) :=
  let (s0, s1, s2, s3) := rsSyndromes cw
  if (s0, s1, s2, s3) == (0, 0, 0, 0) then some cw
  else
    let det := gfMul s0 s2 ^^^ gfMul s1 s1
    let fixed : Option (List Byte) :=
      if det == 0 then (rsIndex (gfMul s1 (gfInv s0))).map fun i => fixByte cw i s0
      else
        let a := gfMul (gfMul s0 s3 ^^^ gfMul s1 s2) (gfInv det)
        let b := gfMul (gfMul s1 s3 ^^^ gfMul s2 s2) (gfInv det)
        match (List.range 164).filter fun i =>
          let x := gfAlpha (163 - i)
          gfMul x x ^^^ gfMul a x ^^^ b == 0 with
        | [i, j] => some (rsFixTwo cw s0 s1 i j)
        | _ => none
    match fixed with
    | some c => if rsSyndromes c == (0, 0, 0, 0) then some c else none
    | none => none

/-- The symbols of a byte, the most significant bit pair first (R337). -/
def byteSymbols (b : Byte) : List (BitVec 2) :=
  [b.extractLsb' 6 2, b.extractLsb' 4 2, b.extractLsb' 2 2, b.extractLsb' 0 2]

/-- The symbols in which two bytes differ. -/
def symbolsApart (a b : Byte) : Nat := ((byteSymbols a).zip (byteSymbols b)).countP fun p => p.1 != p.2

/-- The scrambler x^31 + x^28 + 1 takes one step (R337): its next bit, which also enters the register. -/
def scramStep (r : BitVec 31) : Bool × BitVec 31 :=
  let b := r.getLsbD 30 ^^ r.getLsbD 27
  (b, (r <<< 1) ||| (if b then 1 else 0))

/-- A symbol scrambled, its more significant bit first. -/
def scramSymbol (r : BitVec 31) (x : BitVec 2) : BitVec 2 × BitVec 31 :=
  let (a, r) := scramStep r
  let (b, r) := scramStep r
  (x ^^^ ((if a then 2 else 0) ||| (if b then 1 else 0)), r)

/-- The number of the level of a Gray coded pair (R336): 0b00, 0b01, 0b11, 0b10 are levels 0 to 3. -/
def grayLevel (x : BitVec 2) : BitVec 2 := x ^^^ (x >>> 1)

/-- The PAM4 amplitude of a level: -3, -1, +1, +3 (R336). -/
def amplitude (n : BitVec 2) : Int := 2 * (n.toNat : Int) - 3

/-- A lane of the transmitter: the scrambler, and the last level sent, for the precoder (R336, R337). -/
def laneSymbol (pre : Bool) (t : LaneTx) (x : BitVec 2) : Int × LaneTx :=
  let (y, r) := scramSymbol t.scram x
  let n := grayLevel y
  let m := if pre then n - t.last else n
  (amplitude m, ⟨r, m⟩)

/-- The symbols of a lane's bytes. -/
def laneSend (pre : Bool) (t : LaneTx) (bs : List Byte) : List Int × LaneTx :=
  (bs.flatMap byteSymbols).foldl (fun a x =>
    let y := laneSymbol pre a.2 x
    (a.1 ++ [y.1], y.2)) ([], t)

/-- The bytes of lane `i` of some whole number of rows of a codeword: byte k is on logical lane k mod 4 (R337). -/
def laneBytes (bs : List Byte) (i : Nat) : List Byte := (List.range (bs.length / 4)).map fun k => bs.getD (4 * k + i) 0

namespace State

/-- The bytes of a flit go out on the four lanes, with the codeword's parity after its fourth flit (R337, R341). -/
def lineOut (s : State) (l : Nat) (bs : List Byte) : State :=
  let pre := bit (s.reg (linkBase l + 8)) 8
  s.modLink l fun x =>
    let cw := x.txCw ++ bs
    let send := if 160 ≤ cw.length then bs ++ rsParity cw else bs
    let r := (List.range 4).map fun i => laneSend pre (Tbl.get {} x.txLanes i) (laneBytes send i)
    { x with
      txCw := if 160 ≤ cw.length then [] else cw, line := r.map (·.1),
      txLanes := (List.range 4).foldl (fun t i => Tbl.set {} t i ((r.map (·.2)).getD i {})) [] }

end State

end Sys2Proof.Machine
end

