-- ==== Sys2Proof/Machine/LinkRows.lean ====
section
/-! DEFINITION. The Furrow link level (R339-R356, R378, R379): flits, the receiver, acknowledgement and replay, credit,
markers, training, and what the transmitter sends in a flit slot. -/

namespace Sys2Proof.Flit

/-- Fields of the link control field (R343). -/
def kind (f : Flit) : Nat := f.ctl.toNat / 2 ^ 13
def ackv (f : Flit) : Bool := f.ctl.getLsbD 12
def vc (f : Flit) : Nat := f.ctl.toNat / 2 ^ 10 % 4
def ack (f : Flit) : Nat := f.ctl.toNat % 2 ^ 10

/-- Bytes 0 to 37 (R342). -/
def body (f : Flit) : List Byte := Machine.packWords [f.w0, f.w1, f.w2, f.w3] ++ Machine.leBytes 2 f.ctl.toNat

/-- The CRC that a flit with sequence number `n` carries (R344); 0xFFFF stands for an unsequenced flit. -/
def crcFor (f : Flit) (n : Nat) : BitVec 16 := Machine.crc16 0xFFFF (Machine.leBytes 2 n ++ f.body)

/-- The 40 bytes of a flit (R342). -/
def bytes (f : Flit) : List Byte := f.body ++ Machine.leBytes 2 f.crc.toNat

/-- The flit of 40 bytes (R342). -/
def ofBytes (bs : List Byte) : Flit :=
  let w := Machine.unpackWords 4 (bs.take 36)
  let h (i : Nat) : BitVec 16 := (bs.getD (i + 1) 0) ++ (bs.getD i 0)
  ⟨w.getD 0 nilWord, w.getD 1 nilWord, w.getD 2 nilWord, w.getD 3 nilWord, h 36, h 38⟩

/-- The flit with its control field and CRC filled in. -/
def withCtl (f : Flit) (kind : Nat) (ackv : Bool) (vc ack n : Nat) : Flit :=
  let g : Flit := { f with ctl := BitVec.ofNat 16 (kind * 2 ^ 13 + (if ackv then 2 ^ 12 else 0) + vc * 2 ^ 10 + ack % 2 ^ 10) }
  { g with crc := g.crcFor n }

/-- A flit of four words. -/
def ofWords (a b c d : Word) : Flit := ⟨a, b, c, d, 0, 0⟩

end Sys2Proof.Flit

namespace Sys2Proof.Machine

/-- The flits of a packet, HEAD first. -/
def packetFlits (p : Packet) : List Flit :=
  Flit.ofWords p.w0 p.w1 p.w2 p.w3 ::
    (List.range (p.data.length / 4)).map fun i =>
      Flit.ofWords (p.data.getD (4 * i) nilWord) (p.data.getD (4 * i + 1) nilWord) (p.data.getD (4 * i + 2) nilWord)
        (p.data.getD (4 * i + 3) nilWord)

/-- The packet of its flits, HEAD first. -/
def flitsPacket : List Flit → Packet
  | [] => ⟨rawWord 0, rawWord 0, rawWord 0, rawWord 0, []⟩
  | h :: d => ⟨h.w0, h.w1, h.w2, h.w3, d.flatMap fun f => [f.w0, f.w1, f.w2, f.w3]⟩

/-- The buffer sizes of stepping A1 (R351): request, response, message, management. -/
def rxSizes : List Nat := [128, 256, 256, 64]

namespace State

def lseq (l : Nat) : Nat := linkBase l + 0x18
def rxExp (s : State) (l : Nat) : Nat := s.regF (lseq l) 41 32
def txAck (s : State) (l : Nat) : Nat := s.regF (lseq l) 25 16
def txNext (s : State) (l : Nat) : Nat := s.regF (lseq l) 9 0

/-- Everything up to number `a` is acknowledged, when `a` is outstanding (R347). -/
def ackTo (s : State) (l a : Nat) : State :=
  let x := s.link l
  if !(x.replay.any fun t => t.seq.toNat == a) then s
  else
    let rest := (x.replay.dropWhile fun t => t.seq.toNat != a).drop 1
    let at_ := match x.replayAt with
      | some n => if rest.any fun t => t.seq.toNat == n then some n else (rest.head?.map fun t => t.seq.toNat)
      | none => none
    let s := s.modLink l fun x => { x with replay := rest, stalls := 0, replayAt := at_ }
    (s.setRegF (lseq l) 25 16 a).checkQuiesce l

/-- The ACK field of a flit accepted. -/
def takeAckField (s : State) (l : Nat) (f : Flit) : State := if f.ackv then s.ackTo l f.ack else s

/-- A replay from the outstanding flit numbered `n` begins (R348); the eighth with no advance of its ACK retrains the link
(R349). -/
def beginReplay (s : State) (l n : Nat) : State :=
  let x := s.link l
  if !(x.replay.any fun t => t.seq.toNat == n) then s
  else
    let s := (s.modLink l fun x => { x with replayAt := some n, stalls := x.stalls + 1 }).incF (linkBase l + 0x40) 63 0 1
    if 8 ≤ x.stalls + 1 then s.toRetrain l 2 else s

/-- NAKR for `e`: everything before it is acknowledged, the rest sent again (R348). -/
def takeNakr (s : State) (l e : Nat) : State := (s.ackTo l ((e + 1023) % 1024)).beginReplay l e

/-- A credit flit (R352). -/
def takeCred (s : State) (l : Nat) (v : Val) : State :=
  s.modLink l fun x => { x with pfreed := (List.range 4).foldl (fun t i =>
    Tbl.set 0 t i (BitVec.ofNat 16 (bits v (16 * i + 15) (16 * i)))) [] }

/-- Symbol times of the running period (R12, R336): 28,125 in a microsecond. -/
def periodUI (s : State) : Nat := 28125 <<< (s.regF rBTCTL 1 0)

/-- The phase error that a parent's marker shows, in symbol times (R378). -/
def markTheta (s : State) (l : Nat) (delay echo : Nat) (ta : Nat) : Int :=
  let dOut : Int := (s.link l).markT0
  let lat : Int := ((ta : Int) - dOut - echo - delay) / 2
  let p : Int := s.periodUI
  let t := ((ta : Int) - delay - lat) % p
  if 2 * t ≤ p then t else t - p

/-- The boundary is corrected toward the parent (R378). -/
def alignTo (s : State) (theta : Int) : State :=
  let s := s.setRegF rBTSTAT 31 0 ((theta * 320 / 9) % 2 ^ 32).toNat
  let big := decide (1800 < theta.natAbs)
  let adj : Int := if big then theta else if 375 ≤ 4 * theta.natAbs then (if theta < 0 then -94 else 94) else theta
  let ok := decide (theta.natAbs ≤ 225)
  let n := if ok then min 4 (s.fab.alignCnt + 1) else 0
  let s := { s with fab := { s.fab with btAdj := adj, alignCnt := n } }
  let s := if big then s.incF rBTSTEP 63 32 1 else s
  if !ok then s.setRegF rBTSTAT 63 63 0 else if n == 4 then s.setRegF rBTSTAT 63 63 1 else s

/-- A marker arrives at time `ta`, in symbol times from the own boundary t0 (R378, R379). -/
def takeMark (s : State) (l : Nat) (f : Flit) (ta : Nat) : State :=
  let s := s.modLink l fun x => { x with markIn := true, markTa := ta }
  let fromParent := s.regF rBTSTAT 58 56 == l
  let s := if s.isRoot || fromParent then
      (if s.fab.btJumpTo.toNat < f.w0.val.toNat then { s with fab := { s.fab with btJumpTo := f.w0.val } } else s)
    else s
  let period := match s.parent with
    | some (_, n) => n.period == s.regF rBTCTL 1 0
    | none => false
  if fromParent && !s.isRoot && bit f.w3.val 63 && period then s.alignTo (s.markTheta l f.w1.val.toNat f.w2.val.toNat ta)
  else s

/-- Param starts with every counter at its first value (R346, R352), and the parameters are to be sent. -/
def enterParam (s : State) (l : Nat) : State :=
  let keep := s.link l
  let w1 := (List.range 4).foldl (fun n i => n + (rxSizes.getD i 0) * 2 ^ (16 * i)) 0
  let s := s.modLink l fun _ => {
    q := keep.q, retrains := keep.retrains, rxOld := keep.rxOld, ctrlDue := [(1, rawWord (v64 w1))] }
  (s.setReg (lseq l) (regReset (lseq l))).setLinkState l 4

/-- The partner's parameters (R339, R351, R355): sizes in word 1, identity in word 2, version in word 3. -/
def takeParams (s : State) (l : Nat) (f : Flit) : State :=
  if s.linkState l != 4 then s
  else if f.w3.val != 1 then s.linkDown l 7 5
  else
    let old := s.reg (linkBase l + 0x10)
    let s := s.setReg (linkBase l + 0x10) f.w2.val
    let s := s.modLink l fun x => { x with limit := (List.range 4).foldl (fun t i =>
      Tbl.set 0 t i (bits f.w1.val (16 * i + 15) (16 * i))) [] }
    let s := s.setLinkState l 5
    if old != 0 && old != f.w2.val then
      let s := s.setRegF (rLNKCLS l) 47 32 0
      let s := { s with fab := { s.fab with joins := Tbl.set none s.fab.joins l none } }
      s.logEvent 3 2 l 2 f.w2.val 0
    else s

/-- RESUME: the replay point, and the link is Up (R349). -/
def takeResume (s : State) (l : Nat) (f : Flit) : State :=
  if s.linkState l != 6 then s
  else
    let e := f.w1.val.toNat % 1024
    let s := s.ackTo l ((e + 1023) % 1024)
    let x := s.link l
    let s := if x.replay.any fun t => t.seq.toNat == e then
        (s.modLink l fun x => { x with replayAt := some e, stalls := 0 }).incF (linkBase l + 0x40) 63 0 1
      else s
    (s.setLinkState l 5).checkQuiesce l

/-- A CTRL flit by its code (R343). -/
def takeCtrl (s : State) (l : Nat) (f : Flit) : State :=
  match f.w0.val.toNat with
  | 1 => s.takeParams l f
  | 2 => s.takeResume l f
  | 3 => if s.linkState l == 5 then s.quiesce l false else s
  | 4 => if s.linkState l == 5 then s.toRetrain l 3 else s
  | _ => s

/-- A flit in error: counted, and a NAKR is sent unless one is outstanding (R345, R348); a marker in error is lost (R353). -/
def flitError (s : State) (l : Nat) (f : Flit) : State :=
  let s := s.incF (linkBase l + 0x38) 63 0 1
  let s := if f.kind == 3 then s.incF (linkBase l + 0x50) 63 0 1 else s
  s.modLink l fun x => if x.nakWait then x else { x with nakWait := true, nakDue := true }

/-- A sequenced flit joins its packet (R350). -/
def assemble (s : State) (l : Nat) (f : Flit) : State :=
  let s := if f.kind == 1 && !((s.link l).rxPart.isEmpty) then s.dropPartial l else s
  if f.kind == 2 && (s.link l).rxPart.isEmpty then s.freeFlits l f.vc 1
  else
    let part := (s.link l).rxPart ++ [f]
    let v := if f.kind == 1 then f.vc else (s.link l).rxVc
    let p := flitsPacket part
    let n := if p.len ≤ 16 then p.len else 0
    if part.length == n + 1 then (s.modLink l fun x => { x with rxPart := [], rxVc := v }).packetIn l v p
    else s.modLink l fun x => { x with rxPart := part, rxVc := v }

/-- The receiver's rules for a flit (R345). -/
def rxFlit (s : State) (l : Nat) (f : Flit) (ta : Nat) : State :=
  let st := s.linkState l
  let e := s.rxExp l
  if !s.flitsPass l then s
  else if (f.kind == 1 || f.kind == 2) && f.crc == f.crcFor e && st == 5 then
    let s := s.setRegF (lseq l) 41 32 ((e + 1) % 1024)
    let s := s.modLink l fun x => { x with accepted := true, ackDue := true, nakWait := false, nakDue := false }
    (s.takeAckField l f).assemble l f
  else if (f.kind == 0 || (3 ≤ f.kind && f.kind ≤ 6)) && f.crc == f.crcFor 0xFFFF then
    if f.kind == 4 then s.takeNakr l f.ack
    else
      let s := s.takeAckField l f
      if f.kind == 3 then s.takeMark l f ta
      else if f.kind == 5 then s.takeCred l f.w0.val
      else if f.kind == 6 then s.takeCtrl l f
      else s
  else s.flitError l f

/-- Symbols corrected on the logical lane that a receive lane carries count in its SYMC (R338, R356). -/
def countSymbols (s : State) (l : Nat) (cw good : List Byte) : State :=
  (List.range 4).foldl (fun s k =>
    let o := linkBase l + 0x80 + 8 * k
    let i := s.regF o 1 0
    s.incF o 63 32 (((laneBytes cw i).zip (laneBytes good i)).map fun p => symbolsApart p.1 p.2).sum) s

/-- What the decoder counts of a codeword (R341, R356), and the 16 in a row that fail to correct (R349). -/
def rsReport (s : State) (l : Nat) (cw : List Byte) : State :=
  match rsDecode cw with
  | some good =>
    let s := s.modLink l fun x => { x with uncorr := 0 }
    if good == cw then s else (s.incF (linkBase l + 0x28) 63 0 1).countSymbols l cw good
  | none =>
    let s := (s.modLink l fun x => { x with uncorr := x.uncorr + 1 }).incF (linkBase l + 0x30) 63 0 1
    if 16 ≤ (s.link l).uncorr && s.linkState l == 5 then (s.modLink l fun x => { x with uncorr := 0 }).toRetrain l 1 else s

/-- A codeword's four flits reach the receiver in order, corrected where the code can (R341). A marker's arrival time is a
free value here; the row MARK gives it. -/
def rxCodeword (s : State) (l : Nat) (cw : List Byte) : State :=
  let good := (rsDecode cw).getD cw
  let s := (List.range 4).foldl (fun s k =>
    let (v, s) := s.freeVal
    s.rxFlit l (Flit.ofBytes ((good.drop (40 * k)).take 40)) v.toNat) s
  s.rsReport l cw

/-- A row of one kind of unsequenced flit. -/
def flitRow (s : State) (l : Nat) (f : Flit) (ok : Bool) (ta : Nat) : State := if ok then s.rxFlit l f ta else s

/-- Put a flit on the wire, with the current acknowledgement (R347). -/
def emit (s : State) (l : Nat) (f : Flit) (kind vc n : Nat) (nak : Bool) : State :=
  let x := s.link l
  let e := s.rxExp l
  let g := if nak then f.withCtl kind false 0 e n else f.withCtl kind x.accepted vc (if x.accepted then (e + 1023) % 1024 else 0) n
  (s.modLink l fun x => { x with out := [g], ackDue := if nak then x.ackDue else false }).lineOut l g.bytes

def rawFlit (a b c d : Val) : Flit := Flit.ofWords (rawWord a) (rawWord b) (rawWord c) (rawWord d)

/-- The marker of the latest boundary (R353, R378). The symbol times from the boundary to this slot are a free value. -/
def emitMark (s : State) (l : Nat) : State :=
  let (v, s) := s.freeVal
  let d := v.toNat % 41
  let w3 := fld 63 (b2n (s.isRoot || bit (s.reg rBTSTAT) 63)) + s.regF rBTSTAT 55 48
  let echo := (s.link l).markEcho
  let s := s.modLink l fun x => { x with markDue := false, markT0 := d }
  s.emit l (rawFlit s.bout (v64 d) (v64 echo) (v64 w3)) 3 0 0xFFFF false

/-- A CTRL flit that is due (R343). -/
def emitCtrl (s : State) (l : Nat) (code : Nat) (w : Word) : State :=
  let s := s.modLink l fun x => { x with ctrlDue := x.ctrlDue.drop 1 }
  if code == 1 then s.emit l (Flit.ofWords (rawWord 1) w (rawWord (s.reg rFABCHIP)) (rawWord 1)) 6 0 0xFFFF false
  else if code == 2 then s.emit l (rawFlit 2 (v64 (s.rxExp l)) 0 0) 6 0 0xFFFF false
  else s.emit l (rawFlit (v64 code) 0 0 0) 6 0 0xFFFF false

/-- The next flit of the packet in transmission is sent for the first time (R346, R351, R352). -/
def emitNew (s : State) (l : Nat) : State :=
  let x := s.link l
  match x.cur with
  | [] => s
  | f :: rest =>
    let n := s.txNext l
    let head := x.curPkt.map fun p => rest.length == p.flits - 1
    let kind := if head == some true then 1 else 2
    let s := s.emit l f kind x.curVc n false
    let t : TxFlit := ⟨BitVec.ofNat 10 n, f.withCtl kind false x.curVc 0 n,
      if rest.isEmpty then x.curPkt.map fun p => (x.curVc, p) else none⟩
    let s := s.modLink l fun y => { y with
      cur := rest, curPkt := if rest.isEmpty then none else y.curPkt, replay := y.replay ++ [t],
      sent := Tbl.set 0 y.sent x.curVc (Tbl.get 0 y.sent x.curVc + 1) }
    s.setRegF (lseq l) 9 0 ((n + 1) % 1024)

/-- A flit is sent again (R348). -/
def emitReplay (s : State) (l n : Nat) : State :=
  let x := s.link l
  match x.replay.dropWhile fun t => t.seq.toNat != n with
  | [] => s.modLink l fun x => { x with replayAt := none }
  | t :: rest =>
    let s := s.emit l t.flit t.flit.kind t.flit.vc n false
    s.modLink l fun x => { x with replayAt := rest.head?.map fun t => t.seq.toNat }

/-- The VC whose packet starts next (R351): management first, the others in turn; a packet needs its credit. -/
def nextVc (s : State) (l : Nat) : Option Nat :=
  let x := s.link l
  let ready (v : Nat) : Bool := match Tbl.get [] x.q v with
    | p :: _ => decide (p.flits ≤ s.linkCredit l v)
    | [] => false
  if ready 3 then some 3
  else ([1, 2, 3].map fun i => (x.rr + i) % 3).find? ready

/-- A packet starts (R351). -/
def startPacket (s : State) (l v : Nat) : State :=
  s.modLink l fun x =>
    match Tbl.get [] x.q v with
    | p :: rest => { x with
      q := Tbl.set [] x.q v rest, cur := packetFlits p, curVc := v, curPkt := some p, rr := if v < 3 then v else x.rr }
    | [] => x

/-- One flit slot of the transmitter (R343-R354): a marker, a NAKR, a CTRL flit, a CRED, a flit sent again, a packet's next
flit, QUIESCE, or IDLE. -/
def flitSlot (s : State) (l : Nat) : State :=
  let st := s.linkState l
  let x := s.link l
  if s.tripped || !s.flitsPass l then s
  else
    match st == 5 && x.markDue, st == 5 && x.nakDue, x.ctrlDue with
    | true, _, _ => s.emitMark l
    | _, true, _ => (s.modLink l fun x => { x with nakDue := false }).emit l (rawFlit 0 0 0 0) 4 0 0xFFFF true
    | _, _, (c, w) :: _ => s.emitCtrl l c w
    | _, _, [] =>
      if st != 5 then s.emit l (rawFlit 0 0 0 0) 0 0 0xFFFF false
      else if x.credDue then
        let v := (List.range 4).foldl (fun n i => n + (Tbl.get 0 x.freed i).toNat * 2 ^ (16 * i)) 0
        (s.modLink l fun x => { x with credDue := false }).emit l (rawFlit (v64 v) 0 0 0) 5 0 0xFFFF false
      else
        match x.replayAt with
        | some n => s.emitReplay l n
        | none =>
          if 512 ≤ x.replay.length then s.emit l (rawFlit 0 0 0 0) 0 0 0xFFFF false
          else if !x.cur.isEmpty then s.emitNew l
          else if x.disabling && !x.quiesceSent then
            (s.modLink l fun x => { x with quiesceSent := true }).emit l (rawFlit 3 0 0 0) 6 0 0xFFFF false
          else
            match if x.quiesceTx then none else s.nextVc l with
            | some v => (s.startPacket l v).emitNew l
            | none =>
              let s := s.checkQuiesce l
              if s.linkState l == 5 then s.emit l (rawFlit 0 0 0 0) 0 0 0xFFFF false else s

/-- The scramblers are seeded in training, and the precoders begin with some level; the manual gives neither, so they are
free values (R337, log entry 142). -/
def seedLanes (s : State) (l : Nat) : State :=
  (List.range 4).foldl (fun s i =>
    let (v, s) := s.freeVal
    s.modLink l fun x => { x with txLanes := Tbl.set {} x.txLanes i ⟨v.extractLsb' 0 31, v.extractLsb' 31 2⟩ }) s

end State

def execLinkEnable (l : Fin 6) (s : State) : Host.Outcome State Fault Refusal := .next (s.linkCmdReg l.val 1)
def execLinkDisable (l : Fin 6) (s : State) : Host.Outcome State Fault Refusal := .next (s.linkCmdReg l.val 2)
def execLinkForce (l : Fin 6) (s : State) : Host.Outcome State Fault Refusal := .next (s.linkCmdReg l.val 3)
def execLinkRetrain (l : Fin 6) (s : State) : Host.Outcome State Fault Refusal := .next (s.linkCmdReg l.val 4)

/-- All four lanes see a signal (R339). -/
def execLinkDetect (l : Fin 6) (s : State) : Host.Outcome State Fault Refusal :=
  .next (if !s.tripped && s.linkState l.val == 1 then s.setLinkState l.val 2 else s)

/-- Train ends: precoding is used when both partners allow it (R336, R339). -/
def execTrainComplete (l : Fin 6) (pre : Bool) (s : State) : Host.Outcome State Fault Refusal :=
  .next (if !s.tripped && s.linkState l.val == 2 then
      (s.setRegF (linkBase l.val + 8) 8 8 (b2n (pre && bit (s.reg (linkBase l.val)) 6))).setLinkState l.val 3
    else s)

/-- Record what training found on the receive lanes, and the transmit lanes as they are (R338, R356). -/
def State.recordLanes (s : State) (l : Nat) (lanes : List LaneInfo) : State :=
  (List.range 8).foldl (fun s i =>
    let o := linkBase l + 0x80 + 8 * i
    let v := match lanes[i]? with
      | some x => fld 3 (b2n x.pol) + x.map.val
      | none => fld 2 1 + i % 4
    s.setRegF o 4 0 (fld 4 1 + v)) s

/-- Align ends with all four lanes in lock (R338, R339). -/
def execAlignComplete (l : Fin 6) (lanes : List LaneInfo) (s : State) : Host.Outcome State Fault Refusal :=
  .next (if !s.tripped && s.linkState l.val == 3 && lanes.length == 4 && (List.range 4).all fun i => lanes.any fun x => x.map.val == i then
      ((s.recordLanes l.val lanes).enterParam l.val).seedLanes l.val
    else s)

def execCtrlParameters (l : Fin 6) (f : Flit) (s : State) : Host.Outcome State Fault Refusal :=
  .next (s.flitRow l.val f (f.kind == 6 && f.w0.val == 1) 0)

/-- 100 ms after Failed (R339). -/
def execLinkAutoRetry (l : Fin 6) (s : State) : Host.Outcome State Fault Refusal :=
  .next (if !s.tripped && s.linkState l.val == 7 && bit (s.reg (linkBase l.val)) 5 then s.setLinkState l.val 1 else s)

def execLaneLockLoss (l : Fin 6) (s : State) : Host.Outcome State Fault Refusal :=
  .next (if !s.tripped && s.linkState l.val == 5 then s.toRetrain l.val 1 else s)

/-- A retraining link reaches lock: RESUME is to be sent (R349). How far the scramblers ran in the training is not known. -/
def execRetrainLock (l : Fin 6) (s : State) : Host.Outcome State Fault Refusal :=
  .next (if !s.tripped && s.linkState l.val == 6 then
      ((s.modLink l.val fun x => { x with ctrlDue := [(2, rawWord 0)], nakDue := false, nakWait := false }).lockLanes
        l.val true).seedLanes l.val
    else s)

def execRetrainTimeout (l : Fin 6) (s : State) : Host.Outcome State Fault Refusal :=
  .next (if !s.tripped && s.linkState l.val == 6 then s.linkDown l.val 7 6 else s)

/-- The flits of a codeword arrive (R341, R345): its 164 bytes, as the lanes give them after descrambling. -/
def execSequencedFlitReceive (l : Fin 6) (f rs : List Byte) (s : State) : Host.Outcome State Fault Refusal :=
  .next (if s.tripped || !s.flitsPass l.val || f.length != 160 || rs.length != 4 then s else s.rxCodeword l.val (f ++ rs))

def execNakr (l : Fin 6) (f : Flit) (s : State) : Host.Outcome State Fault Refusal :=
  .next (s.flitRow l.val f (f.kind == 4) 0)
def execCred (l : Fin 6) (f : Flit) (s : State) : Host.Outcome State Fault Refusal :=
  .next (s.flitRow l.val f (f.kind == 5) 0)
def execMark (l : Fin 6) (f : Flit) (ta : Nat) (s : State) : Host.Outcome State Fault Refusal :=
  .next (s.flitRow l.val f (f.kind == 3) ta)
def execCtrlResume (l : Fin 6) (f : Flit) (s : State) : Host.Outcome State Fault Refusal :=
  .next (s.flitRow l.val f (f.kind == 6 && f.w0.val == 2) 0)
def execCtrlQuiesce (l : Fin 6) (f : Flit) (s : State) : Host.Outcome State Fault Refusal :=
  .next (s.flitRow l.val f (f.kind == 6 && f.w0.val == 3) 0)
def execCtrlRetrainRequest (l : Fin 6) (f : Flit) (s : State) : Host.Outcome State Fault Refusal :=
  .next (s.flitRow l.val f (f.kind == 6 && f.w0.val == 4) 0)

/-- No ACK has advanced for 4,096 flit slots while flits are unacknowledged (R348). -/
def execReplayTimeout (l : Fin 6) (s : State) : Host.Outcome State Fault Refusal :=
  .next (match (s.link l.val).replay with
    | t :: _ => if s.linkState l.val == 5 && !s.tripped then s.beginReplay l.val t.seq.toNat else s
    | [] => s)

/-- 1,024 flit slots after a NAKR whose flit has not come (R348). -/
def execNakrRepeat (l : Fin 6) (s : State) : Host.Outcome State Fault Refusal :=
  .next (if (s.link l.val).nakWait && s.linkState l.val == 5 && !s.tripped then s.modLink l.val fun x => { x with nakDue := true } else s)

/-- 65,536 flit slots of a DISABLE (R354). -/
def execDisableTimeout (l : Fin 6) (s : State) : Host.Outcome State Fault Refusal :=
  .next (if (s.link l.val).disabling && s.linkState l.val == 5 && !s.tripped then s.linkDown l.val 0 7 else s)

def execFlitSlot (l : Fin 6) (s : State) : Host.Outcome State Fault Refusal := .next (s.flitSlot l.val)

end Sys2Proof.Machine
end

