-- ==== Sys2Proof/Machine/NetRows.lean ====
section
/-! DEFINITION. What the fabric unit and the remote reference machinery do with time (R365-R367, R371, R374, R393-R396),
and the register writes that command them. -/

namespace Sys2Proof.Machine

namespace State

def lease (s : State) (w : Bool) : LeasePass := if w then s.fab.lease1 else s.fab.lease0
def setLease (s : State) (w : Bool) (x : LeasePass) : State :=
  if w then { s with fab := { s.fab with lease1 := x } } else { s with fab := { s.fab with lease0 := x } }

/-- Words of the lease list of world `w` (R385). -/
def lsBase (s : State) (w : Bool) : Nat := bits (s.reg (gcBase (wn w) + 0x70)) 47 3 * 8
def lsCount (s : State) (w : Bool) : Nat := s.regF (gcBase (wn w) + 0x78) 15 0

/-- A word of the lease list: a REMOTE word, one to be skipped, or one that is awaited. -/
inductive ListWord where
  | remote (x : Word)
  | skip
  | wait
deriving DecidableEq, Repr

/-- Word `i` of the lease list; one that cannot be read is skipped, with one machine check for the pass (R394). -/
def leaseWord (s : State) (w : Bool) (i : Nat) : ListWord × State :=
  let a := s.lsBase w + 8 * i
  match wnwRead s (s.inService 0) w a with
  | .ok (x, s) => (if isRemote x then .remote x else .skip, s)
  | .error e =>
    if e.waits then (.wait, wnwStop s w a e)
    else
      let l := s.lease w
      (.skip, if l.faulted then s else (s.gcMchk w 3 a).setLease w { l with faulted := true })

/-- A run of consecutive REMOTE words with one owner, from index `i` (R394); none while a word is awaited. -/
def leaseWords (s : State) (w : Bool) (node : Nat) : Nat → Nat → Option (List Word) × State
  | 0, _ => (some [], s)
  | f + 1, i =>
    if s.lsCount w ≤ i then (some [], s)
    else
      match s.leaseWord w i with
      | (.remote x, s) =>
        if bits x.val 63 48 == node then
          let (r, s) := leaseWords s w node f (i + 1)
          (r.map (x :: ·), s)
        else (some [], s)
      | (.skip, s) => (some [], s)
      | (.wait, s) => (none, s)

/-- A run whose owner is this node is renewed here, with no packet sent (R389, R395). -/
def leaseHere (s : State) (w : Bool) (xs : List Word) : Except WnwErr State :=
  (leaseRun (s.incF (modCtr 0) 63 0 1) w xs).map fun r =>
    if r.1 == 0 then r.2 else r.2.incF (gcBase (wn w) + 0x98) 63 32 1

/-- One LEASE packet is sent for an entry of the table (R394, R395). -/
def sendLease (s : State) (w : Bool) (node ix : Nat) (xs : List Word) : State :=
  let s := s.incF (gcBase (wn w) + 0x98) 31 0 1
  let e : Ott := { busy := true, node := node, core := 127, world := w, kind := 6 }
  let p := mkPacket s.srcNode node pLEASE false w (mkTtag 127 0 ix) (rawWord (v64 xs.length)) (rawWord 0) xs
  (s.setOtt ix e).originate node ix p

/-- The pass goes on until its list ends, a word is awaited or no entry of the table is free; `f` bounds its packets and
skipped words. -/
def leaseGo (s : State) (w : Bool) : Nat → State
  | 0 => s
  | f + 1 =>
    let l := s.lease w
    if s.lsCount w ≤ l.pos then s.setLease w {}
    else
      match s.leaseWord w l.pos with
      | (.wait, s) => s
      | (.skip, s) => leaseGo (s.setLease w { (s.lease w) with pos := l.pos + 1 }) w f
      | (.remote x, s) =>
        let node := bits x.val 63 48
        match s.leaseWords w node 64 l.pos with
        | (none, s) => s
        | (some xs, s) =>
          let done (s : State) : State := s.setLease w { (s.lease w) with pos := l.pos + max 1 xs.length }
          if node == s.nodeNo then
            match s.leaseHere w xs with
            | .ok s => leaseGo (done s) w f
            | .error e => wnwStop s w 0 e
          else
            match s.freeOtt with
            | none => s
            | some ix => leaseGo (done (s.sendLease w node ix xs)) w f

/-- Entry `i` of the export table of world `w` is visited by the sweep (R396), and whether it must wait. One that cannot be
accessed is passed over. -/
def sweepOne (s : State) (w : Bool) (i : Nat) : Bool × State :=
  let k := s.inService (i % 12)
  let m : WM Unit := do
    let e1 ← wRead k w (exportAddr s w i + 8)
    if bit e1.val 63 && expired (← get) e1 then freeExport k w i e1
  if i == 0 then (false, s)
  else
    match m s with
    | .ok _ s => (false, s)
    | .error (e, a) _ => if e.waits then (true, wnwStop s w a e) else (false, s)

def sweep (s : State) (w : Bool) : Sweep := if w then s.fab.sweep1 else s.fab.sweep0
def setSweep (s : State) (w : Bool) (x : Sweep) : State :=
  if w then { s with fab := { s.fab with sweep1 := x } } else { s with fab := { s.fab with sweep0 := x } }

/-- The sweep goes on through the entries that are left to it, in ascending order; `f` bounds them. -/
def sweepGo (s : State) (w : Bool) : Nat → State
  | 0 => s
  | f + 1 =>
    let x := s.sweep w
    let n := expCount s w
    if x.left == 0 || n == 0 then s
    else
      match s.sweepOne w (x.pos % n) with
      | (true, s) => s
      | (false, s) => sweepGo (s.setSweep w { x with pos := (x.pos + 1) % n, left := x.left - 1 }) w f

end State

/-- Once every 256 bouts (R365). -/
def execDiscPeriodic (s : State) : Host.Outcome State Fault Refusal :=
  .next (if s.discovers && 256 ≤ s.fab.lastDisc && !s.tripped then s.elect.sendDisc else s)

/-- A module that has held its own key as best for 16 consecutive bouts is the root (R365). -/
def execRootElection (s : State) : Host.Outcome State Fault Refusal :=
  .next (
    if !s.tripped && s.discovers && s.fab.bestSelf && 16 ≤ s.fab.elect && !s.isRoot then
      let s := ((s.setRegF rFABSTAT 7 7 1).setRegF rBTSTAT 55 48 0).setReg rFABROOT (s.reg rFABCHIP)
      let was := s.fabUp
      let node := if was || bit (s.reg rFABCTL) 0 then s.nodeNo else 0
      let s := (s.setReg rFABNODE (v64 (fld 16 1 + node))).setRegF rFABSTAT 31 16 node
      let s := s.setAddr node { chip := s.reg rFABCHIP, held := true }
      let s : State := { s with fab := { s.fab with rnodeOld := false } }
      if was then s else s.logEvent 7 1 0 2 0 0
    else s)

/-- A refresh JOIN, or the JOIN of a module that has no address (R366, R367). A new root's node is its neighbours' to hear in
DISC; farther off the refresh goes by the parent, as R366 has it, until an ASSIGN gives the root's node (DEDUCED, log entry
144). -/
def execJoinRefresh (s : State) : Host.Outcome State Fault Refusal :=
  .next (
    if s.fab.joinAge != 0 || s.tripped then s
    else if !s.fabUp then s.sendJoin
    else
      let s := { s with fab := { s.fab with joinAge := 4096 } }
      let chip := s.reg rFABCHIP
      if s.isRoot then s.setAddr s.nodeNo { s.addrOf s.nodeNo with chip := chip, held := true, age := 0 }
      else
        let (near, par) := match s.parent with
          | some (l, n) => (if n.dist == 0 then none else some l, n.node.toNat)
          | none => (none, 0)
        let root := if s.fab.rnodeOld && s.parent.isSome then par else s.regF rFABSTAT 31 16
        match if s.fab.rnodeOld then near else none with
        | some l =>
          { s with fab := { s.fab with joinAge := 16 } }.sendOn l (mkPacket 0 0 pJOIN true false 0 (rawWord chip)
            (rawWord (v64 (fld 32 s.nodeNo + fld 31 1 + par))) [])
        | none =>
          s.route none (mkPacket s.srcNode root pJOIN false false 0 (rawWord chip)
          (rawWord (v64 (fld 32 s.nodeNo + fld 31 1 + par))) []))

/-- The root frees a node that no JOIN has refreshed for 16,384 bouts (R367). -/
def execNodeExpiry (node : BitVec 16) (s : State) : Host.Outcome State Fault Refusal :=
  .next (
    let a := s.addrOf node.toNat
    if s.isRoot && a.held && 16384 ≤ a.age then s.setAddr node.toNat { blocked := 2 ^ 22 } else s)

/-- A JOIN's record lapses after 64 bouts (R366). -/
def execJoinRecordLapse (l : Fin 6) (s : State) : Host.Outcome State Fault Refusal :=
  .next (match Tbl.get none s.fab.joins l.val with
    | some j => if 64 ≤ j.2 then { s with fab := { s.fab with joins := Tbl.set none s.fab.joins l.val none } } else s
    | none => s)

/-- E has stayed unfilled for 64 bouts while packets are held (R374): VC 0 is the request VC, 1 the message VC. -/
def execReorderTimeout (node : BitVec 16) (vc : Fin 2) (s : State) : Host.Outcome State Fault Refusal :=
  .next (
    let e := s.srcOrd node.toNat
    let m := vc.val == 1
    match if m then e.heldMsg else e.heldReq with
    | [] => s
    | h :: _ =>
      if (if m then e.gapMsg else e.gapReq) < 64 || s.tripped then s
      else
        let x := if m then e.msg else e.req
        let s := s.setSrcOrd node.toNat (if m then { e with gapMsg := 0 } else { e with gapReq := 0 })
        let f := mkPacket s.srcNode node.toNat pFNAK false false 0
          (rawWord (v64 (fld 48 x.toNat + fld 32 h.2.2.ty + 3))) (rawWord 0) []
        (s.route none f).incF rFABRSND 63 0 1)

/-- A packet is sent again after a FNAK RESEND (R374). -/
def execResend (node : BitVec 16) (vc : Fin 2) (oseq : BitVec 16) (s : State) : Host.Outcome State Fault Refusal :=
  .next (
    let due := s.fab.resend.find? fun x => x.1 == node.toNat && x.2.1 == 2 * vc.val && x.2.2.1 == oseq && decide (x.2.2.2 ≤ s.cycle)
    match if s.tripped then none else due with
    | some key =>
      let s := { s with fab := { s.fab with resend := s.fab.resend.erase key } }
      match s.fab.ott.find? fun (_, e) => e.busy && e.node == node.toNat && (match e.packet with
        | some p => p.oseq == oseq && vcOf p.ty == 2 * vc.val
        | none => false) with
      | some (_, e) => (match e.packet with
        | some p => s.route none p
        | none => s)
      | none => s
    | none => s)

/-- A route cache entry is gone from the second boundary after its fill (R371). -/
def execRouteCacheExpiry (node : BitVec 16) (s : State) : Host.Outcome State Fault Refusal :=
  .next { s with fab := { s.fab with cache := s.fab.cache.filter fun x => !(x.1 == node.toNat && decide (2 ≤ x.2.2)) } }

def execFlushWrite (r : RegSrc) (v : Val) (s : State) : Host.Outcome State Fault Refusal := .next (s.regCmd r rFABRTF v)

/-- A transaction whose answer has not arrived within RTMO bouts fails (R375, R393). -/
def execTransactionTimeout (ix : Fin 131072) (s : State) : Host.Outcome State Fault Refusal :=
  .next (
    let e := s.ott ix.val
    if e.busy && e.packet.isSome && s.regF (gcBase (wn e.world) + 0x60) 47 32 ≤ e.bouts then
      (s.abandonTx ix.val e.node 13).kick e.node
    else s)

def execExpreqWrite (r : RegSrc) (w : Fin 2) (v : Val) (s : State) : Host.Outcome State Fault Refusal :=
  .next (s.regCmd r (gcBase w.val + 0x80) v)

def execEpochwGo (r : RegSrc) (w : Fin 2) (v : Val) (s : State) : Host.Outcome State Fault Refusal :=
  .next (s.regCmd r (gcBase w.val + 0x90) v)

/-- A lease pass that a boundary began goes on (R394). -/
def execLeasePass (w : Fin 2) (s : State) : Host.Outcome State Fault Refusal :=
  .next (if (s.lease (w.val == 1)).on && !s.tripped then s.leaseGo (w.val == 1) 65537 else s)

/-- The sweep visits the next 256 entries of a world, once in a bout (R396); DEDUCED: only while RCTL.EN = 1, for until then the
table is the runtime's (R384). -/
def execExportSweep (w : Fin 2) (s : State) : Host.Outcome State Fault Refusal :=
  .next (
    let o := w.val == 1
    let x := s.sweep o
    if !(expEn s o) || s.tripped then s
    else
      let x := if x.bout == some s.bounds then x else { x with left := min 256 (expCount s o), bout := some s.bounds }
      (s.setSweep o x).sweepGo o 256)

end Sys2Proof.Machine
end

