-- ==== Sys2Proof/Machine/Power.lean ====
section
/-! DEFINITION. Resets (R163, R246, R308, R462-R464): of a core, a pair, the module warm and cold; the boot steps
(R459-R461) and the release of the cores (R460). -/

namespace Sys2Proof.Machine

namespace State

/-- Registers of a core block and of its debug part that a reset sets to their reset values; `ev` says whether the event
counters are among them (R463, R480). -/
def coreRegs (s : State) (c : Nat) (ev : Bool) : State :=
  let gone (o : Nat) : Bool := (coreBase c ≤ o && o < coreBase c + 0x300) ||
    (dbgBase c ≤ o && o < dbgBase c + 0x200) || (ev && dbgBase c + 0x200 ≤ o && o < dbgBase c + 0x280)
  { s with regs := s.regs.filter fun (o, _) => !(gone o) }

/-- A numbered packet of this module has not left it: it waits in a link's queue, or is held back to be sent again. -/
def notLeft (s : State) (p : Packet) : Bool :=
  (List.range 6).any (fun l => (s.link l).q.any fun (_, ps) => ps.any fun x => x.w1 == p.w1 && x.w2 == p.w2 && x.data == p.data) ||
    s.fab.dst.any fun (_, d) => d.waiting.any fun x => x.2.w1 == p.w1 && x.2.w2 == p.w2 && x.2.data == p.data

/-- Stores and remote operations that have not left the module are discarded and recorded (R246, R469); a core reset lets
those that wait in a link's queue go. -/
def discardStores (s : State) (c : Nat) (warm : Bool) : State :=
  let sb := (s.core c).sb
  let stays (e : Ott) : Bool := match e.packet with
    | none => true
    | some p => warm && s.notLeft p
  let unsent := (s.fab.ott.filter fun (_, e) => e.busy && e.core == c && stays e && !(e.kind == 6)).length
  let n := sb.length + unsent
  let a := match sb with
    | e :: _ => e.pa
    | [] => 0
  let s := s.setReg (rWRREC c) (if n == 0 then 0 else v64 (fld 63 1 + fld 48 (min 255 n) + a % 2 ^ 40))
  s.modCore c fun x => { x with sb := [], sbHeld := false }

/-- The transactions of a core are forgotten (R463). -/
def freeTransactions (s : State) (c : Nat) : State :=
  let mine (e : Ott) : Bool := e.core == c && e.kind != 6
  let gone := (s.fab.ott.filter fun (_, e) => mine e).map (·.1)
  let dst := s.fab.dst.map fun (n, d) => (n, { d with waiting := d.waiting.filter fun x => !(gone.contains x.1) })
  { s with fab := { s.fab with ott := s.fab.ott.filter fun (_, e) => !(mine e), dst := dst } }

/-- What a warm reset and a core reset do to one core (R463); a core reset leaves the core's copy of the dispatch entries as it
is (R208). -/
def resetOne (s : State) (c : Nat) (warm : Bool) : State :=
  let s := if (s.core c).frozen && !warm then s else (s.modCore c fun x => { x with sbHeld := false }).drainAll c 32
  let s := (s.discardStores c warm).freeTransactions c
  let s := (s.flushAgent c).dropCoreCaches c
  let s := [(0 : Fin 4), 1, 2, 3].foldl (fun s b =>
    (s.dropAssists c b.val).modBank c b fun k => { ({} : Bank) with status := { ({} : Status) with wld := k.status.wld } }) s
  let x := s.core c
  let kept : Core := if warm then {} else { dcopy := x.dcopy, dloaded := x.dloaded }
  let s := ((s.setCore c kept).coreRegs c (!warm)).frzBit c false
  let bc := s.bcasts.map fun (i, x) => (i, x.map fun y => { y with waiting := y.waiting.filter (· != c) })
  { s with bcasts := bc }

/-- A halted pair other than `p` holds FAULT_N low (R307). -/
def faultHeld (s : State) (p : Nat) : Bool :=
  (List.range 48).any fun q => q != p && s.pairMode q == 3 && bit (s.reg (pairBase q + 8)) 1

/-- A pair is split and its latch emptied; FAULT_N, which a mismatch of the pair has asserted, is released (R307, R308). -/
def splitPair (s : State) (p : Nat) : State :=
  let s := if s.pairMode p == 3 then { s with pins := { s.pins with faultN := !(s.faultHeld p) } } else s
  (s.setRegF (pairBase p) 1 0 0).modPair p fun x => { ({} : Pair) with timel := x.timel }

/-- Reset of a core (R462, R463): both cores of a pair that is not split. Power returns to a gated core, with a fresh copy of
the dispatch entries (R205, R208). -/
def coreReset (s : State) (c : Nat) : State :=
  let p := pairOf c
  let one (s : State) (c : Nat) : State :=
    let gated := (s.core c).pg
    let s := s.resetOne c false
    if gated then s.dispatchLoad c else s
  if s.pairMode p == 0 then one s c
  else ((one (one s (2 * p)) (2 * p + 1))).splitPair p

/-- A warm reset ends a world's collection cycle (R464). -/
def warmGc (s : State) (w : Bool) : State :=
  let ph := s.gcPhase w
  let s := s.setRegF rRSTCAUSE (9 + 2 * wn w) (8 + 2 * wn w) ph
  let s := s.setRegF (gcBase (wn w)) 0 0 0
  if ph == 0 then s
  else
    let s := if ph == 1 then s else (s.evacPlots w).foldl (fun s p => s.setRegF (rPLOT p) 1 0 2) s
    s.doAbort w

/-- Every cached copy goes, modified ones to DRAM, with every message of the protocol (R463). -/
def dropCaches (s : State) : State :=
  let s := s.heldGrans.eraseDups.foldl (fun s g => s.evictHard g) s
  let s := s.modMem fun m => { m with
    lines := [], victims := [], l3 := [], dir := [], txns := [], queue := [], nacked := [], probes := [], acks := [], fills := [],
    cmps := [], wbs := [], staleWbs := [], evns := [], wbacks := [], trans := [], upL1 := [], upL2 := [], upL3 := [], upDir := [] }
  { s with fab := { s.fab with roc := [] } }

/-- The commands of a port that are accepted and not yet complete: their replies will be discarded (R416). -/
def pendingSeqs (x : PortSt) : List (BitVec 16) := x.out.filter fun q => x.kept.any fun k => k.1 == q && k.2.2.isNone

/-- The command window and the channels after a warm reset or a Function Level Reset (R437, R438): a channel's sequence
goes on, an outstanding answer is discarded. -/
def hostClear (s : State) : State :=
  let chan (x : Chan) : Chan := { next := x.next }
  let ch : Tbl Chan := (s.host.chans.map fun (i, x) => (i, chan x)).filter fun (_, x) => x != ({} : Chan)
  let s := { s with host := { s.host with
    chans := ch, mbcmd := [], mbrpl := [], cmdb := false, rplv := false } }
  let x : PortSt := Tbl.get {} s.reeve.ports 2
  let y : PortSt := { x with queue := [], out := [], lost := pendingSeqs x }
  { s with reeve := { s.reeve with ports := Tbl.set {} s.reeve.ports 2 y } }

/-- MBSTAT is cleared, and replies that wait there are discarded (R416). -/
def mailClear (s : State) : State :=
  [0, 1].foldl (fun s w =>
    let s := s.setReg (mailBase w) 0
    let x : PortSt := Tbl.get {} s.reeve.ports (3 + w)
    let y : PortSt := { x with queue := [], out := [], lost := pendingSeqs x }
    { s with reeve := { s.reeve with
      ports := Tbl.set {} s.reeve.ports (3 + w) y,
      inbox := s.reeve.inbox.filter fun i => i.1 != .core (Fin.ofNat 2 w) } }) s

/-- The violation log is emptied (R191). -/
def clearVlog (s : State) : State :=
  let keep := s.regs.filter fun (o, _) => !(rVLOG 0 ≤ o && o < rVLOG 32)
  { s with regs := keep }.setReg rVLSTAT 0

/-- A warm reset of the module (R463). -/
def warmReset (s : State) : State :=
  let s := (List.range 96).foldl (fun s c => s.resetOne c true) s
  let s := (List.range 48).foldl (fun s p => s.splitPair p) s
  let s := s.dropCaches
  let s := (s.warmGc false).warmGc true
  let s := (List.range 12).foldl (fun s k => s.setSrcs k []) s
  let s := { s with
    lockTlb := [], bcasts := [], bins := { s.bins with flight := [] }, gc := { s.gc with assists := [], tlb := [] },
    fab := { s.fab with
      ott := [], dst := [], src := [], resend := [], cache := [], lease0 := {}, lease1 := {} } }
  let s := (List.range 6).foldl (fun s i => ((s.linkForceCmd i).1.linkEnableCmd i).1) s
  let s := (s.mailClear.hostClear).clearVlog
  let s := ((s.setReg rFRZC0 0).setReg rFRZC1 0).setRegF rFRZP 5 0 0
  let s := (s.setRegF rFABSTAT 6 6 0).setRegF rGLBBOOT 3 3 0
  (s.setRegF rRSTCAUSE 2 0 5).incF rRSTCAUSE 63 32 1

/-- The module is out of Reset (R457, R465, R467). -/
def running (s : State) : Bool := s.pins.resetN && !s.pins.railBad && !s.hotHold

/-- The module holds itself in Reset while MAX is above TRIP − 10 °C (R467); a reading is in units of 0.25 °C. -/
def tooHot (s : State) : Bool := decide (((s.regF rTHCTL 31 24 : Nat) - 10 : Int) * 4 < s.temp)

/-- A cold reset (R463): everything but the Bushel, the serial NOR, the pins and the TAP is as at State.reset. `kind` is
RSTCAUSE.KIND. THERMTRIP_N is released at its start unless R467 will hold the module in Reset (R488). -/
def coldReset (s : State) (kind : Nat) : State :=
  let pins : Pins := { s.pins with
    faultN := true, alertN := true, boutout := 0, thermtripN := s.pins.thermtripN || !s.tooHot }
  let jtag : Jtag := { ir := s.jtag.ir }
  let t : State :=
    { pending := s.pending, free := s.free, bsh := s.bsh, frames := s.frames, flash := s.flash, temp := s.temp, pins := pins,
      jtag := jtag }
  t.setRegF rRSTCAUSE 2 0 kind

/-- The cores are released (R460). -/
def releaseCores (s : State) : State :=
  let s := (s.setRegF rCLOSED 0 0 1).setRegF rGLBBOOT 3 3 1
  (List.range 96).foldl (fun s c => if s.coreEnabled c then s.dispatchLoad c else s) s

end State

/-- RESET_N rises: the straps are sampled (R458), and the module leaves Reset unless R457 or R467 holds it. -/
def execResetNRise (boot ias : Fin 4) (dbg : Bool) (s : State) : Host.Outcome State Fault Refusal :=
  .next (
    if s.pins.resetN then s
    else
      let hot := s.tooHot
      let s := s.setReg rGLBSTRAP (v64 (fld 4 (b2n dbg) + fld 2 ias.val + boot.val))
      let s := s.setRegF rPWRSTAT 2 0 7
      { s with hotHold := hot, bsh := { s.bsh with as := ias.val },
               pins := { s.pins with resetN := true, thermtripN := if hot then s.pins.thermtripN else true } })

/-- RESET_N falls: cold reset (R462). A reset that a rail or PWRGOOD caused keeps its cause. -/
def execResetNFall (s : State) : Host.Outcome State Fault Refusal :=
  .next (
    if !s.pins.resetN then s
    else
      let kind := if s.pins.railBad then s.regF rRSTCAUSE 2 0 else 2
      let s := s.coldReset kind
      { s with pins := { s.pins with resetN := false, railBad := false } })

/-- A low pulse on PWRGOOD while RESET_N is high (R457). -/
def execPwrgoodFall (s : State) : Host.Outcome State Fault Refusal :=
  .next (
    if !s.pins.resetN || s.pins.railBad then s
    else
      let s := s.coldReset 3
      { s with pins := { s.pins with railBad := true } })

/-- A monitored rail stays low for more than 1 µs while RESET_N is high (R457). -/
def execRailFault (s : State) : Host.Outcome State Fault Refusal :=
  .next (
    if !s.pins.resetN || s.pins.railBad then s
    else
      let s := s.coldReset 4
      { s with pins := { s.pins with railBad := true } })

/-- Step 2 of R459: the boot ROM runs and event 0 is logged; with BOOTSEL 10 it enables every link (R461). -/
def execReeveBootRomStart (s : State) : Host.Outcome State Fault Refusal :=
  .next (
    if !s.running || s.reeve.up then s
    else
      let b := s.regF rGLBSTRAP 1 0
      let s := { s with reeve := { s.reeve with up := true, fwWait := b != 1 } }
      let s := s.logEvent 0 1 0 2 0 0
      if b == 2 then (List.range 6).foldl (fun s i => (s.linkEnableCmd i).1) s else s)

/-- Step 3 of R459: the base microcode image is in all 12 copies. -/
def execMicrocodeLoadComplete (s : State) : Host.Outcome State Fault Refusal :=
  .next (if s.reeve.up then s.setRegF rGLBBOOT 1 1 1 else s)

/-- Step 4 of R459: a channel that failed is left out, with its event. -/
def execMemoryTrainingComplete (chok : BitVec 16) (s : State) : Host.Outcome State Fault Refusal :=
  .next (
    if !s.running || bit (s.reg rMCSTAT) 16 then s
    else
      let s := s.setReg rMCSTAT (v64 (fld 16 1 + chok.toNat))
      (List.range 16).foldl (fun s i => if chok.getLsbD i then s else s.logEvent 6 0x22 i 2 0 0) s)

/-- Step 5 of R459: every granule is eight words word(NIL, 0) (R45); it does not complete while a channel is out. -/
def execDramInitComplete (s : State) : Host.Outcome State Fault Refusal :=
  .next (
    if s.reg rMCSTAT == 0x1FFFF && !(bit (s.reg rGLBBOOT) 2) then
      let s := s.modMem fun m => { m with vals := [], tags := [], poison := [], ecc := [] }
      s.setRegF rGLBBOOT 2 2 1
    else s)

/-- Step 6 of R459 with BOOTSEL 01: the image on the serial NOR runs, or the boot ROM waits as for 00 (R401). -/
def execFirmwareRun (s : State) : Host.Outcome State Fault Refusal :=
  .next (
    if s.reeve.up && s.regF rGLBSTRAP 1 0 == 1 && !s.reeve.fwWait && !(bit (s.reg rGLBBOOT) 0) then
      let bytes := s.flash.getD (if Config.flashPresent then Config.flashImage else [])
      match readImage bytes with
      | some im =>
        if im.kind == 1 then s.runFirmware im
        else
          let s := s.logEvent 0 4 0 2 0 0
          { s with reeve := { s.reeve with fwWait := true } }
      | none =>
        let s := s.logEvent 0 4 0 2 0 0
        { s with reeve := { s.reeve with fwWait := true } }
    else s)

/-- The booting module sends REQ on each Up link (R461). -/
def execNbootRequest (s : State) : Host.Outcome State Fault Refusal :=
  .next (
    if s.reeve.up && s.reeve.fwWait && s.regF rGLBSTRAP 1 0 == 2 then
      (List.range 6).foldl (fun s l => if s.linkState l == 5 then s.sendOn l (State.nbootPacket 1 0 []) else s) s
    else s)

end Sys2Proof.Machine
end

