-- ==== Sys2Proof/Machine/ReeveRun.lean ====
section
/-! DEFINITION. The commands of the Reeve (R417-R427): the acceptance of a packet (R407-R410), the rights matrix, and what
each command does and answers. The debug commands stand here too (R473). -/

namespace Sys2Proof.Machine

/-- How a command ends: with a status and reply data in a new state, or waiting for its own completion rule (R411). -/
inductive CmdRes where
  | done (st : Byte) (data : List Byte) (s : State)
  | wait (s : State)

/-- A parameter field: `n` bytes at offset `o`, little-endian. -/
def par (ps : List Byte) (o n : Nat) : Nat := leNat ((ps.drop o).take n)

/-- The assigned opcodes of R417. -/
def assignedOps : List Nat :=
  [0x00, 0x01, 0x02, 0x03, 0x04, 0x10, 0x11, 0x12, 0x20, 0x21, 0x22, 0x23, 0x24, 0x25, 0x26, 0x27, 0x28, 0x29, 0x2A, 0x2B,
    0x30, 0x31, 0x32, 0x33, 0x34, 0x35, 0x36, 0x40, 0x41, 0x42, 0x43, 0x44, 0x45, 0x46, 0x50, 0x51, 0x52, 0x53, 0x60, 0x61,
    0x62, 0x70, 0x80, 0x81, 0x82, 0x83, 0x84, 0x85, 0x86, 0x87]

/-- The opcodes that each class of port may issue beside those of all ports (R417). -/
def opsAll : List Nat := [0x00, 0x01, 0x10]
def opsHost : List Nat := [0x02, 0x11, 0x12, 0x20, 0x2B, 0x45, 0x60, 0x61, 0x70]
def opsPeer : List Nat := opsHost ++ [0x40, 0x41, 0x42, 0x43, 0x50, 0x51, 0x52]
def opsTenant : List Nat := [0x61]
def opsCore : List Nat := [0x11, 0x12, 0x40, 0x45, 0x60, 0x61, 0x62, 0x70]
def opsMgmtOnly : List Nat := [0x03, 0x04, 0x27]

namespace State

/-- The world that restricts a port's objects (R415, R417): its own for a mailbox, LNKCLS.WLD for a tenant link. -/
def portWorld (s : State) : Port → Option Bool
  | .core w => some (w == 1)
  | .link l _ => if s.linkClass l == 1 then some (bit (s.reg (rLNKCLS l)) 4) else none
  | _ => none

/-- The matrix row of an opcode names the class of a port (R417). -/
def opForPort (s : State) (p : Port) (op : Nat) : Bool :=
  opsAll.contains op || (match p with
  | .mgmt => true
  | .debug => !(opsMgmtOnly.contains op)
  | .host => opsHost.contains op
  | .core _ => opsCore.contains op
  | .link l _ =>
    if s.linkClass l == 0 then opsPeer.contains op else if s.linkClass l == 1 then opsTenant.contains op else false)

/-- The objects that a restricted port names belong to its world (R417, R420). -/
def objectsOf (s : State) (w : Bool) (op : Nat) (ps : List Byte) : Bool :=
  if op == 0x40 then
    (if par ps 0 1 < 96 && par ps 1 1 < 4 then (s.bank (par ps 0 1) (Fin.ofNat 4 (par ps 1 1))).status.wld == w else true)
  else if op == 0x45 then (if par ps 1 1 < 2 then par ps 1 1 == wn w else true)
  else if op == 0x60 || op == 0x61 then (if par ps 0 2 < 4096 then s.binWld (par ps 0 2) == w else true)
  else if op == 0x62 then
    let i := par ps 1 2
    let n := par ps 3 2
    (if w then decide (2048 ≤ i) else decide (i + n ≤ 2048))
  else true

/-- The port may issue the command (R417, R418). -/
def rights (s : State) (p : Port) (op : Nat) (ps : List Byte) : Bool :=
  s.opForPort p op &&
    (match s.portWorld p with
    | some w => s.objectsOf w op ps
    | none => true) &&
    (op != 0x21 || p == .mgmt || !(decide (par ps 0 4 < rLNKCLS 6) && decide (rLNKCLS 0 < par ps 0 4 + 8 * par ps 4 2)))

/-- Every command that names a core of a cluster not enabled names no core (R423). -/
def coreOk (s : State) (c : Nat) : Bool := decide (c < 96) && s.coreEnabled c

/-- A core is frozen, or its pair is halted (R423). -/
def targetFrozen (s : State) (c : Nat) : Bool := (s.core c).frozen || s.pairMode (pairOf c) == 3

def bad (s : State) : CmdRes := .done stBAD_PARAM [] s
def notReady (s : State) : CmdRes := .done stNOT_READY [] s
def ok (s : State) (data : List Byte) : CmdRes := .done stOK data s

/-- An event as EVREAD returns it (R413). -/
def eventBytes (e : Event) : List Byte :=
  leBytes 2 e.num.toNat ++ [BitVec.ofNat 8 e.cls, BitVec.ofNat 8 e.code] ++ leBytes 8 e.bout.toNat ++ leBytes 2 e.index ++
    [BitVec.ofNat 8 e.world, 0] ++ leBytes 8 e.d0.toNat ++ leBytes 8 e.d1.toNat

def cmdEvread (s : State) (ps : List Byte) : CmdRes :=
  let mx := par ps 2 1
  if ps.length != 3 || mx == 0 || 31 < mx then s.bad
  else
    let frm := BitVec.ofNat 16 (par ps 0 2)
    let es := (s.reeve.log.filter fun e => !(newer16 frm e.num)).take mx
    let first := match es with
      | e :: _ => e.num
      | [] => s.reeve.nextEvt
    s.ok (leBytes 2 first.toNat ++ [BitVec.ofNat 8 es.length] ++ es.flatMap eventBytes)

def cmdEvack (s : State) (ps : List Byte) : CmdRes :=
  if ps.length != 2 then s.bad
  else ({ s with reeve := { s.reeve with cursor := BitVec.ofNat 16 (par ps 0 2) } }.updateIbi).ok []

def cmdEvmask (s : State) (ps : List Byte) : CmdRes :=
  if ps.length != 2 then s.bad
  else ({ s with reeve := { s.reeve with evmask := BitVec.ofNat 16 (par ps 0 2) } }.updateIbi).ok []

def cmdIdent (s : State) (ps : List Byte) : CmdRes :=
  if ps.length != 0 then s.bad
  else
    let flags := b2n s.fabUp + fld 1 (s.regF rGLBSTRAP 1 0) + fld 3 (s.regF rGLBSTRAP 4 4) + fld 4 (s.regF rGLBBOOT 3 3)
    s.ok (leBytes 4 (s.reg 0).toNat ++ leBytes 8 (s.reg rFABCHIP).toNat ++ leBytes 4 Config.fwVersion.toNat ++
      leBytes 2 Config.romVersion.toNat ++ leBytes 2 (s.regF rCSPATCH 15 0) ++ leBytes 2 s.nodeNo ++ [BitVec.ofNat 8 flags])

/-- The pairs that are halted, one bit each (R417). -/
def haltedPairs (s : State) : Nat := (List.range 48).foldl (fun n p => n + (if s.pairMode p == 3 then 2 ^ p else 0)) 0

def cmdStatus (s : State) (ps : List Byte) : CmdRes :=
  if ps.length != 0 then s.bad
  else s.ok (leBytes 8 (s.reg rFRZC0).toNat ++ leBytes 4 (s.reg rFRZC1).toNat ++ leBytes 2 (s.reg rFRZP).toNat ++
    leBytes 6 s.haltedPairs ++ leBytes 1 (s.regF rVLSTAT 5 0) ++ leBytes 2 (s.regF rVLSTAT 31 16) ++
    leBytes 2 (s.regF rTHSTAT 63 48) ++ leBytes 2 s.reeve.nextEvt.toNat)

/-- A violation log entry as a port reads it (R417): a mailbox sees zero for the other world's. -/
def vlogBytes (s : State) (p : Port) (n : Nat) : List Byte :=
  let o := rVLOG n
  let hide := match p with
    | .core w => s.regF o 25 24 == 1 - w.val
    | _ => false
  [0, 8, 0x10, 0x18].flatMap fun k => leBytes 8 (if hide then 0 else (s.reg (o + k)).toNat)

def cmdVlogrd (s : State) (p : Port) (ps : List Byte) : CmdRes :=
  let frm := par ps 0 1
  let n := par ps 1 1
  if ps.length != 2 || 32 < frm + n then s.bad
  else s.ok ((List.range n).flatMap fun i => s.vlogBytes p (frm + i))

/-- The range of REGRD, REGWR and MTRRD (R417, R418). -/
def regRange (a n : Nat) : Bool := decide (1 ≤ n) && decide (n ≤ 127) && a % 8 == 0 && decide (a + 8 * n ≤ 0x10000000)

def regBytes (s : State) (a n : Nat) : List Byte :=
  (List.range n).flatMap fun i => leBytes 8 (s.regRead whoReeve (a + 8 * i)).toNat

def cmdRegrd (s : State) (ps : List Byte) : CmdRes :=
  if ps.length != 6 || !(regRange (par ps 0 4) (par ps 4 2)) then s.bad else s.ok (s.regBytes (par ps 0 4) (par ps 4 2))

def cmdRegwr (s : State) (ps : List Byte) : CmdRes :=
  let a := par ps 0 4
  let n := par ps 4 2
  if !(regRange a n) || ps.length != 6 + 8 * n then s.bad
  else ((List.range n).foldl (fun s i => s.regWrite whoReeve (a + 8 * i) (v64 (par ps (6 + 8 * i) 8))) s).ok []

/-- CFGSET (R419): the carve-out (R15), the remote object cache (R271) with the quota of each slice, the bout period (R380). -/
def cmdCfgset (s : State) (ps : List Byte) : CmdRes :=
  let key := par ps 0 2
  let v := par ps 2 8
  if ps.length != 10 || bit (s.reg rCLOSED) 0 then s.bad
  else if key == 1 && v ≤ 16 then (s.setReg rCARVE (v64 v)).ok []
  else if key == 2 && v ≤ 32 then
    ((List.range 12).foldl (fun s k => s.setReg (clusterBase k + 0x10018) (v64 (v * 16384 / 12))) (s.setReg rROCSZ (v64 v))).ok []
  else if key == 3 && v ≤ 3 then (s.periodWrite v).ok []
  else s.bad

/-- BANKWLD (R164, R193, R420). -/
def cmdBankwld (s : State) (ps : List Byte) : CmdRes :=
  let c := par ps 0 1
  let w := par ps 2 1
  if ps.length != 3 || !(s.coreOk c) || 3 < par ps 1 1 || 1 < w then s.bad
  else
    let b : Fin 4 := Fin.ofNat 4 (par ps 1 1)
    let k := s.bank c b
    if k.st != 0 || s.oddBound c then s.notReady
    else if k.status.wld == (w == 1) then s.ok []
    else (s.modBank c b fun k => { ({} : Bank) with
        pc := k.pc, pri := k.pri, rej := k.rej, prev := k.prev, btmr := k.btmr, bevt := k.bevt, futNext := k.futNext,
        status := { ({} : Status) with wld := w == 1 } }).ok []

/-- FENCE (R169, R420). -/
def cmdFence (s : State) (ps : List Byte) : CmdRes :=
  let g := par ps 1 2
  let o := par ps 3 1
  if ps.length != 4 || 2 < o then s.bad
  else if par ps 0 1 == 0 && g < 768 then (s.fenceSet (rFENCED g) (g * 2 ^ 26) o).ok []
  else if par ps 0 1 == 1 && g < 64 then (s.fenceSet (rFENCEB g) (0xE000000000 + g * 2 ^ 26) o).ok []
  else s.bad

/-- PLOTOWN (R134, R420). -/
def cmdPlotown (s : State) (ps : List Byte) : CmdRes :=
  let p := par ps 0 2
  if ps.length != 3 || 32768 ≤ p || 1 < par ps 2 1 || s.plotState p != 0 then s.bad
  else (s.setRegF (rPLOT p) 8 8 (par ps 2 1)).ok []

/-- Some bank runs a routine of share `j` (R222 step 4). -/
def shareRuns (s : State) (j : Nat) : Bool :=
  s.banks.any fun (_, k) => match k.micro with
    | some m => microShare m.entry == some j || microShare m.u == some j
    | none => false

/-- Steps 1 to 3 of R222. -/
def shareClose (s : State) (j : Nat) : State :=
  let s := s.setRegF rCSOWN (2 * j + 1) (2 * j) 0
  let s := [0, 1, 2, 3].foldl (fun s i => s.setRegF (rDENT (0x380 + 4 * j + i)) 31 31 0) s
  let s := [0, 1].foldl (fun s i => s.setRegF (rTATTR (0x20 + 2 * j + i)) 29 28 0) s
  (List.range 96).foldl (fun s c => if s.coreEnabled c then s.dispatchLoad c else s) s

def cmdShare (s : State) (p : Port) (seq : BitVec 16) (ps : List Byte) : CmdRes :=
  let j := par ps 0 1
  let o := par ps 1 1
  if ps.length != 2 || 15 < j || 3 < o then s.bad
  else
    let s := s.shareClose j
    if s.shareRuns j then .wait { s with reeve := { s.reeve with exec := some (.share p seq j o) } }
    else (s.setRegF rCSOWN (2 * j + 1) (2 * j) o).ok []

def cmdLinkcls (s : State) (ps : List Byte) : CmdRes :=
  let l := par ps 0 1
  if ps.length != 8 || 5 < l || 3 < par ps 1 1 || 1 < par ps 2 1 || 1 < par ps 3 1 || 4095 < par ps 4 2 || 4095 < par ps 6 2 then
    s.bad
  else
    (s.setReg (rLNKCLS l) (v64 (fld 32 (s.linkPnode l) + fld 20 (par ps 6 2) + fld 8 (par ps 4 2) + fld 4 (par ps 2 1) +
      fld 3 (par ps 3 1) + par ps 1 1))).ok []

def cmdBinwld (s : State) (ps : List Byte) : CmdRes :=
  let n := par ps 0 2
  if ps.length != 3 || 4095 < n || 1 < par ps 2 1 then s.bad
  else if s.binState n != 0 then s.notReady
  else (s.setRegF (binBase n) 7 7 (par ps 2 1)).ok []

/-- A script slot (R425). -/
def script (s : State) (n : Nat) : Script := Tbl.get {} s.reeve.scripts n
def setScript (s : State) (n : Nat) (x : Script) : State :=
  { s with reeve := { s.reeve with scripts := Tbl.set {} s.reeve.scripts n x } }

/-- STATE, PC and FAULT of SCRSTAT (R417). -/
def scriptHead (x : Script) : List Byte :=
  [Config.scriptState (if !x.on then 0 else if x.wait == 0 then 1 else 2), BitVec.ofNat 8 x.pc, BitVec.ofNat 8 x.fault]

/-- A script stops, with its event (R414, R426). -/
def scriptStop (s : State) (n fault : Nat) : State :=
  let x : Script := { s.script n with on := false, wait := 0, cut := 0, fault := fault }
  (s.setScript n x).logEvent 0 2 n 2 (v64 (leNat (scriptHead x))) 0

def cmdScrload (s : State) (ps : List Byte) : CmdRes :=
  let n := par ps 0 1
  let len := par ps 1 2
  if ps.length != 3 + len || 3 < n || 512 < len then s.bad
  else if (s.script n).on then s.notReady
  else (s.setScript n { code := ps.drop 3 }).ok []

def cmdScrctl (s : State) (ps : List Byte) : CmdRes :=
  let n := par ps 0 1
  let c := par ps 1 1
  if ps.length != 2 || 3 < n then s.bad
  else if c == 1 then (s.setScript n { code := (s.script n).code, on := true }).ok []
  else if c == 2 then (if (s.script n).on then (s.scriptStop n 0).ok [] else s.ok [])
  else s.bad

def cmdScrstat (s : State) (ps : List Byte) : CmdRes :=
  let n := par ps 0 1
  if ps.length != 1 || 3 < n then s.bad
  else
    let x := s.script n
    s.ok (scriptHead x ++ leBytes 8 x.slices ++ (List.range 16).flatMap fun i => leBytes 8 (Tbl.get (0 : Val) x.regs i).toNat)

/-- The Reeve's memory commands reach assigned DRAM or bin memory only (R14, R16, R420). -/
def memRange (s : State) (a n : Nat) : Bool :=
  a % 8 == 0 && decide (1 ≤ n) && ((s.inDram a && s.inDram (a + n - 1)) || (s.inBin a && s.inBin (a + n - 1)))

/-- Memory commands run once DRAM is initialised (R45). -/
def memReady (s : State) : Bool := bit (s.reg rGLBBOOT) 2

/-- The Reeve writes words upward from a physical address (R286, R420): a granule that the write covers is written whole,
which clears its poison. -/
def memWrite (s : State) (a : Nat) (ws : List Word) : Nat → State
  | 0 => s
  | f + 1 =>
    match ws with
    | [] => s
    | w :: r =>
      if a % 64 == 0 && 8 ≤ ws.length then
        let s := (s.modMem fun m => m.putLine (s.store a / 64) ⟨ws.take 8, false⟩).breakResv (a / 64) none
        memWrite s (a + 64) (ws.drop 8) f
      else memWrite (s.ucWrite a (.word w)) (a + 8) r f

/-- The words read upward from a physical address (R286). -/
def memRead (s : State) (a : Nat) : Nat → List Word × State
  | 0 => ([], s)
  | n + 1 =>
    let (l, s) := s.mcRead a false
    let (ws, s) := memRead s (a + 8) n
    (l.word (a / 8 % 8) :: ws, s)

def cmdMemrd (s : State) (ps : List Byte) : CmdRes :=
  let a := par ps 0 5
  let n := par ps 5 1
  if ps.length != 6 || n == 0 || 113 < n || !(s.memRange a (8 * n)) then s.bad
  else if !s.memReady then s.notReady
  else (let (ws, s) := s.memRead a n; s.ok (packWords ws))

/-- A granule of the range is poisoned and only partly covered (R420). -/
def partPoison (s : State) (a n : Nat) : Bool :=
  let lo := a / 64
  let hi := (a + n - 1) / 64
  (a % 64 != 0 && s.peekPoison (64 * lo) .uncached) || ((a + n) % 64 != 0 && s.peekPoison (64 * hi) .uncached)

def cmdMemwr (s : State) (ps : List Byte) : CmdRes :=
  let a := par ps 0 5
  let n := par ps 5 1
  if n == 0 || 113 < n || ps.length != 6 + 9 * n || !(s.memRange a (8 * n)) || s.partPoison a (8 * n) then s.bad
  else if !s.memReady then s.notReady
  else (s.memWrite a (unpackWords n (ps.drop 6)) n).ok []

/-- MEMFILL (R417, R420): COUNT granules of eight words. -/
def cmdMemfill (s : State) (ps : List Byte) : CmdRes :=
  let a := par ps 0 5
  let n := par ps 5 4
  if ps.length != 18 then s.bad
  else if n == 0 then (if a % 8 == 0 then s.ok [] else s.bad)
  else if !(s.memRange a (64 * n)) then s.bad
  else if !s.memReady then s.notReady
  else (s.memWrite a (List.replicate (8 * n) ((unpackWords 1 (ps.drop 9)).getD 0 nilWord)) (8 * n)).ok []

/-- ALOAD from word `i` of `n` (R227): it stops at the first that fails and answers its index. -/
def aloadGo (s : State) (kind index : Nat) (ps : List Byte) : Nat → CmdRes
  | 0 => s.ok []
  | f + 1 =>
    let m := if kind == 1 then 3 else 1
    let xs := (List.range m).map fun i => v64 (par ps (8 * i) 8)
    let fail : CmdRes := .done stBAD_PARAM (leBytes 2 index) s
    match targetShare kind index with
    | none => fail
    | some j =>
      if loadOk s (shareOwner s j) kind index xs then aloadGo (s.csWrite kind index xs) kind (index + 1) (ps.drop (8 * m)) f
      else fail

def cmdAload (s : State) (ps : List Byte) : CmdRes :=
  let kind := par ps 0 1
  let n := par ps 3 2
  if 3 < kind || ps.length != 5 + 8 * n * (if kind == 1 then 3 else 1) then s.bad
  else s.aloadGo kind (par ps 1 2) (ps.drop 5) n

def cmdImgload (s : State) (ps : List Byte) : CmdRes :=
  let n := ps.length - 4
  if ps.length < 5 || 1018 < n || 262144 < par ps 0 4 + n then s.bad else (s.stage (par ps 0 4) (ps.drop 4)).ok []

end State

/-- One record of a patch body (R421): the store, the address, the entries. -/
structure PatchRec where
  store : Nat
  addr : Nat
  entries : List (List Byte)
deriving DecidableEq, Repr

/-- Bytes of an entry of a store (R421). -/
def entrySize (store : Nat) : Nat := if store == 0 then 4 else if store == 1 then 18 else 8

/-- The records of a patch body; none when it does not parse (R421). -/
def patchRecs (bs : List Byte) : Nat → Option (List PatchRec)
  | 0 => if bs.isEmpty then some [] else none
  | f + 1 =>
    if bs.isEmpty then some []
    else
      let st := par bs 0 1
      let n := par bs 2 2
      let z := entrySize st
      if bs.length < 8 + n * z || bs.length < 8 || 2 < st || par bs 1 1 != 0 then none
      else
        let es := (List.range n).map fun i => (bs.drop (8 + i * z)).take z
        (patchRecs (bs.drop (8 + n * z)) f).map fun r => ⟨st, par bs 4 4, es⟩ :: r

/-- A record stays in the vendor ranges (R220). -/
def PatchRec.vendor (r : PatchRec) : Bool :=
  let top := r.addr + r.entries.length
  if r.store == 0 then decide (top ≤ 0x3000)
  else if r.store == 1 then decide (top ≤ 0x1800)
  else decide (top ≤ 0x400) && (decide (top ≤ 0x380) || decide (0x3C0 ≤ r.addr))

namespace State

/-- A record is written in all 12 copies (R422). -/
def patchApply (s : State) (r : PatchRec) : State :=
  (List.range r.entries.length).foldl (fun s i =>
    let e := r.entries.getD i []
    let xs := if r.store == 0 then [v64 (par e 0 3)]
      else if r.store == 1 then [v64 (par e 0 8), v64 (par e 8 8), v64 (par e 16 2)] else [v64 (par e 0 8)]
    s.csWrite r.store (r.addr + i) xs) s

/-- IMGAPPLY MODE 0 (R220, R422). -/
def applyPatch (s : State) : CmdRes :=
  if bit (s.reg rGLBBOOT) 3 then s.notReady
  else
    match s.stagedImage with
    | some im =>
      match patchRecs im.body im.body.length with
      | some rs =>
        if im.kind != 2 || !(rs.all (·.vendor)) || (bit (s.reg rCSPATCH) 16 && decide (im.level ≤ s.regF rCSPATCH 15 0)) then s.bad
        else
          let s := rs.foldl (fun s r => s.patchApply r) s
          let s := (List.range 96).foldl (fun s c => if s.coreEnabled c then s.dispatchLoad c else s) s
          (s.setReg rCSPATCH (v64 (fld 16 1 + im.level))).ok (leBytes 2 im.level)
      | none => s.bad
    | none => s.bad

/-- IMGAPPLY MODE 1 (R422). -/
def applyFlash (s : State) : CmdRes :=
  match s.stagedImage with
  | some im =>
    if im.kind == 1 && Config.flashPresent && Config.flashVerify im.bytes then
      let t : State := { s with flash := some im.bytes }
      t.ok (leBytes 2 im.level)
    else s.bad
  | none => s.bad

/-- IMGAPPLY MODE 2 (R401, R422). -/
def applyRun (s : State) : CmdRes :=
  if !s.reeve.fwWait then s.notReady
  else
    match s.stagedImage with
    | some im => if im.kind == 1 then (s.runFirmware im).ok (leBytes 2 im.level) else s.bad
    | none => s.bad

def cmdImgapply (s : State) (ps : List Byte) : CmdRes :=
  if ps.length != 1 then s.bad
  else
    match par ps 0 1 with
    | 0 => s.applyPatch
    | 1 => s.applyFlash
    | 2 => s.applyRun
    | _ => s.bad

/-- CRELEASE (R460). -/
def cmdCrelease (s : State) (ps : List Byte) : CmdRes :=
  if ps.length != 0 then s.bad
  else if s.regF rGLBBOOT 2 0 != 7 then s.notReady
  else if bit (s.reg rGLBBOOT) 3 then s.ok []
  else s.releaseCores.ok []

/-- BANKCMD (R423). -/
def cmdBankcmd (s : State) (ps : List Byte) : CmdRes :=
  let c := par ps 0 1
  let cmd := par ps 2 1
  let pc := v64 (par ps 3 8)
  if ps.length != 11 || !(s.coreOk c) || 3 < par ps 1 1 || 7 < cmd || bits pc 63 48 != 0 || bits pc 1 0 != 0 then s.bad
  else if s.targetFrozen c then .done stFROZEN [] s
  else if s.oddBound c || (cmd == 1 && !(bit (s.reg rGLBBOOT) 3)) then s.notReady
  else
    let b : Fin 4 := Fin.ofNat 4 (par ps 1 1)
    let s := s.powerRestore c
    let s := if pc != 0 then s.bpcWrite c b pc else s
    let s := s.bankCmd c b cmd
    if (s.bank c b).rej then s.bad else s.ok []

/-- What BANKCMD and DOORBELL answer before they act (R423, R310). -/
def cmdDoorbell (s : State) (ps : List Byte) : CmdRes :=
  let c := par ps 0 1
  let w := par ps 1 1
  if ps.length != 2 || !(s.coreOk c) || 1 < w then s.bad
  else if s.targetFrozen c then .done stFROZEN [] s
  else if s.oddBound c then s.notReady
  else ((s.powerRestore c).dbellWrite whoReeve c (w == 1) 1).ok []

def cmdWnwctl (s : State) (ps : List Byte) : CmdRes :=
  let k := par ps 0 1
  if ps.length != 2 || 11 < k || 1 < par ps 1 1 then s.bad
  else
    let r := s.wctlWrite k (v64 (par ps 1 1))
    if r.2 then r.1.bad else r.1.ok []

def cmdLinkcmd (s : State) (ps : List Byte) : CmdRes :=
  let l := par ps 0 1
  if ps.length != 2 || 5 < l || par ps 1 1 == 0 || 4 < par ps 1 1 then s.bad
  else
    let t := s.linkCmdReg l (par ps 1 1)
    if (s.linkCmd l (par ps 1 1)).2 then t.bad else t.ok []

def cmdEpochall (s : State) (ps : List Byte) : CmdRes :=
  if ps.length != 1 || 1 < par ps 0 1 then s.bad else (s.sendEpoch (par ps 0 1) true).ok []

/-- FABSEND (R424): the inner packet leaves in an RCMD, and the command waits for the RRPL while later ones run. -/
def cmdFabsend (s : State) (p : Port) (seq : BitVec 16) (ps : List Byte) : CmdRes :=
  let n := par ps 0 2
  let bs := ps.drop 2
  if ps.length < 2 || 512 < bs.length then s.bad
  else if !s.fabUp || n == s.nodeNo then s.notReady
  else
    let f : FabSendSt := { port := p, seq := seq, node := BitVec.ofNat 16 n }
    let s : State := { s with reeve := { s.reeve with fabsend := s.reeve.fabsend ++ [f] } }
    .wait (s.route none (s.bytesPacket n pRCMD bs))

def cmdBincmd (s : State) (ps : List Byte) : CmdRes :=
  let n := par ps 0 2
  let c := par ps 2 1
  if ps.length != 3 || 4095 < n || c == 0 || 5 < c then s.bad
  else
    let t := s.binCmdReg n c
    if (s.binCmd n c).2 then t.bad else t.ok []

def cmdBinstat (s : State) (ps : List Byte) : CmdRes :=
  if ps.length != 2 || 4095 < par ps 0 2 then s.bad else s.ok (s.regBytes (binBase (par ps 0 2)) 8)

def cmdBinprog (s : State) (ps : List Byte) : CmdRes :=
  let k := par ps 0 1
  let i := par ps 1 2
  let n := par ps 3 2
  if 11 < k || n == 0 || 253 < n || 4096 < i + n || ps.length != 5 + 4 * n then s.bad
  else ((List.range n).foldl (fun s j => s.setReg (engBase k + 0x8000 + 8 * (i + j)) (v64 (par ps (5 + 4 * j) 4))) s).ok []

def cmdMtrrd (s : State) (ps : List Byte) : CmdRes :=
  let a := 0x0F800000 + par ps 0 4
  if ps.length != 6 || !(regRange a (par ps 4 2)) then s.bad else s.ok (s.regBytes a (par ps 4 2))

/-- A core freezes by command (R189, R423), its power restored (R205): with its partner in a yoked pair; no violation is
logged. -/
def freezeCmd (s : State) (c' : Nat) : State :=
  let c := s.rep c'
  (s.powerRestore c).freezeFor c 0

/-- A frozen core resumes (R190): each bank in the state it held, the held stores drain. -/
def thawOne (s : State) (c : Nat) : State :=
  if (s.core c).frozen then
    let s := [(0 : Fin 4), 1, 2, 3].foldl (fun s b => s.modBank c b fun k => { k with st := k.prev }) s
    (s.modCore c fun x => { x with frozen := false, frzWhy := 0, sbHeld := false }).frzBit c false
  else s

/-- A Function Level Reset of the host data port (R437): channels, HNOTE, the command window and the MSI-X state. -/
def hostFlr (s : State) : State :=
  let s := s.hostClear
  { s with host := { s.host with hnote := [], msix := [], pba := [], vectors := [] } }

/-- The objects of FREEZE, THAW and RESET that exist (R423). -/
def kindOk (s : State) (kind i : Nat) : Bool :=
  if kind == 0 then s.coreOk i
  else if kind == 1 then decide (i < 6)
  else if kind == 2 then i == 0
  else if kind == 3 then decide (i < 4096)
  else if kind == 4 then decide (i < 48) && s.coreOk (2 * i) && s.coreOk (2 * i + 1)
  else false

def cmdFreeze (s : State) (ps : List Byte) : CmdRes :=
  let kind := par ps 0 1
  let i := par ps 1 2
  if ps.length != 3 || !(s.kindOk kind i) || kind == 4 then s.bad
  else
    let s := if kind == 0 then s.freezeCmd i
      else if kind == 1 then (s.setRegF rFRZP i i 1).flushCache i
      else if kind == 2 then s.setRegF rFRZP 8 8 1
      else s.binError i 1
    (s.logEvent 2 1 i 2 0 0).ok []

/-- THAW of core `c` and, in a yoked pair, of its partner (R190). -/
def thawCore (s : State) (c : Nat) : State :=
  if s.pairMode (pairOf c) == 2 then (s.thawOne (2 * pairOf c)).thawOne (2 * pairOf c + 1) else s.thawOne c

def cmdThaw (s : State) (ps : List Byte) : CmdRes :=
  let kind := par ps 0 1
  let i := par ps 1 2
  let c := if kind == 4 then 2 * i else i
  let coreKind := kind == 0 || kind == 4
  let escaped (c : Nat) : Bool := (s.core c).frozen && (s.core c).frzWhy == vESCFAULT
  if ps.length != 3 || !(s.kindOk kind i) then s.bad
  else if coreKind && (s.pairMode (pairOf c) == 3 || escaped c || (kind == 4 && escaped (c + 1))) then s.bad
  else if kind == 3 && s.binState i == 4 && s.regF (binBase i) 23 20 != 1 then s.bad
  else
    let s := if kind == 0 then (s.thawCore i).powerRestore i
      else if kind == 1 then (s.setRegF rFRZP i i 0).drainRx i
      else if kind == 2 then s.setRegF rFRZP 8 8 0
      else if kind == 3 then (if s.binState i == 4 then (s.setBinState i 1).setRegF (binBase i) 23 20 0 else s)
      else (((s.thawOne (2 * i)).thawOne (2 * i + 1)).powerRestore (2 * i)).powerRestore (2 * i + 1)
    (s.logEvent 2 2 i 2 0 0).ok []

def cmdReset (s : State) (ps : List Byte) : CmdRes :=
  let kind := par ps 0 1
  let i := par ps 1 2
  if ps.length != 3 || !(s.kindOk kind i) then s.bad
  else
    let s := if kind == 0 then s.coreReset i
      else if kind == 1 then ((s.linkReset i).setRegF rFRZP i i 0 |>.linkEnableCmd i).1
      else if kind == 2 then s.hostFlr
      else if kind == 3 then s.resetBinCmd i
      else if s.pairMode i == 0 then (s.coreReset (2 * i)).coreReset (2 * i + 1)
      else s.coreReset (2 * i)
    (s.logEvent 2 3 i 2 0 0).ok []

def cmdWarmrst (s : State) (ps : List Byte) : CmdRes := if ps.length != 0 then s.bad else s.warmReset.ok []

def cmdRouteflush (s : State) (ps : List Byte) : CmdRes :=
  if ps.length != 0 then s.bad
  else
    let t : State := { s with fab := { s.fab with cache := [] } }
    t.ok []

/-- The checks that a debug command makes of its core first (R423, R473). -/
def debugCore (s : State) (c : Nat) (frozenOk : Bool) (k : CmdRes) : CmdRes :=
  if !(s.coreOk c) then s.bad
  else if (s.core c).pg then s.notReady
  else if (s.core c).frozen && !frozenOk then .done stFROZEN [] s
  else k

/-- A debug halt may be taken now (R472, R310): not in escalation, not during a hand-over, not by a pair that is halted. -/
def haltable (s : State) (c : Nat) : Bool :=
  let x := s.core c
  x.stopReq && !x.halted && !x.inEsc && !x.frozen && s.pairMode (pairOf c) != 3 && s.pairMode (pairOf c) != 1

/-- HALT (R472, R473): taken at once when no bank is Running, otherwise at the next boundary. -/
def cmdHalt (s : State) (p : Port) (seq : BitVec 16) (ps : List Byte) : CmdRes :=
  let c := par ps 0 1
  if ps.length != 1 then s.bad
  else s.debugCore c false (
    let c := s.rep c
    if (s.core c).halted then s.ok []
    else
      let s := s.modCore c fun x => { x with stopReq := true }
      if s.haltable c && (s.core c).run.isNone then (s.haltCore c 1 0).ok []
      else .wait { s with reeve := { s.reeve with exec := some (.halt p seq c) } })

/-- A halted core goes on (R473, R476): the first instruction of each bank is exempt from breakpoints. -/
def goOn (s : State) (c : Nat) (count : Nat) (hold : Bool) : State :=
  let s := [(0 : Fin 4), 1, 2, 3].foldl (fun s b => s.modBank c b fun k => { k with exempt := true }) s
  let s := s.setRegF (dbgBase c) 1 0 (if count == 0 then 0 else 2)
  s.modCore c fun x => { x with halted := false, stepLeft := count, stepHold := hold }

def cmdResume (s : State) (ps : List Byte) : CmdRes :=
  let c := par ps 0 1
  if ps.length != 1 then s.bad
  else s.debugCore c false (if (s.core c).halted then (s.goOn c 0 false).ok [] else s.notReady)

def cmdStep (s : State) (ps : List Byte) : CmdRes :=
  let c := par ps 0 1
  let n := par ps 1 2
  if ps.length != 4 || n == 0 then s.bad
  else s.debugCore c false (
    if (s.core c).halted then (s.goOn c n (bit (v64 (par ps 3 1)) 0)).ok [] else s.notReady)

/-- A breakpoint's registers (R474): each of the 16 bytes in order, the reserved bits zero. -/
def breakSet (s : State) (c slot : Nat) (v0 v1 : Val) : State :=
  let put (s : State) (o : Nat) (v : Val) : State := s.setReg o (v &&& v64 (rwMask o))
  if slot < 4 then put s (dbgBase c + 0x100 + 8 * slot) v0
  else put (put s (dbgBase c + 0x140 + 16 * (slot - 4)) v0) (dbgBase c + 0x148 + 16 * (slot - 4)) v1

def cmdBrkset (s : State) (ps : List Byte) : CmdRes :=
  let c := par ps 0 1
  let slot := par ps 1 1
  let v1 := v64 (par ps 10 8)
  if ps.length != 18 || 5 < slot || (4 ≤ slot && (bits v1 5 0 < 3 || 47 < bits v1 5 0)) then s.bad
  else s.debugCore c false ((s.breakSet c slot (v64 (par ps 2 8)) v1).ok [])

/-- A breakpoint's registers take their reset values. -/
def breakClear (s : State) (c slot : Nat) : State := s.breakSet c slot 0 3

def cmdBrkclr (s : State) (ps : List Byte) : CmdRes :=
  let c := par ps 0 1
  let slot := par ps 1 1
  if ps.length != 2 || (5 < slot && slot != 0xFF) then s.bad
  else s.debugCore c false (
    if slot == 0xFF then ((List.range 6).foldl (fun s i => s.breakClear c i) s).ok [] else (s.breakClear c slot).ok [])

/-- The range that STATERD and STATEWR reach (R473). -/
def stateRange (sel frm n : Nat) : Bool :=
  if sel == 0 then decide (frm + n ≤ 136)
  else if sel == 1 then (List.range n).all fun i => srAssigned (frm + i)
  else decide (frm + n ≤ 16)

/-- One word that STATERD reads, with the effect of reading RSPOP (R138, R473). -/
def stateGet (s : State) (c : Nat) (b : Fin 4) (sel i : Nat) : Word × State :=
  if sel == 0 then (Tbl.get nilWord (s.bank c b).gr i, s)
  else if sel == 1 then (⟨srTag i, s.srVal c b i⟩, if i == 0x19 then s.rsPop c b else s)
  else (Tbl.get nilWord (s.core c).esc i, s)

def stateGets (s : State) (c : Nat) (b : Fin 4) (sel : Nat) : Nat → Nat → List Word × State
  | _, 0 => ([], s)
  | i, n + 1 =>
    let (w, s) := s.stateGet c b sel i
    let (ws, s) := stateGets s c b sel (i + 1) n
    (w :: ws, s)

/-- One word that STATEWR writes. -/
def statePut (s : State) (c : Nat) (b : Fin 4) (sel i : Nat) (w : Word) : State :=
  if sel == 0 then s.modBank c b fun k => { k with gr := Tbl.set nilWord k.gr i w }
  else if sel == 1 then s.srWrite c b true i w.val
  else s.modCore c fun x => { x with esc := Tbl.set nilWord x.esc i w }

/-- The checks that STATERD and STATEWR share. -/
def stateCheck (ps : List Byte) : Bool :=
  decide (par ps 1 1 < 4) && decide (par ps 2 1 < 3) && decide (1 ≤ par ps 4 1) && decide (par ps 4 1 ≤ 113) &&
    stateRange (par ps 2 1) (par ps 3 1) (par ps 4 1)

def cmdStaterd (s : State) (ps : List Byte) : CmdRes :=
  let c := par ps 0 1
  let b : Fin 4 := Fin.ofNat 4 (par ps 1 1)
  if ps.length != 5 || !(stateCheck ps) then s.bad
  else s.debugCore c true (
    if (s.core c).halted || (s.core c).frozen || s.pairMode (pairOf c) == 3 then
      (let (ws, s) := s.stateGets c b (par ps 2 1) (par ps 3 1) (par ps 4 1); s.ok (packWords ws))
    else s.notReady)

def cmdStatewr (s : State) (ps : List Byte) : CmdRes :=
  let c := par ps 0 1
  let b : Fin 4 := Fin.ofNat 4 (par ps 1 1)
  let n := par ps 4 1
  if ps.length != 5 + 9 * n || !(stateCheck ps) then s.bad
  else s.debugCore c false (
    if (s.core c).halted then
      let ws := unpackWords n (ps.drop 5)
      ((List.range n).foldl (fun s i => s.statePut c b (par ps 2 1) (par ps 3 1 + i) (ws.getD i nilWord)) s).ok []
    else s.notReady)

def cmdTracerd (s : State) (ps : List Byte) : CmdRes :=
  let k := par ps 0 1
  let frm := par ps 1 2
  let n := par ps 3 1
  if ps.length != 4 || 11 < k || n == 0 || 127 < n || 4096 < frm + n then s.bad
  else s.ok (s.regBytes (traceBase k + 0x8000 + 8 * frm) n)

/-- A vendor-test opcode with BOOTSEL 11 (R417): the manual publishes nothing of it; its status is a free value. -/
def cmdVendor (s : State) : CmdRes :=
  let (v, s) := s.freeVal
  .done (BitVec.ofNat 8 v.toNat) [] s

/-- A command's action (R417). -/
def runCmd (s : State) (p : Port) (x : RCmd) : CmdRes :=
  let ps := x.ps
  match x.op.toNat with
  | 0x00 => if ps.length != 0 then s.bad else s.ok []
  | 0x02 => s.cmdEvread ps
  | 0x03 => s.cmdEvack ps
  | 0x04 => s.cmdEvmask ps
  | 0x10 => s.cmdIdent ps
  | 0x11 => s.cmdStatus ps
  | 0x12 => s.cmdVlogrd p ps
  | 0x20 => s.cmdRegrd ps
  | 0x21 => s.cmdRegwr ps
  | 0x22 => s.cmdCfgset ps
  | 0x23 => s.cmdBankwld ps
  | 0x24 => s.cmdFence ps
  | 0x25 => s.cmdPlotown ps
  | 0x26 => s.cmdShare p x.seq ps
  | 0x27 => s.cmdLinkcls ps
  | 0x28 => s.cmdBinwld ps
  | 0x29 => s.cmdScrload ps
  | 0x2A => s.cmdScrctl ps
  | 0x2B => s.cmdScrstat ps
  | 0x30 => s.cmdMemrd ps
  | 0x31 => s.cmdMemwr ps
  | 0x32 => s.cmdMemfill ps
  | 0x33 => s.cmdAload ps
  | 0x34 => s.cmdImgload ps
  | 0x35 => s.cmdImgapply ps
  | 0x36 => s.cmdCrelease ps
  | 0x40 => s.cmdBankcmd ps
  | 0x41 => s.cmdFreeze ps
  | 0x42 => s.cmdThaw ps
  | 0x43 => s.cmdReset ps
  | 0x44 => s.cmdWarmrst ps
  | 0x45 => s.cmdDoorbell ps
  | 0x46 => s.cmdWnwctl ps
  | 0x50 => s.cmdLinkcmd ps
  | 0x51 => s.cmdRouteflush ps
  | 0x52 => s.cmdEpochall ps
  | 0x53 => s.cmdFabsend p x.seq ps
  | 0x60 => s.cmdBincmd ps
  | 0x61 => s.cmdBinstat ps
  | 0x62 => s.cmdBinprog ps
  | 0x70 => s.cmdMtrrd ps
  | 0x80 => s.cmdHalt p x.seq ps
  | 0x81 => s.cmdResume ps
  | 0x82 => s.cmdStep ps
  | 0x83 => s.cmdBrkset ps
  | 0x84 => s.cmdBrkclr ps
  | 0x85 => s.cmdStaterd ps
  | 0x86 => s.cmdStatewr ps
  | 0x87 => s.cmdTracerd ps
  | _ => s.cmdVendor

/-- What a Tripped module still answers (R467). -/
def tripOps : List Nat := [0x00, 0x01, 0x10, 0x11, 0x02]

/-- An accepted command begins (R410): a reply longer than the port's limit is BAD_PARAM with no effect (R406). -/
def beginCmd (s : State) (p : Port) (x : RCmd) : State :=
  if s.tripped && !(tripOps.contains x.op.toNat) then s.complete p x.op x.seq stNOT_READY []
  else
    match s.runCmd p x with
    | .done st data t =>
      if s.replyLimit p < 11 + data.length then s.complete p x.op x.seq stBAD_PARAM []
      else t.complete p x.op x.seq st data
    | .wait t => t

/-- The command that waits for its own completion rule completes, if the rule is met (R411). -/
def endExec (s : State) : State :=
  match s.reeve.exec with
  | some (.halt p seq c) =>
    if (s.core c).halted then
      (let s := { s with reeve := { s.reeve with exec := none } }; s.complete p 0x80 seq stOK [])
    else s
  | some (.share p seq j o) =>
    if s.shareRuns j then s
    else
      let s := { s with reeve := { s.reeve with exec := none } }
      (s.setRegF rCSOWN (2 * j + 1) (2 * j) o).complete p 0x26 seq stOK []
  | none => s

/-- Accepted commands run one at a time in order of acceptance (R410). -/
def reeveGo : Nat → State → State
  | 0, s => s.endExec
  | n + 1, s =>
    let s := s.endExec
    if s.reeve.exec.isSome then s
    else
      match s.reeve.todo with
      | [] => s
      | (p, op, seq, ps) :: r =>
        let s : State := { s with reeve := { s.reeve with todo := r } }
        reeveGo n (s.beginCmd p { op := op, seq := seq, ps := ps })

/-- The commands that the boot ROM serves (R401). -/
def bootOps : List Nat := [0x00, 0x01, 0x10, 0x34, 0x35]

/-- The first of the opcode, rights and outstanding checks that fails (R407); none: the command is accepted. -/
def refuse (s : State) (p : Port) (x : RCmd) : Option Byte :=
  let op := x.op.toNat
  let vendor := decide (0xF0 ≤ op) && s.regF rGLBSTRAP 1 0 == 3
  if !(assignedOps.contains op || vendor) || (!(bit (s.reg rGLBBOOT) 0) && !(bootOps.contains op)) then some stUNSUPPORTED
  else if !(if vendor then p == .mgmt || p == .debug else s.rights p op x.ps) then some stDENIED
  else if 16 ≤ (s.port p).out.length then some stBUSY
  else none

/-- A command is accepted (R408, R409). -/
def acceptCmd (s : State) (p : Port) (x : RCmd) : State :=
  let y := s.port p
  let kept := y.kept ++ [(x.seq, x.op, none)]
  let s := s.setPort p { y with
    lastAcc := x.seq, out := y.out ++ [x.seq], kept := kept.drop (kept.length - 16) }
  let s := { s with reeve := { s.reeve with todo := s.reeve.todo ++ [(p, x.op, x.seq, x.ps)] } }
  reeveGo s.reeve.todo.length s

/-- The Reeve hears a port: it has started; only MGMT and DEBUG while no firmware runs (R401). -/
def hears (s : State) (p : Port) : Bool :=
  s.reeve.up && (bit (s.reg rGLBBOOT) 0 || p == .mgmt || p == .debug)

/-- A packet reaches a port (R407, R408, R415); `cut` when bytes beyond the port's limit were discarded. -/
def serveBytes (s : State) (p : Port) (bs : List Byte) (cut : Bool) : State :=
  if !(s.hears p) then s
  else
    let long := match p with
      | .link _ _ => decide (512 < bs.length)
      | _ => false
    match if cut || long then none else parseCmd bs with
    | none => s.reject p (bs.getD 1 0) (BitVec.ofNat 16 (par bs 2 2)) stBAD_CRC
    | some x =>
      let y := s.port p
      if x.op == 0x01 then s.answerSync p x.seq
      else if x.seq == y.lastAcc + 1 then
        (match s.refuse p x with
        | some st => s.reject p x.op x.seq st
        | none => s.acceptCmd p x)
      else
        match y.kept.find? fun k => k.1 == x.seq && k.2.1 == x.op with
        | some (_, _, some r) => s.queueReply p r none false
        | some (_, _, none) => s
        | none => s.reject p x.op x.seq stBAD_SEQ

/-- One packet that waits at a port is handled: those of a mailbox, the command window or a link. -/
def serveInbox (s : State) : State :=
  match s.reeve.inbox with
  | [] => s
  | (p, bs) :: r =>
    let s : State := { s with reeve := { s.reeve with inbox := r } }
    s.serveBytes p bs false

/-- A packet arrives by a port as its path takes it (R404, R415, R416, R435, R437, R470); one that waits there already is
that packet. -/
def arriveCmd (s : State) (p : Port) (bs : List Byte) : State :=
  if s.reeve.inbox.contains (p, bs) then
    let s : State := { s with reeve := { s.reeve with inbox := s.reeve.inbox.erase (p, bs) } }
    s.serveBytes p bs false
  else
    match p with
    | .mgmt => s.serveBytes p bs (decide (s.reeve.mwl.toNat < bs.length))
    | .debug => if bit (s.reg rGLBSTRAP) 4 then s.serveBytes p bs false else s
    | .host =>
      if s.host.cmdb || s.host.rplv || bit (s.reg rFRZP) 8 then s
      else
        let s : State := { s with host := { s.host with cmdb := true } }
        s.serveBytes p bs false
    | .core w =>
      if s.regF (mailBase w.val) 1 0 != 0 then s else (s.setReg (mailBase w.val) 1).serveBytes p bs false
    | .link l n =>
      if s.linkState l == 5 && s.hears p then ((s.hearNode l n).serveBytes p bs false) else s

end State

/-- A row that is a Reeve command: its packet arrives by its port. -/
def cmdRow (s : State) (p : Port) (op : Byte) (seq : BitVec 16) (ps : List Byte) : Host.Outcome State Fault Refusal :=
  .next (s.arriveCmd p (cmdPacket op seq ps))

end Sys2Proof.Machine
end

