-- ==== Sys2Proof/Machine/CmdRows.lean ====
section
/-! DEFINITION. The rows that are Reeve commands (R417), each the packet of its opcode and parameters by a port; RCMD
(R415); the script interpreter (R425, R426) and its rows. -/

namespace Sys2Proof.Machine

/-- Bytes of a bit vector, little-endian. -/
def bv {w : Nat} (n : Nat) (x : BitVec w) : List Byte := leBytes n x.toNat

def execNop (p : Port) (seq : BitVec 16) (s : State) : Host.Outcome State Fault Refusal := cmdRow s p 0x00 seq []

def execSync (p : Port) (seq : BitVec 16) (s : State) : Host.Outcome State Fault Refusal := cmdRow s p 0x01 seq []

def execEvread (p : Port) (seq : BitVec 16) (frm : BitVec 16) (mx : Byte) (s : State) : Host.Outcome State Fault Refusal :=
  cmdRow s p 0x02 seq (bv 2 frm ++ [mx])

def execEvack (p : Port) (seq : BitVec 16) (upto : BitVec 16) (s : State) : Host.Outcome State Fault Refusal :=
  cmdRow s p 0x03 seq (bv 2 upto)

def execEvmask (p : Port) (seq : BitVec 16) (mask : BitVec 16) (s : State) : Host.Outcome State Fault Refusal :=
  cmdRow s p 0x04 seq (bv 2 mask)

def execIdent (p : Port) (seq : BitVec 16) (s : State) : Host.Outcome State Fault Refusal := cmdRow s p 0x10 seq []

def execStatus (p : Port) (seq : BitVec 16) (s : State) : Host.Outcome State Fault Refusal := cmdRow s p 0x11 seq []

def execVlogrd (p : Port) (seq : BitVec 16) (frm n : Byte) (s : State) : Host.Outcome State Fault Refusal :=
  cmdRow s p 0x12 seq [frm, n]

def execRegrd (p : Port) (seq : BitVec 16) (adr : BitVec 32) (n : BitVec 16) (s : State) : Host.Outcome State Fault Refusal :=
  cmdRow s p 0x20 seq (bv 4 adr ++ bv 2 n)

def execRegwr (p : Port) (seq : BitVec 16) (adr : BitVec 32) (vs : List Val) (s : State) :
    Host.Outcome State Fault Refusal :=
  cmdRow s p 0x21 seq (bv 4 adr ++ leBytes 2 vs.length ++ vs.flatMap fun v => bv 8 v)

def execCfgset (p : Port) (seq : BitVec 16) (key : BitVec 16) (v : Val) (s : State) : Host.Outcome State Fault Refusal :=
  cmdRow s p 0x22 seq (bv 2 key ++ bv 8 v)

def execBankwld (p : Port) (seq : BitVec 16) (core bank wld : Byte) (s : State) : Host.Outcome State Fault Refusal :=
  cmdRow s p 0x23 seq [core, bank, wld]

def execFence (p : Port) (seq : BitVec 16) (space : Byte) (gran : BitVec 16) (owner : Byte) (s : State) :
    Host.Outcome State Fault Refusal :=
  cmdRow s p 0x24 seq ([space] ++ bv 2 gran ++ [owner])

def execPlotown (p : Port) (seq : BitVec 16) (plot : BitVec 16) (own : Byte) (s : State) :
    Host.Outcome State Fault Refusal :=
  cmdRow s p 0x25 seq (bv 2 plot ++ [own])

def execShare (p : Port) (seq : BitVec 16) (sh owner : Byte) (s : State) : Host.Outcome State Fault Refusal :=
  cmdRow s p 0x26 seq [sh, owner]

def execLinkcls (p : Port) (seq : BitVec 16) (link cls wld up : Byte) (lo hi : BitVec 16) (s : State) :
    Host.Outcome State Fault Refusal :=
  cmdRow s p 0x27 seq ([link, cls, wld, up] ++ bv 2 lo ++ bv 2 hi)

def execBinwld (p : Port) (seq : BitVec 16) (bin : BitVec 16) (wld : Byte) (s : State) : Host.Outcome State Fault Refusal :=
  cmdRow s p 0x28 seq (bv 2 bin ++ [wld])

def execScrload (p : Port) (seq : BitVec 16) (slot : Byte) (code : List Byte) (s : State) :
    Host.Outcome State Fault Refusal :=
  cmdRow s p 0x29 seq ([slot] ++ leBytes 2 code.length ++ code)

def execScrctlStart (p : Port) (seq : BitVec 16) (slot : Byte) (s : State) : Host.Outcome State Fault Refusal :=
  cmdRow s p 0x2A seq [slot, 1]

def execScrctlStop (p : Port) (seq : BitVec 16) (slot : Byte) (s : State) : Host.Outcome State Fault Refusal :=
  cmdRow s p 0x2A seq [slot, 2]

def execScrstat (p : Port) (seq : BitVec 16) (slot : Byte) (s : State) : Host.Outcome State Fault Refusal :=
  cmdRow s p 0x2B seq [slot]

def execMemrd (p : Port) (seq : BitVec 16) (adr : BitVec 40) (n : Byte) (s : State) : Host.Outcome State Fault Refusal :=
  cmdRow s p 0x30 seq (bv 5 adr ++ [n])

def execMemwr (p : Port) (seq : BitVec 16) (adr : BitVec 40) (ws : List Word) (s : State) :
    Host.Outcome State Fault Refusal :=
  cmdRow s p 0x31 seq (bv 5 adr ++ leBytes 1 ws.length ++ packWords ws)

def execMemfill (p : Port) (seq : BitVec 16) (adr : BitVec 40) (count : BitVec 32) (w : Word) (s : State) :
    Host.Outcome State Fault Refusal :=
  cmdRow s p 0x32 seq (bv 5 adr ++ bv 4 count ++ packWords [w])

def execAload (p : Port) (seq : BitVec 16) (kind : Byte) (index n : BitVec 16) (vs : List Val) (s : State) :
    Host.Outcome State Fault Refusal :=
  cmdRow s p 0x33 seq ([kind] ++ bv 2 index ++ bv 2 n ++ vs.flatMap fun v => bv 8 v)

def execImgload (p : Port) (seq : BitVec 16) (off : BitVec 32) (bs : List Byte) (s : State) :
    Host.Outcome State Fault Refusal :=
  cmdRow s p 0x34 seq (bv 4 off ++ bs)

def execImgapplyPatch (p : Port) (seq : BitVec 16) (s : State) : Host.Outcome State Fault Refusal := cmdRow s p 0x35 seq [0]

def execImgapplyFlash (p : Port) (seq : BitVec 16) (s : State) : Host.Outcome State Fault Refusal := cmdRow s p 0x35 seq [1]

def execImgapplyRun (p : Port) (seq : BitVec 16) (s : State) : Host.Outcome State Fault Refusal := cmdRow s p 0x35 seq [2]

def execCrelease (p : Port) (seq : BitVec 16) (s : State) : Host.Outcome State Fault Refusal := cmdRow s p 0x36 seq []

def execBankcmd (p : Port) (seq : BitVec 16) (core bank cmd : Byte) (pc : Val) (s : State) :
    Host.Outcome State Fault Refusal :=
  cmdRow s p 0x40 seq ([core, bank, cmd] ++ bv 8 pc)

def execFreeze (p : Port) (seq : BitVec 16) (kind : Byte) (index : BitVec 16) (s : State) :
    Host.Outcome State Fault Refusal :=
  cmdRow s p 0x41 seq ([kind] ++ bv 2 index)

def execThaw (p : Port) (seq : BitVec 16) (kind : Byte) (index : BitVec 16) (s : State) : Host.Outcome State Fault Refusal :=
  cmdRow s p 0x42 seq ([kind] ++ bv 2 index)

def execReset (p : Port) (seq : BitVec 16) (kind : Byte) (index : BitVec 16) (s : State) : Host.Outcome State Fault Refusal :=
  cmdRow s p 0x43 seq ([kind] ++ bv 2 index)

def execWarmrst (p : Port) (seq : BitVec 16) (s : State) : Host.Outcome State Fault Refusal := cmdRow s p 0x44 seq []

def execDoorbell (p : Port) (seq : BitVec 16) (core wld : Byte) (s : State) : Host.Outcome State Fault Refusal :=
  cmdRow s p 0x45 seq [core, wld]

def execWnwctl (p : Port) (seq : BitVec 16) (cl en : Byte) (s : State) : Host.Outcome State Fault Refusal :=
  cmdRow s p 0x46 seq [cl, en]

def execLinkcmd (p : Port) (seq : BitVec 16) (link cmd : Byte) (s : State) : Host.Outcome State Fault Refusal :=
  cmdRow s p 0x50 seq [link, cmd]

def execRouteflush (p : Port) (seq : BitVec 16) (s : State) : Host.Outcome State Fault Refusal := cmdRow s p 0x51 seq []

def execEpochall (p : Port) (seq : BitVec 16) (wld : Byte) (s : State) : Host.Outcome State Fault Refusal :=
  cmdRow s p 0x52 seq [wld]

def execFabsend (p : Port) (seq : BitVec 16) (node : BitVec 16) (pkt : List Byte) (s : State) :
    Host.Outcome State Fault Refusal :=
  cmdRow s p 0x53 seq (bv 2 node ++ pkt)

def execBincmd (p : Port) (seq : BitVec 16) (bin : BitVec 16) (cmd : Byte) (s : State) : Host.Outcome State Fault Refusal :=
  cmdRow s p 0x60 seq (bv 2 bin ++ [cmd])

def execBinstat (p : Port) (seq : BitVec 16) (bin : BitVec 16) (s : State) : Host.Outcome State Fault Refusal :=
  cmdRow s p 0x61 seq (bv 2 bin)

def execBinprog (p : Port) (seq : BitVec 16) (engine : Byte) (index : BitVec 16) (ws : List (BitVec 32)) (s : State) :
    Host.Outcome State Fault Refusal :=
  cmdRow s p 0x62 seq ([engine] ++ bv 2 index ++ leBytes 2 ws.length ++ ws.flatMap fun w => bv 4 w)

def execMtrrd (p : Port) (seq : BitVec 16) (off : BitVec 32) (n : BitVec 16) (s : State) : Host.Outcome State Fault Refusal :=
  cmdRow s p 0x70 seq (bv 4 off ++ bv 2 n)

def execHalt (p : Port) (seq : BitVec 16) (core : Byte) (s : State) : Host.Outcome State Fault Refusal :=
  cmdRow s p 0x80 seq [core]

def execResume (p : Port) (seq : BitVec 16) (core : Byte) (s : State) : Host.Outcome State Fault Refusal :=
  cmdRow s p 0x81 seq [core]

def execStep (p : Port) (seq : BitVec 16) (core : Byte) (count : BitVec 16) (flags : Byte) (s : State) :
    Host.Outcome State Fault Refusal :=
  cmdRow s p 0x82 seq ([core] ++ bv 2 count ++ [flags])

def execBrkset (p : Port) (seq : BitVec 16) (core slot : Byte) (v0 v1 : Val) (s : State) : Host.Outcome State Fault Refusal :=
  cmdRow s p 0x83 seq ([core, slot] ++ bv 8 v0 ++ bv 8 v1)

def execBrkclr (p : Port) (seq : BitVec 16) (core slot : Byte) (s : State) : Host.Outcome State Fault Refusal :=
  cmdRow s p 0x84 seq [core, slot]

def execStaterd (p : Port) (seq : BitVec 16) (core bank sel frm n : Byte) (s : State) : Host.Outcome State Fault Refusal :=
  cmdRow s p 0x85 seq [core, bank, sel, frm, n]

def execStatewr (p : Port) (seq : BitVec 16) (core bank sel frm : Byte) (ws : List Word) (s : State) :
    Host.Outcome State Fault Refusal :=
  cmdRow s p 0x86 seq ([core, bank, sel, frm] ++ leBytes 1 ws.length ++ packWords ws)

def execTracerd (p : Port) (seq : BitVec 16) (cl : Byte) (frm : BitVec 16) (n : Byte) (s : State) :
    Host.Outcome State Fault Refusal :=
  cmdRow s p 0x87 seq ([cl] ++ bv 2 frm ++ [n])

/-- RCMD arrives on a link and is handled at the instance of its source node (R415). -/
def execRcmd (l : Fin 6) (p : Packet) (s : State) : Host.Outcome State Fault Refusal :=
  .next (
    let t := s.packetRow l.val pRCMD p
    match t.reeve.inbox.getLast? with
    | some (q, bs) =>
      if s.reeve.inbox.length < t.reeve.inbox.length then
        let u : State := { t with reeve := { t.reeve with inbox := t.reeve.inbox.dropLast } }
        u.serveBytes q bs false
      else t
    | none => t)

/-- What one script instruction does to the running of its script. -/
inductive ScrNext where
  | go
  | yield
  | stop
deriving DecidableEq, Repr

/-- Reeve cycles of a script instruction (R425). -/
def scriptCost (op : Nat) : Nat := if op == 0x10 || op == 0x11 then 40 else if op == 0x22 then 20 else 4

/-- The registers that a script instruction names (R425), by operand: D, A, B. -/
def scriptUses (op : Nat) : Bool × Bool × Bool :=
  if op == 0x01 || op == 0x02 then (true, false, false)
  else if 0x03 ≤ op && op ≤ 0x07 then (true, true, true)
  else if op == 0x08 || op == 0x09 || op == 0x10 then (true, true, false)
  else if op == 0x11 || (0x18 ≤ op && op ≤ 0x1A) then (false, true, true)
  else if op == 0x22 then (false, true, false)
  else (false, false, false)

/-- The opcodes of R425. -/
def scriptOp (op : Nat) : Bool :=
  (decide (1 ≤ op) && decide (op ≤ 9)) || op == 0x10 || op == 0x11 || (decide (0x18 ≤ op) && decide (op ≤ 0x1A)) ||
    (decide (0x20 ≤ op) && decide (op ≤ 0x23))

namespace State

/-- Instruction `x.pc` of a script: its eight bytes. -/
def scriptInsn (x : Script) : Option (List Byte) :=
  if 8 * x.pc + 8 ≤ x.code.length then some ((x.code.drop (8 * x.pc)).take 8) else none

/-- One instruction of the script of slot `n` (R425, R426). -/
def scriptStep (s : State) (n : Nat) : ScrNext × State :=
  let x := s.script n
  match scriptInsn x with
  | none => (.stop, s.scriptStop n 2)
  | some i =>
    let op := par i 0 1
    let d := par i 1 1
    let imm := sext 32 (par i 4 4)
    let (ud, ua, ub) := scriptUses op
    if !(scriptOp op) || (ud && 15 < d) || (ua && 15 < par i 2 1) || (ub && 15 < par i 3 1) then (.stop, s.scriptStop n 1)
    else
      let a := Tbl.get (0 : Val) x.regs (par i 2 1)
      let b := Tbl.get (0 : Val) x.regs (par i 3 1)
      let set (v : Val) : ScrNext × State :=
        (.go, s.setScript n { x with regs := Tbl.set (0 : Val) x.regs d v, pc := x.pc + 1 })
      let branch (c : Bool) : ScrNext × State :=
        if !c then (.go, s.setScript n { x with pc := x.pc + 1 })
        else if imm < 0 ∨ (x.code.length / 8 : Nat) ≤ imm then (.stop, s.scriptStop n 2)
        else (.go, s.setScript n { x with pc := imm.toNat })
      let at_ := (a + i64 imm).toNat
      let badAt := at_ % 8 != 0 || 0x0FFFFFF8 < at_
      match op with
      | 0x01 => set (i64 imm)
      | 0x02 => set (v64 (bits (Tbl.get (0 : Val) x.regs d) 31 0) + i64 (imm * 2 ^ 32))
      | 0x03 => set (a + b)
      | 0x04 => set (a - b)
      | 0x05 => set (a &&& b)
      | 0x06 => set (a ||| b)
      | 0x07 => set (a ^^^ b)
      | 0x08 => set (a >>> (par i 4 1 % 64))
      | 0x09 => set (a <<< (par i 4 1 % 64))
      | 0x10 => if badAt then (.stop, s.scriptStop n 3) else set (s.regRead whoReeve at_)
      | 0x11 =>
        if badAt then (.stop, s.scriptStop n 3)
        else (.go, (s.setScript n { x with pc := x.pc + 1 }).regWrite whoReeve at_ b)
      | 0x18 => branch (a == b)
      | 0x19 => branch (a != b)
      | 0x1A => branch (decide (a.toNat < b.toNat))
      | 0x20 => (.yield, s.setScript n { x with pc := x.pc + 1, cut := 0 })
      | 0x21 => (.yield, s.setScript n { x with pc := x.pc + 1, cut := 0, wait := imm.toNat + 1 })
      | 0x22 => (.go, (s.setScript n { x with pc := x.pc + 1 }).logEvent 0 3 n 2 a 0)
      | _ => (.stop, s.scriptStop n 0)

/-- Reeve cycles of the instruction that a script would execute next. -/
def scriptNextCost (x : Script) : Nat :=
  match scriptInsn x with
  | some i => scriptCost (par i 0 1)
  | none => 0

/-- A script runs within the cycles left of a slice: the cycles left after it, and the state; cut off when its next
instruction does not fit. -/
def scriptRun (n : Nat) : Nat → Nat → State → Nat × State
  | 0, left, s => (left, s)
  | f + 1, left, s =>
    let x := s.script n
    let c := scriptNextCost x
    if left < c then (0, s.setScript n { x with cut := x.cut + 1 })
    else
      match s.scriptStep n with
      | (.go, s) => scriptRun n f (left - c) s
      | (_, s) => (left - c, s)

/-- The script takes part in a slice: it runs, does not wait and has not been cut off 64 times in a row. -/
def scriptReady (s : State) (n : Nat) : Bool :=
  let x := s.script n
  x.on && decide (x.wait ≤ 1) && decide (x.cut < 64)

/-- The slice of a bout boundary (R426): running scripts take turns from the slot after the one that began the last. -/
def scriptSlice (s : State) : State :=
  let order := [1, 2, 3, 4].map fun i => (s.reeve.sliceFrom + i) % 4
  match order.find? fun n => s.scriptReady n with
  | none => s
  | some first =>
    let budget := 200 <<< s.regF rBTCTL 1 0
    let s : State := { s with reeve := { s.reeve with sliceFrom := first } }
    (order.foldl (fun (a : Nat × State) n =>
      if a.1 == 0 || !(a.2.scriptReady n) then a
      else
        let x := a.2.script n
        scriptRun n (a.1 + 1) a.1 (a.2.setScript n { x with wait := 0, slices := x.slices + 1 })) (budget, s)).2

/-- One bout of every waiting script has passed (R425). -/
def scriptAge (s : State) : State :=
  (List.range 4).foldl (fun s n =>
    let x := s.script n
    if x.on && 1 < x.wait then s.setScript n { x with wait := x.wait - 1 } else s) s

end State

/-- A WAIT has lasted its bouts (R425): the script may run again. -/
def execScriptWaitExpiry (slot : Fin 4) (s : State) : Host.Outcome State Fault Refusal :=
  .next (
    let x := s.script slot.val
    if x.on && x.wait == 1 then s.setScript slot.val { x with wait := 0 } else s)

/-- A script cut off in 64 consecutive slices stops with FAULT 5 (R426). -/
def execScriptBudgetFault (slot : Fin 4) (s : State) : Host.Outcome State Fault Refusal :=
  .next (if (s.script slot.val).on && 64 ≤ (s.script slot.val).cut then s.scriptStop slot.val 5 else s)

end Sys2Proof.Machine
end

