-- ==== Sys2Proof/Machine/PortRows.lean ====
section
/-! DEFINITION. The ports outside the command set: mailboxes and the host's command window (R416, R435), the I3C targets
(R402-R405, R447), the JTAG port (R470, R471). -/

namespace Sys2Proof.Machine

namespace State

/-- The packet that a row just put in the inbox is handled at once. -/
def serveNew (s t : State) : State :=
  match t.reeve.inbox.getLast? with
  | some (q, bs) =>
    if s.reeve.inbox.length < t.reeve.inbox.length then
      let u : State := { t with reeve := { t.reeve with inbox := t.reeve.inbox.dropLast } }
      u.serveBytes q bs false
    else t
  | none => t

/-- MBGO of the host's command window (R435): discarded while the port is frozen (R437). -/
def hostGo (s : State) (v : Val) : State :=
  if bit v 0 && !s.host.cmdb && !s.host.rplv && !(bit (s.reg rFRZP) 8) then
    let bs := (List.range 129).flatMap fun k => leBytes 8 (Tbl.get (0 : Val) s.host.mbcmd k).toNat
    { s with host := { s.host with cmdb := true }, reeve := { s.reeve with inbox := s.reeve.inbox ++ [(.host, bs)] } }
  else s

/-- MBDONE of the host's command window (R435). -/
def hostDone (s : State) (v : Val) : State :=
  if bit v 0 && s.host.rplv && !(bit (s.reg rFRZP) 8) then
    let s : State := { s with host := { s.host with rplv := false } }
    (s.popReply 2).showHost
  else s

end State

/-- MBGO (R416): the command in MBCMD is submitted, at a mailbox or, by the host, at its command window. -/
def execMbgoWrite (r : RegSrc) (w : Fin 2) (v : Val) (s : State) : Host.Outcome State Fault Refusal :=
  .next (s.serveNew (match r with
    | .host => s.hostGo v
    | _ => s.regCmd r (mailBase w.val + 0x10) v))

/-- MBDONE (R416): RPLV clears, and the reply is delivered. -/
def execMbdoneWrite (r : RegSrc) (w : Fin 2) (v : Val) (s : State) : Host.Outcome State Fault Refusal :=
  .next (match r with
    | .host => s.hostDone v
    | _ => s.regCmd r (mailBase w.val + 0x18) v)

namespace State

/-- A change of the Reeve's I3C interface while it answers; every transfer in SDR ends HDR-DDR. -/
def i3c (s : State) (f : Reeve → Reeve) : State :=
  if s.reeve.up then ({ s with reeve := f { s.reeve with hdr := false } }).updateIbi else s

/-- A change of the Bushel's I3C interface while it is powered. -/
def bsh3c (s : State) (f : Bushel → Bushel) : State := if s.bsh.on then { s with bsh := f s.bsh } else s

/-- The static addresses (R402, R447). -/
def reeveStatic (s : State) : BitVec 7 := BitVec.ofNat 7 (0x58 + s.regF rGLBSTRAP 3 2)
def bushelStatic (s : State) : BitVec 7 := BitVec.ofNat 7 (0x5C + s.bsh.as)

end State

/-- The `n` bytes of a number, most significant first, as a CCC returns them (MIPI I3C Basic; PRESUMED). -/
def beBytes (n x : Nat) : List Byte := (leBytes n x).reverse

/-- A private write to the Reeve (R404): a command packet; bytes beyond SETMWL fail its CRC. -/
def execPrivateWrite (bs : List Byte) (s : State) : Host.Outcome State Fault Refusal :=
  .next (s.arriveCmd .mgmt bs)

/-- A private read of the Reeve (R404, R410): the next reply, or nothing when none waits. -/
def execPrivateRead (s : State) : Host.Outcome State Fault Refusal :=
  .next (
    if !s.reeve.up then s
    else
      match (s.port .mgmt).queue with
      | [] => { s with reeve := { s.reeve with i3cOut := [] } }
      | r :: _ =>
        let s := s.popReply 0
        let t : State := { s with reeve := { s.reeve with i3cOut := r.bytes.take s.reeve.mrl.toNat } }
        t.updateIbi)

/-- ENEC (R403): ENINT only. -/
def execEnec (bs : Byte) (s : State) : Host.Outcome State Fault Refusal :=
  .next (s.i3c fun r => { r with enint := r.enint || bs.getLsbD 0 })

/-- DISEC (R403): DISINT only. -/
def execDisec (bs : Byte) (s : State) : Host.Outcome State Fault Refusal :=
  .next (s.i3c fun r => { r with enint := r.enint && !(bs.getLsbD 0) })

/-- ENTAS0 to ENTAS3 (R403): accepted, no effect. -/
def execEntas (_n : Fin 4) (s : State) : Host.Outcome State Fault Refusal := .next (s.i3c fun r => r)

/-- RSTDAA (R403, R447): both targets return to their static addresses. -/
def execRstdaa (s : State) : Host.Outcome State Fault Refusal :=
  .next ((s.i3c fun r => { r with dyn := none }).bsh3c fun b => { b with dyn := none })

/-- ENTDAA (R403, R447): a target without a dynamic address takes the one assigned to it. -/
def execEntdaa (t : I3CTarget) (adr : BitVec 7) (s : State) : Host.Outcome State Fault Refusal :=
  .next (match t with
    | .reeve => s.i3c fun r => { r with dyn := some (r.dyn.getD adr) }
    | .bushel => s.bsh3c fun b => { b with dyn := some (b.dyn.getD adr) })

/-- SETMWL (R403): values below 16 are ignored. -/
def execSetmwl (n : BitVec 16) (s : State) : Host.Outcome State Fault Refusal :=
  .next (s.i3c fun r => if n.toNat < 16 then r else { r with mwl := n })

/-- SETMRL (R403): values below 16 are ignored. -/
def execSetmrl (n : BitVec 16) (ibi : BitVec 8) (s : State) : Host.Outcome State Fault Refusal :=
  .next (s.i3c fun r => if n.toNat < 16 then r else { r with mrl := n, ibiLen := ibi })

/-- ENTHDR0 (R402, R403): HDR-DDR, which carries the same packets. -/
def execEnthdr0 (s : State) : Host.Outcome State Fault Refusal :=
  .next (if s.reeve.up then { s with reeve := { s.reeve with hdr := true } } else s)

/-- SETAASA (R403, R447): the static address becomes the dynamic address. -/
def execSetaasa (s : State) : Host.Outcome State Fault Refusal :=
  let a := s.reeveStatic
  let b' := s.bushelStatic
  .next ((s.i3c fun r => { r with dyn := some (r.dyn.getD a) }).bsh3c fun b => { b with dyn := some (b.dyn.getD b') })

/-- RSTACT (R403, R447): defining bytes 0x00 and 0x01; the I3C interface alone restarts. -/
def execRstact (t : I3CTarget) (df : Byte) (s : State) : Host.Outcome State Fault Refusal :=
  .next (
    if 1 < df.toNat then s
    else
      match t with
      | .reeve => s.i3c fun r => { r with rstAct := df, protoErr := false, i3cOut := [] }
      | .bushel => s.bsh3c fun b => { b with rdAddr := 0x00F8, rdLen := 536, rdSet := false, protoErr := false, readOut := [] })

/-- SETDASA (R403, R447): a target without a dynamic address takes one. -/
def execSetdasa (t : I3CTarget) (adr : BitVec 7) (s : State) : Host.Outcome State Fault Refusal :=
  .next (match t with
    | .reeve => s.i3c fun r => if r.dyn.isNone then { r with dyn := some adr } else r
    | .bushel => s.bsh3c fun b => if b.dyn.isNone then { b with dyn := some adr } else b)

/-- SETNEWDA (R403, R447): the dynamic address changes. -/
def execSetnewda (t : I3CTarget) (adr : BitVec 7) (s : State) : Host.Outcome State Fault Refusal :=
  .next (match t with
    | .reeve => s.i3c fun r => if r.dyn.isSome then { r with dyn := some adr } else r
    | .bushel => s.bsh3c fun b => if b.dyn.isSome then { b with dyn := some adr } else b)

/-- GETMWL (R403). -/
def execGetmwl (s : State) : Host.Outcome State Fault Refusal :=
  .next (s.i3c fun r => { r with i3cOut := beBytes 2 r.mwl.toNat })

/-- GETMRL (R403): with the IBI payload size. -/
def execGetmrl (s : State) : Host.Outcome State Fault Refusal :=
  .next (s.i3c fun r => { r with i3cOut := beBytes 2 r.mrl.toNat ++ [r.ibiLen] })

/-- GETPID (R402, R447): the provisional ID. -/
def execGetpid (t : I3CTarget) (s : State) : Host.Outcome State Fault Refusal :=
  let pid (part as : Nat) : Nat := fld 33 0x0CA9 + fld 16 part + fld 12 as + 0x0A1
  let a := s.regF rGLBSTRAP 3 2
  .next (match t with
    | .reeve => s.i3c fun r => { r with i3cOut := beBytes 6 (pid 0x0096 a) }
    | .bushel => s.bsh3c fun b => { b with readOut := beBytes 6 (pid 0x00B5 b.as) })

/-- GETBCR (R402, R447). -/
def execGetbcr (t : I3CTarget) (s : State) : Host.Outcome State Fault Refusal :=
  .next (match t with
    | .reeve => s.i3c fun r => { r with i3cOut := [0x26] }
    | .bushel => s.bsh3c fun b => { b with readOut := [0x00] })

/-- GETDCR (R402, R447). -/
def execGetdcr (t : I3CTarget) (s : State) : Host.Outcome State Fault Refusal :=
  .next (match t with
    | .reeve => s.i3c fun r => { r with i3cOut := [0x00] }
    | .bushel => s.bsh3c fun b => { b with readOut := [0x00] })

/-- GETSTATUS (R403, R448): the read clears the protocol error. -/
def execGetstatus (t : I3CTarget) (s : State) : Host.Outcome State Fault Refusal :=
  let n := min 255 (s.port .mgmt).queue.length
  let c := b2n (s.ibiCond != 0)
  .next (match t with
    | .reeve => s.i3c fun r => { r with i3cOut := beBytes 2 (fld 8 n + fld 5 (b2n r.protoErr) + c), protoErr := false }
    | .bushel => s.bsh3c fun b => { b with readOut := beBytes 2 (fld 5 (b2n b.protoErr)), protoErr := false })

/-- GETMXDS (R403): no speed limitation. -/
def execGetmxds (s : State) : Host.Outcome State Fault Refusal := .next (s.i3c fun r => { r with i3cOut := [0x00, 0x00] })

/-- GETCAPS (R403): HDR-DDR in the first byte; the manual states no other byte. -/
def execGetcaps (s : State) : Host.Outcome State Fault Refusal :=
  let (v, s) := s.freeVal
  .next (s.i3c fun r => { r with i3cOut := 0x01 :: leBytes 3 v.toNat })

/-- What Capture-DR loads for IDCODE (R470); 0 for a register that the manual gives no capture value. -/
def idcode : BitVec 32 := 0x100969CB

/-- Update-DR of CMDDATA (R471). -/
def execCmddataUpdate (d : BitVec 10) (s : State) : Host.Outcome State Fault Refusal :=
  .next (
    if s.jtag.ir != 0x20 || !(d.getLsbD 9) then s
    else
      let rx := s.jtag.rx ++ [d.setWidth 8]
      if d.getLsbD 8 then
        let s : State := { s with jtag := { s.jtag with rx := [] } }
        if bit (s.reg rGLBSTRAP) 4 then s.serveBytes .debug rx (decide (1032 < rx.length)) else s
      else { s with jtag := { s.jtag with rx := rx } })

/-- Capture-DR of CMDDATA (R471): a reply is delivered when its last byte has been captured. -/
def execCmddataCapture (s : State) : Host.Outcome State Fault Refusal :=
  .next (
    if s.jtag.ir != 0x20 then s
    else
      let y := s.port .debug
      let cur := match s.jtag.cur with
        | some r => some r
        | none => y.queue.head?
      let left := if s.jtag.cur.isSome then s.jtag.tx else (cur.map (·.bytes)).getD []
      match cur, left with
      | some r, b :: rest =>
        if rest.isEmpty then
          let out := match r.seq with
            | some n => y.out.filter (· != n)
            | none => y.out
          let s := s.setPort .debug { y with queue := y.queue.erase r, out := out }
          { s with jtag := { s.jtag with dr := BitVec.ofNat 32 (0x300 + b.toNat), tx := [], cur := none } }
        else { s with jtag := { s.jtag with dr := BitVec.ofNat 32 (0x200 + b.toNat), tx := rest, cur := some r } }
      | _, _ => { s with jtag := { s.jtag with dr := 0 } })

/-- TRST_N low or the Test-Logic-Reset state selects IDCODE (R470). -/
def execTestLogicReset (s : State) : Host.Outcome State Fault Refusal :=
  .next { s with jtag := { s.jtag with ir := 0x01, dr := idcode } }

/-- The instruction register (R470): CMDDATA is BYPASS when DBG_EN was sampled low, as every other value is. -/
def execInstructionRegisterUpdate (ir : Byte) (s : State) : Host.Outcome State Fault Refusal :=
  let dbg := bit (s.reg rGLBSTRAP) 4
  let sel : Byte := if ir == 0x01 || ir == 0x02 || ir == 0x03 || (ir == 0x20 && dbg) then ir else 0xFF
  .next { s with jtag := { s.jtag with ir := sel, dr := if ir == 0x01 then idcode else s.jtag.dr } }

end Sys2Proof.Machine
end

