-- ==== Sys2Proof/Machine/HostRows.lean ====
section
/-! DEFINITION. The host data port (R428-R438): the windows of BAR2, doorbells and channels, slot releases, the port's resets
and its link. -/

namespace Sys2Proof.Machine

namespace State

/-- The PCI Express link is up. -/
def hostUp (s : State) : Bool := bit (s.reg rHPSTAT) 2

/-- The host data port is frozen (R437). -/
def hostFrozen (s : State) : Bool := bit (s.reg rFRZP) 8

/-- Window `n` is enabled (R431): a size, a physical range wholly assigned, no overlap. -/
def winOn (s : State) (n : Nat) : Bool :=
  let lo := s.regF (hostWin n) 18 0 * 2 ^ 21
  let sz := s.regF (hostWin n + 8) 12 0 * 2 ^ 21
  sz != 0 && !(s.winOverlap n) && ((s.inDram lo && s.inDram (lo + sz - 1)) || (s.inBin lo && s.inBin (lo + sz - 1)))

/-- The window that a BAR2 offset lies in (R430). -/
def winAt (s : State) (o : Nat) : Option Nat :=
  (List.range 8).find? fun n =>
    let lo := s.regF (hostWin n + 0x10) 13 0 * 2 ^ 22
    s.winOn n && decide (lo ≤ o) && decide (o < lo + s.regF (hostWin n + 8) 12 0 * 2 ^ 22)

/-- The physical address of the granule of a BAR2 offset in window `n` (R430). -/
def winPa (s : State) (n o : Nat) : Nat :=
  s.regF (hostWin n) 18 0 * 2 ^ 21 + 64 * ((o - s.regF (hostWin n + 0x10) 13 0 * 2 ^ 22) / 128)

/-- The first byte of a request that no window lets through: its BAR2 offset and its window, if one matched (R431). -/
def winBad (s : State) (o n right : Nat) : Option (Nat × Option Nat) :=
  (((List.range n).map fun i => (o + i, s.winAt (o + i))).find? fun x => match x.2 with
    | some k => !(bit (s.reg (hostWin k + 0x18)) right)
    | none => true)

/-- HOST_WINDOW (R437): the port freezes, and the violation is logged. -/
def hostViolation (s : State) (o : Nat) (win : Option Nat) (rid : BitVec 16) (tlp : Nat) : State :=
  let s := s.setRegF rFRZP 8 8 1
  let addr := match win with
    | some k => v64 (s.winPa k o)
    | none => v64 (2 ^ 63 + o)
  let w := match win with
    | some k => b2n (bit (s.reg (hostWin k + 0x18)) 2)
    | none => 2
  s.logViolation 0x11 2 w 0 addr (v64 (fld 16 tlp + rid.toNat))

/-- A tag byte that a window accepts (R431). -/
def tagOk (s : State) (trust : Bool) (t : Byte) : Bool :=
  let w : Word := ⟨t, 0⟩
  if trust then !(s.reservedType w.type)
  else [tyNIL, tyFIX, tyFLO, tyCHAR, tyTRUE, tyUNBOUND, tyRAW].contains w.type && !w.imm && !w.weak

/-- The bytes of a write that fall into one granule of BAR2 (R431): `off` is the first one's place in its 128 bytes. -/
def granuleWrite (s : State) (o : Nat) (bs : List Byte) : State :=
  match s.winAt o with
  | none => s
  | some k =>
    let pa := s.winPa k o
    let off := o % 128
    let trust := bit (s.reg (hostWin k + 0x18)) 3
    let at_ (i : Nat) : Option Byte := if i < off then none else bs[i - off]?
    if ((List.range 72).all fun i => (at_ i).isNone) then s
    else if !((List.range 8).all fun i => match at_ (64 + i) with
        | some t => s.tagOk trust t
        | none => true) then s.incF rHBADTAG 63 0 1
    else
      let (l, s) := s.mcRead pa false
      if l.poison then s.incF rHBADTAG 63 0 1
      else
        let old := packWords l.words
        let new := (List.range 72).map fun i => (at_ i).getD (old.getD i 0)
        (s.modMem fun m => m.putLine (s.store pa / 64) ⟨unpackWords 8 new, false⟩).breakResv (pa / 64) none

/-- A write to BAR2, granule by granule (R431). -/
def bar2Write (s : State) (o : Nat) (bs : List Byte) : Nat → State
  | 0 => s
  | f + 1 =>
    if bs.isEmpty then s
    else
      let n := 128 - o % 128
      bar2Write (s.granuleWrite o (bs.take n)) (o + n) (bs.drop n) f

/-- The bytes of a read of BAR2 and whether a granule of it is poisoned (R430, R431). -/
def bar2Read (s : State) (o : Nat) : Nat → List Byte × Bool × State
  | 0 => ([], false, s)
  | n + 1 =>
    let (b, p, s) := match s.winAt o with
      | some k =>
        let (l, s) := s.mcRead (s.winPa k o) false
        ((packWords l.words).getD (o % 128) 0, l.poison, s)
      | none => ((0 : Byte), false, s)
    let (bs, q, s) := bar2Read s (o + 1) n
    (b :: bs, p || q, s)

/-- A host channel (R433). -/
def chan (s : State) (c : Nat) : Chan := Tbl.get {} s.host.chans c
def setChan (s : State) (c : Nat) (x : Chan) : State :=
  { s with host := { s.host with chans := Tbl.set {} s.host.chans c x } }

/-- The words that a doorbell reads from the module (R433), and whether one of them is poisoned. -/
def doorWords (s : State) (pa : Nat) : Nat → List Word × Bool × State
  | 0 => ([], false, s)
  | n + 1 =>
    let (l, s) := s.mcRead pa false
    let (ws, p, s) := doorWords s (pa + 8) n
    (l.word (pa / 8 % 8) :: ws, l.poison || p, s)

/-- The message of a doorbell (R433): its answer waits for HOST_CHANNEL_ANSWER. A malformed or poisoned word is refused, with a
reason that the manual does not give (log entry 96). -/
def doorSend (s : State) (n c kind : Nat) (ws : List Word) (bad w : Bool) : State :=
  let x := s.chan c
  let wait (s : State) (x : Chan) (r : Nat) : State :=
    s.setChan c { x with busy := true, v := false, answer := some (BitVec.ofNat 32 r) }
  if ws.any fun y => s.keptLocal y && !(s.reservedType y.type) then wait s x (0x00100000 + 10)
  else if bad || ws.any fun y => s.reservedType y.type || s.malformed y then
    let (v, s) := s.freeVal
    wait s x (0x00100000 + v.toNat % 16)
  else
    let m := State.msgHdr s.srcNode c x.next (ws.length + 1) kind
    let s := s.setChan c { x with busy := true, v := false, answer := none, seq := x.next, next := x.next + 1 }
    s.binArrive (Flight.mk n s.srcNode c true x.next (m :: ws) w (.chan c) false)

/-- A doorbell (R433). -/
def doorbell (s : State) (n : Nat) (v : Val) (rid : BitVec 16) : State :=
  let c := bits v 60 56
  let o := bits v 28 0 * 128
  let len := bits v 47 42
  if bits v 63 61 != 0 || bits v 41 29 != 0 || (s.chan c).busy then s.incF rHDBIGN 63 0 1
  else
    match s.winAt o with
    | none => s.hostViolation o none rid 0x60
    | some k =>
      let pa := s.winPa k o
      let last := o + 128 * (len / 8)
      if !(bit (s.reg (hostWin k + 0x18)) 1) then s.hostViolation o (some k) rid 0x60
      else if s.winAt last != some k then s.hostViolation last (s.winAt last) rid 0x60
      else
        let w := bit (s.reg (hostWin k + 0x18)) 2
        let (ws, bad, s) := s.doorWords (pa + 8) len
        s.doorSend n c (bits v 55 48) ws bad w

/-- A slot release reaches a bin (R434). -/
def slotRelease (s : State) (n : Nat) (v : Val) : State :=
  if s.binCore n == 0x7F && 1 ≤ v.toNat && v.toNat ≤ s.binUsed n then
    s.setRegF (binBase n + 0x18) 63 32 (s.binRd n + v.toNat)
  else s.incF rHDBIGN 63 0 1

end State

/-- A host write to BAR2 (R431), its bytes counted (R481): a memory write of four-word header, type code 0x60. -/
def execHostBar2Write (off : BitVec 36) (bs : List Byte) (rid : BitVec 16) (s : State) : Host.Outcome State Fault Refusal :=
  .next (
    if !s.hostUp || s.hostFrozen then s
    else
      match s.winBad off.toNat bs.length 0 with
      | some (o, win) => s.hostViolation o win rid 0x60
      | none => (s.incF (modCtr 3) 63 0 bs.length).bar2Write off.toNat bs (bs.length + 1))

/-- A host read of BAR2 (R431): a memory read of four-word header, type code 0x20; an abort while the port is frozen. -/
def execHostBar2Read (off : BitVec 36) (n : Nat) (rid : BitVec 16) (s : State) : Host.Outcome State Fault Refusal :=
  let abort (s : State) : State := { s with host := { s.host with readOut := none, readEp := false } }
  .next (
    if !s.hostUp then s
    else if s.hostFrozen then abort s
    else
      match s.winBad off.toNat n 1 with
      | some (o, win) => abort (s.hostViolation o win rid 0x20)
      | none =>
        let (bs, p, s) := (s.incF (modCtr 4) 63 0 n).bar2Read off.toNat n
        { s with host := { s.host with readOut := some bs, readEp := p } })

def execHostDoorbell (n : Fin 4096) (v : Val) (rid : BitVec 16) (s : State) : Host.Outcome State Fault Refusal :=
  .next (if !s.hostUp || s.hostFrozen then s else s.doorbell n.val v rid)

/-- A slot release (R434). -/
def execSlotRelease (n : Fin 4096) (v : Val) (s : State) : Host.Outcome State Fault Refusal :=
  .next (if !s.hostUp || s.hostFrozen then s else s.slotRelease n.val v)

/-- A channel's answer (R433): HCHST takes it, and the vector of the channel is sent; an answer that a reset orphaned is
discarded (R438). -/
def execHostChannelAnswer (ch : Fin 32) (s : State) : Host.Outcome State Fault Refusal :=
  .next (
    let x := s.chan ch.val
    match x.answer with
    | some r =>
      (s.setChan ch.val { x with busy := false, v := true, result := r, answer := none }).sendVector ch.val
    | none => s)

/-- A Function Level Reset (R437). -/
def execFunctionLevelReset (s : State) : Host.Outcome State Fault Refusal := .next s.hostFlr

/-- PERST# or a hot reset (R462): as a Function Level Reset, and the link goes down. -/
def execPerst (s : State) : Host.Outcome State Fault Refusal := .next (s.hostFlr.setRegF rHPSTAT 2 2 0)

/-- The link comes up or goes down (R432). -/
def execPciExpressLinkChange (up : Bool) (s : State) : Host.Outcome State Fault Refusal :=
  .next (if s.running then s.setRegF rHPSTAT 2 2 (b2n up) else s)

namespace State

/-- An 8-byte host write to BAR0 (R429): a doorbell or slot release (a violation's log entry then has a free requester ID),
HNOTE, the command window, the MSI-X table. -/
def bar0Write (s : State) (o : Nat) (v : Val) : State :=
  if !s.hostUp || s.hostFrozen then s
  else if o < 0x10000 then
    (if o % 16 == 8 then s.slotRelease (o / 16) v
     else if o % 16 == 0 then (let x := s.freeVal; x.2.doorbell (o / 16) v (x.1.setWidth 16))
     else s)
  else if 0x30000 ≤ o && o < 0x30080 then
    { s with host := { s.host with hnote := Tbl.set (0 : Val) s.host.hnote ((o - 0x30000) / 8) (v64 (bits v 12 0)) } }
  else if o == 0x20010 then s.serveNew (s.hostGo v)
  else if o == 0x20018 then s.hostDone v
  else if 0x21000 ≤ o && o < 0x21000 + 8 * 129 then
    { s with host := { s.host with mbcmd := Tbl.set (0 : Val) s.host.mbcmd ((o - 0x21000) / 8) v } }
  else if 0xF0000 ≤ o && o < 0xF0400 && o % 16 == 8 then
    let k := (o - 0xF0000) / 16
    let s : State := { s with host := { s.host with msix := Tbl.set (1 : Val) s.host.msix k (v >>> 32) } }
    if bit v 32 || Tbl.get 0 s.host.pba k == 0 then s
    else
      let t : State := { s with host := { s.host with pba := Tbl.set 0 s.host.pba k 0 } }
      t.sendVector k
  else s

end State

end Sys2Proof.Machine
end

