-- ==== Sys2Proof/Machine/BushelRows.lean ====
section
/-! DEFINITION. The Bushel (R439-R455): metering, closes, the accounts, calibration and sealing, the audit log, its private
transfers and the mirror. Its time is counted in ticks, which the rows carry. -/

namespace Sys2Proof.Machine

/-- BIDSTR: the ASCII text of R449, padded with zero bytes. -/
def bidstr : List Byte :=
  [0x43, 0x41, 0x45, 0x52, 0x54, 0x49, 0x4B, 0x20, 0x42, 0x55, 0x53, 0x48, 0x45, 0x4C, 0x20, 0x42, 0x4E, 0x2D, 0x39, 0x36,
    0x54, 0x20, 0x4D, 0x52, 0x4F, 0x4D, 0x20, 0x41, 0x31, 0x00, 0x00, 0x00]

/-- Values of the Bushel's registers at power-up (R449), the NV fields and the staged parameters apart. -/
def bshReset (o : Nat) : Val :=
  if o < 0x20 then v64 (leNat ((bidstr.drop o).take 8))
  else if o == 0x20 then v64 (fld 32 1 + 0x7C419E02)
  else if o == 0x28 then v64 (fld 12 1)
  else if 0x80 ≤ o && o < 0xE0 && o % 8 == 0 then
    (if o < 0xC0 then (Config.bushelStaged ((o - 0x80) / 8)).setWidth 64
     else v64 ((Config.bushelStaged ((o - 0x80) / 8)).toNat % 2 ^ 16))
  else 0

/-- One unit q of energy (R440) in the units of a sample's power times a tick: 2^-24 µJ over 2^-32 pW ÷ 12 MHz. -/
def qUnit : Int := 256 * 1000000 * 12000000

namespace Bushel

/-- A register of the Bushel. -/
def reg (b : Bushel) (o : Nat) : Val := Tbl.get (bshReset o) b.regs o
def setReg (b : Bushel) (o : Nat) (v : Val) : Bushel := { b with regs := Tbl.set (bshReset o) b.regs o v }
def regF (b : Bushel) (o hi lo : Nat) : Nat := bits (b.reg o) hi lo
def setRegF (b : Bushel) (o hi lo x : Nat) : Bushel := b.setReg o (setBits (b.reg o) hi lo x)

/-- The SEALED fuse is blown. -/
def isSealed (b : Bushel) : Bool := bit (b.reg 0x28) 15

/-- Value `i` of the active calibration record (R450): GI, OI, GV, OV of each rail, then the weights; unit gains and zero
offsets with no valid record (R441). -/
def param (b : Bushel) (i : Nat) : Val :=
  if bit (b.reg 0x28) 14 then ((b.otp.getD (b.regF 0x28 3 0) []).getD i 0)
  else if 8 ≤ i then (Config.bushelWeight (i - 8)).setWidth 64
  else if i % 2 == 0 then 0x10000 else 0

/-- An audit entry (R449, R451). -/
def auditEntry (b : Bushel) (code data : Nat) : Bushel :=
  let n := b.regF 0x60 31 0
  let o := 0x1000 + 16 * (n % 1024)
  let b := b.setReg o (b.reg 0x40)
  let b := b.setReg (o + 8) (v64 (fld 56 code + fld 32 (b.regF 0x30 15 0) + data % 2 ^ 32))
  b.setRegF 0x60 31 0 (n + 1)

/-- The power of a rail from a sample (R440): the current code signed, the voltage code unsigned; `r` is 0 or 4. -/
def power (b : Bushel) (r : Nat) (x : BitVec 24 × BitVec 24) : Int :=
  let gi : Int := (b.param r).toNat % 2 ^ 32
  let oi := sext 32 (b.param (r + 1)).toNat
  let gv : Int := (b.param (r + 2)).toNat % 2 ^ 32
  let ov := sext 32 (b.param (r + 3)).toNat
  gi * (x.1.toInt - oi) * (gv * ((x.2.toNat : Int) - ov))

/-- Ticks of the open span. -/
def span (b : Bushel) : Nat := b.segs.foldl (fun n x => n + x.1) 0

/-- The first `n` ticks of a run of segments, and the rest. -/
def splitSegs : Nat → List (Nat × Int × Int) → List (Nat × Int × Int) × List (Nat × Int × Int)
  | _, [] => ([], [])
  | n, x :: r =>
    if n == 0 then ([], x :: r)
    else if x.1 ≤ n then
      (let y := splitSegs (n - x.1) r; (x :: y.1, y.2))
    else ([(n, x.2)], (x.1 - n, x.2) :: r)

/-- The energies of a run of segments in q; what is below 1 q is carried on (R440). -/
def energy (b : Bushel) (xs : List (Nat × Int × Int)) : Int × Int × Bushel :=
  let c := xs.foldl (fun (e : Int) x => e + (x.1 : Int) * x.2.1) b.coreRem
  let m := xs.foldl (fun (e : Int) x => e + (x.1 : Int) * x.2.2) b.memRem
  (c / qUnit, m / qUnit, { b with coreRem := c % qUnit, memRem := m % qUnit })

/-- `sat` of R446 on account `j`: the new value, and the Bushel with the account's bit set the first time. -/
def addAccount (b : Bushel) (j : Nat) (n : Nat) : Bushel :=
  let o := 0x100 + 8 * j
  let max := 2 ^ 64 - 1
  let v := min max ((b.reg o).toNat + n)
  let b := b.setReg o (v64 v)
  let sr := if j < 64 then 0x50 else 0x58
  if v == max && !(bit (b.reg sr) (j % 64)) then
    ((b.setRegF sr (j % 64) (j % 64) 1).setRegF 0x28 11 11 1).auditEntry 0x07 j
  else b

end Bushel

namespace State

/-- Energy `x` (in q) goes to account `j` (R445): what is below 1 µJ stays in its remainder. A sum below zero, for which the
manual states no value, leaves the account at a free value. -/
def bshAdd (s : State) (j : Nat) (x : Int) : State :=
  let f : Int := ((Tbl.get 0 s.bsh.frac j : Nat) : Int) + x
  let q := f / 2 ^ 24
  let b := { s.bsh with frac := Tbl.set 0 s.bsh.frac j (f % 2 ^ 24).toNat }
  if q < 0 then
    let (v, s) := s.freeVal
    { s with bsh := b.setReg (0x100 + 8 * j) v }
  else { s with bsh := b.addAccount j q.toNat }

/-- The entries of an accepted frame: account, C, W (R443). -/
abbrev Counts := List (Nat × Nat × Nat)

/-- Weighted counts of account `j` for a rail whose weights stand from value `r` of the record (R445). -/
def weighted (b : Bushel) (r : Nat) (xs : Counts) (j : Nat) : Nat :=
  match xs.find? (·.1 == j) with
  | some (_, c, w) => ((b.param r).toNat % 2 ^ 16) * c + ((b.param (r + 1)).toNat % 2 ^ 16) * w
  | none => 0

/-- The energy of a span divided among the accounts (R445): all of it to account 64 without counts. -/
def divide (b : Bushel) (r : Nat) (xs : Option Counts) (e : Int) : List (Nat × Int) :=
  let as : List (Nat × Nat) := match xs with
    | some l => (List.range 66).map fun j => (j, weighted b r l j)
    | none => []
  let total : Nat := as.foldl (fun (n : Nat) x => n + x.2) 0
  if total == 0 then [(64, e)]
  else
    let shares := as.map fun x => (x.1, e * (x.2 : Int) / (total : Int))
    let given := shares.foldl (fun (n : Int) x => n + x.2) 0
    shares ++ [(64, e - given)]

/-- A run of ticks closes (R445): its energy, divided by the counts of an accepted frame or given to account 64. -/
def closeSpan (s : State) (segs : List (Nat × Int × Int)) (xs : Option Counts) : State :=
  let (ec, em, b) := s.bsh.energy segs
  let s := { s with bsh := b }
  let s := (divide b 8 xs ec).foldl (fun s x => s.bshAdd x.1 x.2) s
  (divide b 10 xs em).foldl (fun s x => s.bshAdd x.1 x.2) s

/-- The record that PROGRAM wrote becomes active when a span has closed (R450, R455). -/
def activate (s : State) : State :=
  match s.bsh.pendRec with
  | some i =>
    let b := { s.bsh with pendRec := none }
    { s with bsh := (b.setRegF 0x28 3 0 i).setRegF 0x28 14 14 1 }
  | none => s

/-- The close of 4,096 ticks with no frame (R445). -/
def detSpan (s : State) : State :=
  let (a, r) := Bushel.splitSegs 4096 s.bsh.segs
  let s := { s with bsh := { s.bsh with segs := r } }
  let s := (s.closeSpan a none).activate
  if bit (s.bsh.reg 0x28) 12 then s else { s with bsh := (s.bsh.setRegF 0x28 12 12 1).auditEntry 0x08 0 }

/-- Ticks pass at the present power (R440); every 4,096 without a close end a span (R445). -/
def bshTicks (s : State) : Nat → Nat → State
  | 0, _ => s
  | f + 1, n =>
    let d := min n (4096 - s.bsh.span)
    let b := s.bsh
    let b := { b with segs := if d == 0 then b.segs else b.segs ++ [(d, b.coreP, b.memP)] }
    let s := { s with bsh := b.setReg 0x40 (b.reg 0x40 + v64 d) }
    if s.bsh.span < 4096 then s else bshTicks s.detSpan f (n - d)

/-- `dt` ticks pass. -/
def bshPass (s : State) (dt : Nat) : State := s.bshTicks (dt / 4096 + 2) dt

end State

/-- The entries of a frame that R444 accepts: its BOUT, PER and counts. -/
def readFrame (bs : List Byte) : Option (Val × Nat × State.Counts) :=
  let n := par bs 9 1
  let body := bs.take (10 + 8 * n)
  let es := (List.range n).map fun i => v64 (par bs (10 + 8 * i) 8)
  let accts := es.map fun e => bits e 63 56
  let sumC := es.foldl (fun k e => k + bits e 55 32) 0
  let sumW := es.foldl (fun k e => k + bits e 23 0) 0
  if bs.length == 14 + 8 * n && par bs (10 + 8 * n) 4 == (crc32 body).toNat && decide (n ≤ 66) && accts.all (· ≤ 65) &&
      accts.eraseDups.length == n && decide (par bs 8 1 ≤ 3) && es.all (fun e => bits e 31 24 == 0) &&
      decide (sumC ≤ 1843200) && decide (sumW ≤ 115200) then
    some (v64 (par bs 0 8), par bs 8 1, es.map fun e => (bits e 63 56, bits e 55 32, bits e 23 0))
  else none

/-- A sample of both rails (R440), `dt` ticks after the last row. -/
def execConverterSample (dt : Nat) (x : BshSample) (s : State) : Host.Outcome State Fault Refusal :=
  .next (
    if !s.bsh.on then s
    else
      let s := s.bshPass dt
      let b := s.bsh
      { s with bsh := { b with coreP := b.power 0 (x.rails.getD 0 (0, 0)), memP := b.power 4 (x.rails.getD 1 (0, 0)) } })

/-- A frame has been received (R444, R445): the span closes; ticks older than 2 × 12 × the frame's period in µs, which is
12 × 2^PER ticks, form a span of their own. -/
def execCountFrameReceive (dt : Nat) (bs : List Byte) (s : State) : Host.Outcome State Fault Refusal :=
  .next (
    let s := { s with frames := if s.frames.head? == some bs then s.frames.drop 1 else s.frames }
    if !s.bsh.on then s
    else
      let s := s.bshPass dt
      let segs := s.bsh.segs
      match readFrame bs with
      | some (b, per, xs) =>
        let (old, new) := Bushel.splitSegs (s.bsh.span - 12 * 2 ^ per) segs
        let s := { s with bsh := { s.bsh with segs := [] } }
        let s := ((s.closeSpan old none).closeSpan new (some xs)).activate
        let k := s.bsh.setRegF 0x48 31 0 (s.bsh.regF 0x48 31 0 + 1)
        let k := if bit (k.reg 0x28) 12 then (k.setRegF 0x28 12 12 0).auditEntry 0x09 b.toNat else k
        { s with bsh := k.setReg 0xF8 b }
      | none =>
        let s := { s with bsh := { s.bsh with segs := [] } }
        let s := (s.closeSpan segs none).activate
        { s with bsh := s.bsh.setRegF 0x48 63 32 (s.bsh.regF 0x48 63 32 + 1) })

/-- Ticks pass with no frame (R445): a span of 4,096 ticks closes to account 64 and sets DET. -/
def execDetClose (dt : Nat) (s : State) : Host.Outcome State Fault Refusal := .next (if s.bsh.on then s.bshPass dt else s)

/-- BSH_TAMPER_N falls, after its debounce (R449, R451). -/
def execTamperFall (s : State) : Host.Outcome State Fault Refusal :=
  .next (
    let s := { s with pins := { s.pins with tamperN := false } }
    if s.bsh.on then { s with bsh := (s.bsh.setRegF 0x28 13 13 1).auditEntry 0x05 0 } else s)

namespace State

/-- A write clears TAMPER (R449, R451). -/
def tamperClear (s : State) : State :=
  if s.bsh.on && bit (s.bsh.reg 0x28) 13 then { s with bsh := (s.bsh.setRegF 0x28 13 13 0).auditEntry 0x06 0 } else s

/-- An attempt to change a metrological parameter (R450): counted, and logged when sealed. -/
def attempt (s : State) (o : Nat) (f : Bushel → Bushel) : State :=
  if !s.bsh.on then s
  else
    let b := s.bsh.setRegF 0x30 15 0 (min 0xFFFF (s.bsh.regF 0x30 15 0 + 1))
    { s with bsh := if b.isSealed then b.auditEntry 0x04 o else f b }

/-- A write of CALPAR or CALWT (R450, R451). -/
def stageParam (s : State) (o : Nat) (v : Val) : State :=
  s.attempt o fun b => (b.setReg o (v64 (if o < 0xC0 then bits v 31 0 else bits v 15 0))).auditEntry 0x0A o

/-- PROGRAM (R450): the staged values become the next record, active from the next close. -/
def programRec (s : State) : State :=
  s.attempt 0xE0 fun b =>
    let n := b.regF 0x28 7 4
    if 8 ≤ n then b
    else
      let vals := (List.range 12).map fun i => b.reg (0x80 + 8 * i)
      let b := { b with otp := b.otp ++ [vals], pendRec := some n }
      (b.setRegF 0x28 7 4 (n + 1)).auditEntry 0x02 n

/-- ARM (R450). -/
def armSeal (s : State) : State := s.attempt 0xE0 fun b => { b with armed := some (b.reg 0x40).toNat }

/-- SEAL within 12,000,000 ticks of ARM, with a valid record (R450). -/
def sealBsh (s : State) : State :=
  s.attempt 0xE0 fun b =>
    let inTime := match b.armed with
      | some t => decide ((b.reg 0x40).toNat ≤ t + 12000000)
      | none => false
    if inTime && bit (b.reg 0x28) 14 then (b.setRegF 0x28 15 15 1).auditEntry 0x03 (b.regF 0x28 3 0) else b

/-- A register write of the Bushel (R448, R449). -/
def bshWrite (s : State) (o : Nat) (v : Val) : State :=
  if o == 0x28 then (if bit v 13 then s.tamperClear else s)
  else if 0x80 ≤ o && o < 0xE0 then s.stageParam o v
  else if o == 0xE0 then
    (match bits v 15 0 with
    | 0x0001 => s.programRec
    | 0x5EA1 => s.armSeal
    | 0x0003 => s.sealBsh
    | _ => s.attempt 0xE0 id)
  else s

end State

def execTamperClear (s : State) : Host.Outcome State Fault Refusal := .next s.tamperClear

/-- A write of a staged parameter (R450); other offsets are no such write. -/
def execStagedParameterWrite (off : BitVec 16) (v : Val) (s : State) : Host.Outcome State Fault Refusal :=
  .next (if 0x80 ≤ off.toNat && off.toNat < 0xE0 && off.toNat % 8 == 0 then s.stageParam off.toNat v else s)

def execProgram (s : State) : Host.Outcome State Fault Refusal := .next s.programRec

def execArm (s : State) : Host.Outcome State Fault Refusal := .next s.armSeal

def execSeal (s : State) : Host.Outcome State Fault Refusal := .next s.sealBsh

/-- A private write to the Bushel (R448). -/
def execBushelPrivateWrite (bs : List Byte) (s : State) : Host.Outcome State Fault Refusal :=
  .next (
    if !s.bsh.on then s
    else
      let a := par bs 0 2
      let len := par bs 2 2
      let n := bs.length - 6
      let crc := par bs (bs.length - 2) 2 == (crc16 0xFFFF (bs.take (bs.length - 2))).toNat
      if bs.length < 6 || !crc then { s with bsh := { s.bsh with protoErr := true } }
      else if n == 0 then
        if 1 ≤ len && len ≤ 1024 then
          { s with bsh := { s.bsh with rdAddr := BitVec.ofNat 16 a, rdLen := BitVec.ofNat 16 len, rdSet := true } }
        else { s with bsh := { s.bsh with protoErr := true } }
      else if a % 8 == 0 && n % 8 == 0 && len == n then
        (List.range (n / 8)).foldl (fun s i => s.bshWrite (a + 8 * i) (v64 (par bs (4 + 8 * i) 8))) s
      else { s with bsh := { s.bsh with protoErr := true } })

namespace State

/-- A byte of the Bushel's register space, and one of the mirror. -/
def bshByte (s : State) (o : Nat) : Byte := BitVec.ofNat 8 ((s.bsh.reg (o / 8 * 8)).toNat / 2 ^ (8 * (o % 8)))
def mirrorByte (s : State) (o : Nat) (x : Byte) : State :=
  if o < 0x10000 then s.setRegF (0x0F800000 + o / 8 * 8) (8 * (o % 8) + 7) (8 * (o % 8)) x.toNat else s

/-- The Reeve copies what a controller has read (R454). -/
def mirrorCopy (s : State) (a : Nat) (xs : List Byte) : State :=
  let s := (List.range xs.length).foldl (fun s i => s.mirrorByte (a + i) (xs.getD i 0)) s
  (s.setReg rMIRBOUT s.bout).setReg rMIRRNG (v64 (fld 16 xs.length + a))

end State

/-- A private read of the Bushel of `n` bytes (R448, R454). -/
def execBushelPrivateRead (n : Nat) (s : State) : Host.Outcome State Fault Refusal :=
  .next (
    if !s.bsh.on then s
    else
      let a := s.bsh.rdAddr.toNat
      let len := s.bsh.rdLen.toNat
      let xs := (List.range len).map fun i => s.bshByte (a + i)
      let crc := crc16 0xFFFF (leBytes 2 a ++ leBytes 2 len ++ xs)
      let out := (xs ++ leBytes 2 crc.toNat ++ List.replicate (n - (len + 2)) 0xFF).take n
      let s := if s.reeve.up && s.bsh.rdSet && len + 2 ≤ n then s.mirrorCopy a xs else s
      { s with bsh := { s.bsh with readOut := out } })

/-- VDD_BSH falls (R452): what is not NV is lost. -/
def execVddBshLoss (s : State) : Host.Outcome State Fault Refusal :=
  .next (
    if !s.bsh.on then { s with pins := { s.pins with vddBsh := false } }
    else
      let b := s.bsh
      let nv : Bushel := { on := false, otp := b.otp, as := b.as, pendRec := b.pendRec }
      let nv := nv.setReg 0x28 (v64 ((b.reg 0x28).toNat % 2 ^ 16 / 2 ^ 14 * 2 ^ 14 + fld 12 1 + b.regF 0x28 7 0))
      let nv := [0x30, 0x38, 0x60].foldl (fun (k : Bushel) o => k.setReg o (b.reg o)) nv
      let audit := b.regs.filter fun (o, _) => 0x1000 ≤ o
      let nv := audit.foldr (fun x (k : Bushel) => k.setReg x.1 x.2) nv
      { s with bsh := nv, pins := { s.pins with vddBsh := false } })

/-- VDD_BSH rises (R449, R452): the last programmed record is active, BEPOCH counts, the power-up is logged. -/
def execBushelPowerUp (tamper : Bool) (s : State) : Host.Outcome State Fault Refusal :=
  .next (
    if s.bsh.on then s
    else
      let b := { s.bsh with on := true }
      let b := match b.pendRec with
        | some i => ({ b with pendRec := none }.setRegF 0x28 3 0 i).setRegF 0x28 14 14 1
        | none => b
      let b := if bit (b.reg 0x28) 14 then
          (List.range 12).foldl (fun (k : Bushel) i => k.setReg (0x80 + 8 * i) (b.param i)) b
        else b
      let e := min 0xFFFF (b.regF 0x38 15 0 + 1)
      let b := (b.setRegF 0x38 15 0 e).auditEntry 0x01 e
      let b := if tamper then (b.setRegF 0x28 13 13 1).auditEntry 0x05 0 else b
      { s with bsh := b, pins := { s.pins with vddBsh := true, tamperN := !tamper } })

end Sys2Proof.Machine
end

