-- ==== Sys2Proof/Machine/PowerRows.lean ====
section
/-! DEFINITION. The temperature sensors (R466, R467): samples, the warning and throttle states, the trip, a sensor that gives
no valid reading. -/

namespace Sys2Proof.Machine

namespace State

/-- Sensor `k` is ignored until cold reset (R466). -/
def sensorBad (s : State) (k : Nat) : Bool := bit (s.reg rTHSTAT) (16 + k)

/-- What one sensor gave at a sample: a valid reading goes to THSENS; a missing one is counted (R466). -/
def sensorTake (s : State) (k : Nat) (x : Option (BitVec 16)) : State :=
  if s.sensorBad k then s
  else
    match x with
    | some t => { s.setReg (rTHSENS k) (v64 t.toNat) with thMiss := Tbl.set 0 s.thMiss k 0 }
    | none => { s with thMiss := Tbl.set 0 s.thMiss k (Tbl.get 0 s.thMiss k + 1) }

/-- The valid readings of a sample, each with its sensor (R466). -/
def validReadings (s : State) (ts : List (Option (BitVec 16))) : List (Nat × Int) :=
  (List.range 13).filterMap fun k =>
    match ts.getD k none with
    | some t => if s.sensorBad k then none else some (k, t.toInt)
    | none => none

/-- A threshold of THCTL in the sensors' units of 0.25 °C. -/
def thresh (s : State) (hi lo : Nat) : Int := 4 * (s.regF rTHCTL hi lo : Int)

/-- The warning state against MAX (R466). -/
def warnStep (s : State) (max : Int) : State :=
  let w := s.thresh 15 8
  if !(bit (s.reg rTHSTAT) 0) && decide (w < max) then (s.setRegF rTHSTAT 0 0 1).logEvent 8 1 0 2 0 0
  else if max < w - 20 then s.setRegF rTHSTAT 0 0 0
  else s

/-- The throttle state against MAX (R466). -/
def throtStep (s : State) (max : Int) : State :=
  let t := s.thresh 23 16
  let on := bit (s.reg rTHSTAT) 1
  if !on && bit (s.reg rTHCTL) 0 && decide (t < max) then (s.setRegF rTHSTAT 1 1 1).logEvent 8 2 0 2 0 0
  else if on && decide (max < t - 20) then (s.setRegF rTHSTAT 1 1 0).logEvent 8 3 0 2 0 0
  else s

/-- The module trips (R467): the links stop, THERMTRIP_N falls, the event is logged. -/
def trip (s : State) : State :=
  let s : State := { s with tripped := true, pins := { s.pins with thermtripN := false } }
  (s.setRegF rGLBBOOT 4 4 1).logEvent 8 4 0 2 0 0

/-- The sensors' readings of one bout (R466, R467). In Reset only the temperature is seen: the module stays there while MAX
is above TRIP − 10 °C. -/
def thermal (s : State) (ts : List (Option (BitVec 16))) : State :=
  let rs := s.validReadings ts
  let max := rs.foldl (fun (m : Option Int) x => some (match m with
    | some y => if y < x.2 then x.2 else y
    | none => x.2)) none
  let s := match max with
    | some m => { s with temp := m }
    | none => s
  if !s.pins.resetN || s.pins.railBad || s.hotHold then
    let h := s.hotHold && s.tooHot
    { s with hotHold := h, pins := { s.pins with thermtripN := s.pins.thermtripN || (s.hotHold && !h) } }
  else
    let s := (List.range 13).foldl (fun s k => s.sensorTake k (ts.getD k none)) s
    match max with
    | none => s
    | some m =>
      let s := s.setRegF rTHSTAT 63 48 (BitVec.ofInt 16 m).toNat
      let s := (s.warnStep m).throtStep m
      if !s.tripped && rs.any (fun x => decide (s.thresh 31 24 < x.2)) then s.trip else s

end State

/-- The thirteen sensors are read (R466). -/
def execThermalSample (ts : List (Option (BitVec 16))) (s : State) : Host.Outcome State Fault Refusal := .next (s.thermal ts)

/-- A sensor has given no valid reading for 16 bouts (R466). -/
def execSensorInvalid (n : Fin 13) (s : State) : Host.Outcome State Fault Refusal :=
  .next (
    if s.sensorBad n.val || Tbl.get 0 s.thMiss n.val < 16 then s
    else (s.setRegF rTHSTAT (16 + n.val) (16 + n.val) 1).logEvent 8 5 n.val 2 0 0)

end Sys2Proof.Machine
end

