-- ==== Sys2Proof/Machine/DebugRows.lean ====
section
/-! DEFINITION. The rows of debug (R472, R473), of the event counters (R480), the time-outs of commands (R424, R473) and the
plain register write (R4). -/

namespace Sys2Proof.Machine

namespace State

/-- The commands that wait go on after a change (R410, R411). -/
def reeveWake (s : State) : State := reeveGo (s.reeve.todo.length + 1) s

/-- The instructions of a STEP have been counted out: the core halts again (R473). -/
def stepDone (s : State) (c : Nat) : State :=
  if bit (s.reg (dbgBase c)) 1 && (s.core c).stepLeft == 0 && !(s.core c).inEsc then (s.haltCore c 2 0).reeveWake else s

/-- A halt request is taken at a boundary of the core (R472). -/
def haltTake (s : State) (c : Nat) : State := if s.haltable c then (s.haltCore c 1 0).reeveWake else s

/-- An event counter that stands at its last value counts once more (R480). -/
def counterWrap (s : State) (c n : Nat) : State :=
  let o := dbgBase c + 0x200 + 8 * n
  if bit (s.reg o) 12 && s.regF (o + 0x40) 47 0 == 2 ^ 48 - 1 && !(s.oddBound c) then
    (s.setRegF (o + 0x40) 47 0 0).setOvf c n
  else s

/-- The oldest FABSEND gives up (R424). -/
def fabsendExpire (s : State) : State :=
  match s.reeve.fabsend with
  | [] => s
  | f :: r =>
    let s : State := { s with reeve := { s.reeve with fabsend := r } }
    s.complete f.port 0x53 f.seq stNOT_READY []

/-- A HALT that its core has not taken within 100 µs is withdrawn (R473). -/
def haltExpire (s : State) (c : Nat) : State :=
  match s.reeve.exec with
  | some (.halt p seq d) =>
    if d == s.rep c && !(s.core d).halted then
      let s := s.modCore d fun x => { x with stopReq := false }
      let s : State := { s with reeve := { s.reeve with exec := none } }
      (s.complete p 0x80 seq stNOT_READY []).reeveWake
    else s
  | _ => s

end State

def execStepComplete (c : Fin 96) (s : State) : Host.Outcome State Fault Refusal := .next (s.stepDone c.val)

def execDebugHaltTaken (c : Fin 96) (s : State) : Host.Outcome State Fault Refusal := .next (s.haltTake c.val)

def execCounterOverflow (c : Fin 96) (n : Fin 8) (s : State) : Host.Outcome State Fault Refusal := .next (s.counterWrap c.val n.val)

def execFabsendTimeout (s : State) : Host.Outcome State Fault Refusal := .next s.fabsendExpire

def execHaltTimeout (c : Fin 96) (s : State) : Host.Outcome State Fault Refusal := .next (s.haltExpire c.val)

/-- A register write (R4, R17): of the module register space by the Reeve or a bank, of BAR0 by the host (R429). Accesses are of
8 bytes, aligned. -/
def execRegisterWrite (r : RegSrc) (off : BitVec 32) (v : Val) (s : State) : Host.Outcome State Fault Refusal :=
  .next (
    match r with
    | .host => s.bar0Write off.toNat v
    | _ => if off.toNat % 8 == 0 && off.toNat < 0x10000000 then s.regCmd r off.toNat v else s)

end Sys2Proof.Machine
end

