-- ==== Sys2Proof/Machine/Boundary.lean ====
section
/-! DEFINITION. The bout boundary (R13): the bout number and everything that happens with it, and the external boundary
reference (R377). -/

namespace Sys2Proof.Machine

/-- The count frame of a bout (R443): its number, its period, the entries, the CRC-32; numbers are little-endian. -/
def countFrame (bout : Val) (period : Nat) (xs : Tbl Activity) : List Byte :=
  let es := (xs.filter fun (_, x) => x.c % 2 ^ 24 != 0 || x.w % 2 ^ 24 != 0).map fun (j, x) =>
    v64 (fld 56 j + fld 32 (x.c % 2 ^ 24) + x.w % 2 ^ 24)
  let b := leBytes 8 bout.toNat ++ [BitVec.ofNat 8 (period % 4), BitVec.ofNat 8 es.length] ++ es.flatMap fun e => leBytes 8 e.toNat
  b ++ leBytes 4 (crc32 b).toNat

namespace State

/-- The compute die sends the counts of the bout that ends (R443). -/
def sendFrame (s : State) : State :=
  { s with frames := s.frames ++ [countFrame s.bout (s.regF rBTCTL 1 0) s.act], act := [] }

/-- The ECHO of each link's next marker (R353): symbol times from the last marker's arrival in the bout that ends to the
boundary, the bout's correction of R378 included. -/
def markEchoes (s : State) : State :=
  (List.range 6).foldl (fun s l => s.modLink l fun x => { x with
    markIn := false, markEcho := if x.markIn then (s.periodUI + s.fab.btAdj - (x.markTa % s.periodUI : Nat)).toNat else 0 }) s

/-- The bout number advances, or jumps forward to a parent's (R379); a new period takes effect (R380). -/
def advanceBout (s : State) : State :=
  let next := s.bout + 1
  let jump := decide (next.toNat < s.fab.btJumpTo.toNat)
  let s := if jump then (s.setReg rBTNUM s.fab.btJumpTo).incF rBTJUMP 63 0 1 else s.setReg rBTNUM next
  let s := match s.fab.nextPeriod with
    | some p => s.setRegF rBTCTL 1 0 p.toNat
    | none => s
  let s : State := { s with fab := { s.fab with nextPeriod := none, btAdj := 0 } }
  if bit (s.reg rBTCTL) 5 then { s with pins := { s.pins with boutout := s.pins.boutout + 1 } } else s

/-- Every bank of a core is Free. -/
def allFree (s : State) (c : Nat) : Bool :=
  (s.bank c 0).st == 0 && (s.bank c 1).st == 0 && (s.bank c 2).st == 0 && (s.bank c 3).st == 0

/-- Boundaries at which and since which every bank of each core has been Free: one more than the whole bouts of R205; the
count stops at one more than the most that PGDLY names. -/
def countFree (s : State) : State :=
  (List.range 96).foldl (fun s c => s.modCore c fun x =>
    { x with freeBouts := if s.allFree c then min 256 (x.freeBouts + 1) else 0 }) s

/-- What the fabric unit counts in bouts: its DISC interval, elections, JOIN records and addresses (R365-R367), the route
cache (R371), gaps in order (R374) and transactions (R393). -/
def fabricAge (s : State) : State :=
  let f := s.fab
  let joins := f.joins.map fun (l, j) => (l, j.map fun y => (y.1, y.2 + 1))
  let addr (a : AddrRec) : AddrRec := if a.held then { a with age := a.age + 1 } else { a with blocked := a.blocked - 1 }
  let addrs := (f.addrs.map fun (n, a) => (n, addr a)).filter fun (_, a) => a != ({} : AddrRec)
  let gap (e : SrcOrd) : SrcOrd := { e with
    gapReq := if e.heldReq.isEmpty then 0 else e.gapReq + 1, gapMsg := if e.heldMsg.isEmpty then 0 else e.gapMsg + 1 }
  let src := (f.src.map fun (n, e) => (n, gap e)).filter fun (_, e) => e != ({} : SrcOrd)
  let ott := f.ott.map fun (i, e) => (i, if e.busy && e.packet.isSome then { e with bouts := e.bouts + 1 } else e)
  { s with fab := { f with
    joins := joins, addrs := addrs, src := src, ott := ott, cache := f.cache.map fun x => (x.1, x.2.1, x.2.2 + 1),
    lastDisc := f.lastDisc + 1, elect := if f.bestSelf && s.discovers then f.elect + 1 else 0, joinAge := f.joinAge - 1 } }

/-- A transmitter owes a marker for the new bout (R353) and, while Up, a credit flit in each bout (R352). -/
def linkBoundary (s : State) (l : Nat) : State :=
  let up := s.linkState l == 5
  let mk := bit (s.reg (linkBase l)) 7
  let s := if mk && !up then s.incF (linkBase l + 0x50) 63 0 1 else s
  if up then s.modLink l fun x => { x with markDue := mk, credDue := true } else s

/-- A lease pass begins at each boundary whose number is a multiple of 4,096 (R394); one that goes on after 1,024 bouts ends. -/
def leaseBoundary (s : State) (w : Bool) : State :=
  let l := s.lease w
  if s.fabUp && s.bout.toNat % 4096 == 0 && s.lsCount w != 0 then s.setLease w { on := true }
  else if !l.on then s
  else if 1024 ≤ l.bouts + 1 then s.setLease w {}
  else s.setLease w { l with bouts := l.bouts + 1 }

/-- The units that stop while the module is Tripped (R467). -/
def unitsBoundary (s : State) : State :=
  let s := ((s.serviceBoundary).gcBoundary false).gcBoundary true
  let s := s.liveBins.foldl (fun s n => s.renewCredit n) s.idleSources
  let s := (List.range 6).foldl (fun s l => s.linkBoundary l) s.elect.fabricAge
  let s := (s.leaseBoundary false).leaseBoundary true
  (List.range 6).foldl (fun s l => s.drainRx l) s

/-- The boundary between two bouts (R13). -/
def boundary (s : State) : State :=
  if !s.running then s
  else
    let s : State := { s.sendFrame.markEchoes with bounds := s.bounds + 1 }
    let s := s.advanceBout
    let s := if s.tripped then s else s.unitsBoundary.countFree
    (s.scriptAge.scriptSlice).reeveWake

end State

def execBoutBoundary (s : State) : Host.Outcome State Fault Refusal := .next s.boundary

/-- A rising edge of BOUTREF, `dev` core cycles from the expected boundary (R377): at a root that takes it, within 1 % of the
period, it is the boundary; otherwise it is ignored and counted. SRC = 0 and 3 take BOUTREF, 2 does not. -/
def execBoutrefEdge (dev : Int) (s : State) : Host.Outcome State Fault Refusal :=
  .next (
    if !s.running || !s.isRoot || s.regF rBTCTL 3 2 == 2 then s
    else if s.period < 100 * dev.natAbs then s.incF rBTSTEP 31 0 1
    else s.boundary)

end Sys2Proof.Machine
end

