-- ==== Sys2Proof/Machine/Dispatch.lean ====
section
/-! DEFINITION. The effect of each command on everything but the queue: one arm per row of the opcode table. -/

namespace Sys2Proof.Machine

def exec (i : Instr) (s : State) : Host.Outcome State Fault Refusal :=
  match i with
  | .addF c f => Sys2Proof.Machine.execAddF c f s
  | .subF c f => Sys2Proof.Machine.execSubF c f s
  | .addR c f => Sys2Proof.Machine.execAddR c f s
  | .subR c f => Sys2Proof.Machine.execSubR c f s
  | .and c f => Sys2Proof.Machine.execAnd c f s
  | .or c f => Sys2Proof.Machine.execOr c f s
  | .xor c f => Sys2Proof.Machine.execXor c f s
  | .andn c f => Sys2Proof.Machine.execAndn c f s
  | .sll c f => Sys2Proof.Machine.execSll c f s
  | .srl c f => Sys2Proof.Machine.execSrl c f s
  | .sra c f => Sys2Proof.Machine.execSra c f s
  | .addFl c f => Sys2Proof.Machine.execAddFl c f s
  | .subFl c f => Sys2Proof.Machine.execSubFl c f s
  | .mulFl c f => Sys2Proof.Machine.execMulFl c f s
  | .divFl c f => Sys2Proof.Machine.execDivFl c f s
  | .sqrtFl c f => Sys2Proof.Machine.execSqrtFl c f s
  | .negFl c f => Sys2Proof.Machine.execNegFl c f s
  | .absFl c f => Sys2Proof.Machine.execAbsFl c f s
  | .cvtFl c f => Sys2Proof.Machine.execCvtFl c f s
  | .cvtFx c f => Sys2Proof.Machine.execCvtFx c f s
  | .cmpEq c f => Sys2Proof.Machine.execCmpEq c f s
  | .cmpNe c f => Sys2Proof.Machine.execCmpNe c f s
  | .cmpLt c f => Sys2Proof.Machine.execCmpLt c f s
  | .cmpLe c f => Sys2Proof.Machine.execCmpLe c f s
  | .cmpLtu c f => Sys2Proof.Machine.execCmpLtu c f s
  | .cmpLeu c f => Sys2Proof.Machine.execCmpLeu c f s
  | .cmpTy c f => Sys2Proof.Machine.execCmpTy c f s
  | .cmpFeq c f => Sys2Proof.Machine.execCmpFeq c f s
  | .cmpFlt c f => Sys2Proof.Machine.execCmpFlt c f s
  | .cmpFle c f => Sys2Proof.Machine.execCmpFle c f s
  | .cmpFun c f => Sys2Proof.Machine.execCmpFun c f s
  | .ba c f => Sys2Proof.Machine.execBa c f s
  | .bnil c f => Sys2Proof.Machine.execBnil c f s
  | .bnn c f => Sys2Proof.Machine.execBnn c f s
  | .bz c f => Sys2Proof.Machine.execBz c f s
  | .bnz c f => Sys2Proof.Machine.execBnz c f s
  | .bltz c f => Sys2Proof.Machine.execBltz c f s
  | .bgez c f => Sys2Proof.Machine.execBgez c f s
  | .mov c f => Sys2Proof.Machine.execMov c f s
  | .settagR c f => Sys2Proof.Machine.execSettagR c f s
  | .tagof c f => Sys2Proof.Machine.execTagof c f s
  | .movi c f => Sys2Proof.Machine.execMovi c f s
  | .settag c f => Sys2Proof.Machine.execSettag c f s
  | .mulS c f => Sys2Proof.Machine.execMulS c f s
  | .mulU c f => Sys2Proof.Machine.execMulU c f s
  | .divS c f => Sys2Proof.Machine.execDivS c f s
  | .divU c f => Sys2Proof.Machine.execDivU c f s
  | .muldivResultWrite c b => Sys2Proof.Machine.execMuldivResultWrite c b s
  | .ldW c f => Sys2Proof.Machine.execLdW c f s
  | .ldB c f => Sys2Proof.Machine.execLdB c f s
  | .ldBu c f => Sys2Proof.Machine.execLdBu c f s
  | .ldH c f => Sys2Proof.Machine.execLdH c f s
  | .ldHu c f => Sys2Proof.Machine.execLdHu c f s
  | .ldS c f => Sys2Proof.Machine.execLdS c f s
  | .ldSu c f => Sys2Proof.Machine.execLdSu c f s
  | .stW c f => Sys2Proof.Machine.execStW c f s
  | .stB c f => Sys2Proof.Machine.execStB c f s
  | .stH c f => Sys2Proof.Machine.execStH c f s
  | .stS c f => Sys2Proof.Machine.execStS c f s
  | .stm c f => Sys2Proof.Machine.execStm c f s
  | .ldm c f => Sys2Proof.Machine.execLdm c f s
  | .pref c f => Sys2Proof.Machine.execPref c f s
  | .ldrv c f => Sys2Proof.Machine.execLdrv c f s
  | .stcn c f => Sys2Proof.Machine.execStcn c f s
  | .cas c f => Sys2Proof.Machine.execCas c f s
  | .swap c f => Sys2Proof.Machine.execSwap c f s
  | .fadd c f => Sys2Proof.Machine.execFadd c f s
  | .reservationTimeout c b => Sys2Proof.Machine.execReservationTimeout c b s
  | .call c f => Sys2Proof.Machine.execCall c f s
  | .jmpl c f => Sys2Proof.Machine.execJmpl c f s
  | .ret c f => Sys2Proof.Machine.execRet c f s
  | .callg c f => Sys2Proof.Machine.execCallg c f s
  | .retg c f => Sys2Proof.Machine.execRetg c f s
  | .rfe c f => Sys2Proof.Machine.execRfe c f s
  | .escret c f => Sys2Proof.Machine.execEscret c f s
  | .save c f => Sys2Proof.Machine.execSave c f s
  | .restore c f => Sys2Proof.Machine.execRestore c f s
  | .mfs c f => Sys2Proof.Machine.execMfs c f s
  | .mts c f => Sys2Proof.Machine.execMts c f s
  | .mfb c f => Sys2Proof.Machine.execMfb c f s
  | .mtb c f => Sys2Proof.Machine.execMtb c f s
  | .barCO c f => Sys2Proof.Machine.execBarCO c f s
  | .barCE c f => Sys2Proof.Machine.execBarCE c f s
  | .barKO c f => Sys2Proof.Machine.execBarKO c f s
  | .barKE c f => Sys2Proof.Machine.execBarKE c f s
  | .barDO c f => Sys2Proof.Machine.execBarDO c f s
  | .barDE c f => Sys2Proof.Machine.execBarDE c f s
  | .barSO c f => Sys2Proof.Machine.execBarSO c f s
  | .barSE c f => Sys2Proof.Machine.execBarSE c f s
  | .barrierRelease c b => Sys2Proof.Machine.execBarrierRelease c b s
  | .cwbA c f => Sys2Proof.Machine.execCwbA c f s
  | .cinvA c f => Sys2Proof.Machine.execCinvA c f s
  | .clockA c f => Sys2Proof.Machine.execClockA c f s
  | .cunlkA c f => Sys2Proof.Machine.execCunlkA c f s
  | .tlbinvAll c f => Sys2Proof.Machine.execTlbinvAll c f s
  | .tlbinvAsid c f => Sys2Proof.Machine.execTlbinvAsid c f s
  | .tlbinvVa c f => Sys2Proof.Machine.execTlbinvVa c f s
  | .tlblock c f => Sys2Proof.Machine.execTlblock c f s
  | .tlbunlk c f => Sys2Proof.Machine.execTlbunlk c f s
  | .tlbinvReceive a id => Sys2Proof.Machine.execTlbinvReceive a id s
  | .tlbinvAcknowledged id => Sys2Proof.Machine.execTlbinvAcknowledged id s
  | .bsend c f => Sys2Proof.Machine.execBsend c f s
  | .brecv c f => Sys2Proof.Machine.execBrecv c f s
  | .bpeek c f => Sys2Proof.Machine.execBpeek c f s
  | .bcred c f => Sys2Proof.Machine.execBcred c f s
  | .yokeOn c f => Sys2Proof.Machine.execYokeOn c f s
  | .yokeOff c f => Sys2Proof.Machine.execYokeOff c f s
  | .waite c f => Sys2Proof.Machine.execWaite c f s
  | .async c f => Sys2Proof.Machine.execAsync c f s
  | .dispatchsync c f => Sys2Proof.Machine.execDispatchsync c f s
  | .plotsync c f => Sys2Proof.Machine.execPlotsync c f s
  | .wcs c f => Sys2Proof.Machine.execWcs c f s
  | .saveh c f => Sys2Proof.Machine.execSaveh c f s
  | .loadh c f => Sys2Proof.Machine.execLoadh c f s
  | .addG c f => Sys2Proof.Machine.execAddG c f s
  | .subG c f => Sys2Proof.Machine.execSubG c f s
  | .mulG c f => Sys2Proof.Machine.execMulG c f s
  | .divG c f => Sys2Proof.Machine.execDivG c f s
  | .quoG c f => Sys2Proof.Machine.execQuoG c f s
  | .remG c f => Sys2Proof.Machine.execRemG c f s
  | .negG c f => Sys2Proof.Machine.execNegG c f s
  | .absG c f => Sys2Proof.Machine.execAbsG c f s
  | .addiG c f => Sys2Proof.Machine.execAddiG c f s
  | .floatG c f => Sys2Proof.Machine.execFloatG c f s
  | .truncG c f => Sys2Proof.Machine.execTruncG c f s
  | .zeropG c f => Sys2Proof.Machine.execZeropG c f s
  | .numpG c f => Sys2Proof.Machine.execNumpG c f s
  | .cmpGEq c f => Sys2Proof.Machine.execCmpGEq c f s
  | .cmpGLt c f => Sys2Proof.Machine.execCmpGLt c f s
  | .cmpGLe c f => Sys2Proof.Machine.execCmpGLe c f s
  | .cmpGEql c f => Sys2Proof.Machine.execCmpGEql c f s
  | .escrd c f => Sys2Proof.Machine.execEscrd c f s
  | .escwr c f => Sys2Proof.Machine.execEscwr c f s
  | .car c f => Sys2Proof.Machine.execCar c f s
  | .cdr c f => Sys2Proof.Machine.execCdr c f s
  | .setcar c f => Sys2Proof.Machine.execSetcar c f s
  | .setcdr c f => Sys2Proof.Machine.execSetcdr c f s
  | .cons c f => Sys2Proof.Machine.execCons c f s
  | .alloc c f => Sys2Proof.Machine.execAlloc c f s
  | .allocI c f => Sys2Proof.Machine.execAllocI c f s
  | .vref c f => Sys2Proof.Machine.execVref c f s
  | .vset c f => Sys2Proof.Machine.execVset c f s
  | .vlen c f => Sys2Proof.Machine.execVlen c f s
  | .assq c f => Sys2Proof.Machine.execAssq c f s
  | .memq c f => Sys2Proof.Machine.execMemq c f s
  | .nthcdr c f => Sys2Proof.Machine.execNthcdr c f s
  | .len c f => Sys2Proof.Machine.execLen c f s
  | .copyw c f => Sys2Proof.Machine.execCopyw c f s
  | .scant c f => Sys2Proof.Machine.execScant c f s
  | .allotmentInstruction c m fn f => Sys2Proof.Machine.execAllotmentInstruction c m fn f s
  | .csParityRepair k st adr w c => Sys2Proof.Machine.execCsParityRepair k st adr w c s
  | .csBoundExceeded c => Sys2Proof.Machine.execCsBoundExceeded c s
  | .trapEntry c => Sys2Proof.Machine.execTrapEntry c s
  | .impreciseExceptionDue c => Sys2Proof.Machine.execImpreciseExceptionDue c s
  | .harrowDecision c => Sys2Proof.Machine.execHarrowDecision c s
  | .quantumExpiry c => Sys2Proof.Machine.execQuantumExpiry c s
  | .btmrExpiry c b => Sys2Proof.Machine.execBtmrExpiry c b s
  | .stcmpMatch c w => Sys2Proof.Machine.execStcmpMatch c w s
  | .bankStart r c b => Sys2Proof.Machine.execBankStart r c b s
  | .bankPark r c b => Sys2Proof.Machine.execBankPark r c b s
  | .bankUnpark r c b => Sys2Proof.Machine.execBankUnpark r c b s
  | .bankRelease r c b => Sys2Proof.Machine.execBankRelease r c b s
  | .bpcWrite r c b v => Sys2Proof.Machine.execBpcWrite r c b v s
  | .icsigWrite r c w v => Sys2Proof.Machine.execIcsigWrite r c w v s
  | .dbellWrite r c w v => Sys2Proof.Machine.execDbellWrite r c w v s
  | .corePowerGate c => Sys2Proof.Machine.execCorePowerGate c s
  | .corePowerRestore c => Sys2Proof.Machine.execCorePowerRestore c s
  | .storePerform c => Sys2Proof.Machine.execStorePerform c s
  | .rspopRead c b => Sys2Proof.Machine.execRspopRead c b s
  | .winnowerAssist k => Sys2Proof.Machine.execWinnowerAssist k s
  | .assistReply c b => Sys2Proof.Machine.execAssistReply c b s
  | .satblogTake c b => Sys2Proof.Machine.execSatblogTake c b s
  | .goWrite r w v => Sys2Proof.Machine.execGoWrite r w v s
  | .abortWrite r w v => Sys2Proof.Machine.execAbortWrite r w v s
  | .destqPush r k w v => Sys2Proof.Machine.execDestqPush r k w v s
  | .wctlEnWrite r k v => Sys2Proof.Machine.execWctlEnWrite r k v s
  | .boutBoundary => Sys2Proof.Machine.execBoutBoundary s
  | .registerScan c b => Sys2Proof.Machine.execRegisterScan c b s
  | .registerFlip c b => Sys2Proof.Machine.execRegisterFlip c b s
  | .winnowerMark k w => Sys2Proof.Machine.execWinnowerMark k w s
  | .winnowerCopy k w => Sys2Proof.Machine.execWinnowerCopy k w s
  | .winnowerFixup k w => Sys2Proof.Machine.execWinnowerFixup k w s
  | .bitmapClearDone w => Sys2Proof.Machine.execBitmapClearDone w s
  | .homeRd a g w => Sys2Proof.Machine.execHomeRd a g w s
  | .homeRo a g w => Sys2Proof.Machine.execHomeRo a g w s
  | .homeUpg a g w => Sys2Proof.Machine.execHomeUpg a g w s
  | .homeWb a g => Sys2Proof.Machine.execHomeWb a g s
  | .homeEvn a g => Sys2Proof.Machine.execHomeEvn a g s
  | .homeCwb a g w => Sys2Proof.Machine.execHomeCwb a g w s
  | .homeCinv a g w => Sys2Proof.Machine.execHomeCinv a g w s
  | .homeUc a g w wr => Sys2Proof.Machine.execHomeUc a g w wr s
  | .homeCmp a g => Sys2Proof.Machine.execHomeCmp a g s
  | .probeAcknowledge a g => Sys2Proof.Machine.execProbeAcknowledge a g s
  | .prd a g => Sys2Proof.Machine.execPrd a g s
  | .pro a g => Sys2Proof.Machine.execPro a g s
  | .pinv a g => Sys2Proof.Machine.execPinv a g s
  | .pcln a g => Sys2Proof.Machine.execPcln a g s
  | .fdem a g => Sys2Proof.Machine.execFdem a g s
  | .agentFill a g => Sys2Proof.Machine.execAgentFill a g s
  | .wback a g => Sys2Proof.Machine.execWback a g s
  | .agentEviction a g => Sys2Proof.Machine.execAgentEviction a g s
  | .requestRetry a g => Sys2Proof.Machine.execRequestRetry a g s
  | .directoryRebuild k set => Sys2Proof.Machine.execDirectoryRebuild k set s
  | .patrolScrub ch => Sys2Proof.Machine.execPatrolScrub ch s
  | .yokeTick p => Sys2Proof.Machine.execYokeTick p s
  | .clrdbgWrite r p v => Sys2Proof.Machine.execClrdbgWrite r p v s
  | .msg l p => Sys2Proof.Machine.execMsg l p s
  | .sourceEntryExpiry k src => Sys2Proof.Machine.execSourceEntryExpiry k src s
  | .activate r n => Sys2Proof.Machine.execActivate r n s
  | .binDisable r n => Sys2Proof.Machine.execBinDisable r n s
  | .binForce r n => Sys2Proof.Machine.execBinForce r n s
  | .binRelease r n => Sys2Proof.Machine.execBinRelease r n s
  | .clear r n => Sys2Proof.Machine.execClear r n s
  | .binDrainComplete n => Sys2Proof.Machine.execBinDrainComplete n s
  | .linkEnable l => Sys2Proof.Machine.execLinkEnable l s
  | .linkDisable l => Sys2Proof.Machine.execLinkDisable l s
  | .linkForce l => Sys2Proof.Machine.execLinkForce l s
  | .linkRetrain l => Sys2Proof.Machine.execLinkRetrain l s
  | .linkDetect l => Sys2Proof.Machine.execLinkDetect l s
  | .trainComplete l pre => Sys2Proof.Machine.execTrainComplete l pre s
  | .alignComplete l lanes => Sys2Proof.Machine.execAlignComplete l lanes s
  | .ctrlParameters l f => Sys2Proof.Machine.execCtrlParameters l f s
  | .linkAutoRetry l => Sys2Proof.Machine.execLinkAutoRetry l s
  | .laneLockLoss l => Sys2Proof.Machine.execLaneLockLoss l s
  | .retrainLock l => Sys2Proof.Machine.execRetrainLock l s
  | .retrainTimeout l => Sys2Proof.Machine.execRetrainTimeout l s
  | .sequencedFlitReceive l f rs => Sys2Proof.Machine.execSequencedFlitReceive l f rs s
  | .nakr l f => Sys2Proof.Machine.execNakr l f s
  | .cred l f => Sys2Proof.Machine.execCred l f s
  | .mark l f ta => Sys2Proof.Machine.execMark l f ta s
  | .ctrlResume l f => Sys2Proof.Machine.execCtrlResume l f s
  | .ctrlQuiesce l f => Sys2Proof.Machine.execCtrlQuiesce l f s
  | .ctrlRetrainRequest l f => Sys2Proof.Machine.execCtrlRetrainRequest l f s
  | .replayTimeout l => Sys2Proof.Machine.execReplayTimeout l s
  | .nakrRepeat l => Sys2Proof.Machine.execNakrRepeat l s
  | .disableTimeout l => Sys2Proof.Machine.execDisableTimeout l s
  | .rload l p => Sys2Proof.Machine.execRload l p s
  | .rcell l p => Sys2Proof.Machine.execRcell l p s
  | .rstore l p => Sys2Proof.Machine.execRstore l p s
  | .rcas l p => Sys2Proof.Machine.execRcas l p s
  | .rswap l p => Sys2Proof.Machine.execRswap l p s
  | .rfadd l p => Sys2Proof.Machine.execRfadd l p s
  | .lease l p => Sys2Proof.Machine.execLease l p s
  | .rdata l p => Sys2Proof.Machine.execRdata l p s
  | .rack l p => Sys2Proof.Machine.execRack l p s
  | .rerr l p => Sys2Proof.Machine.execRerr l p s
  | .bans l p => Sys2Proof.Machine.execBans l p s
  | .fnak l p => Sys2Proof.Machine.execFnak l p s
  | .disc l p => Sys2Proof.Machine.execDisc l p s
  | .join l p => Sys2Proof.Machine.execJoin l p s
  | .assign l p => Sys2Proof.Machine.execAssign l p s
  | .rtupd l p => Sys2Proof.Machine.execRtupd l p s
  | .resync l p => Sys2Proof.Machine.execResync l p s
  | .rsack l p => Sys2Proof.Machine.execRsack l p s
  | .epoch l p => Sys2Proof.Machine.execEpoch l p s
  | .rcmd l p => Sys2Proof.Machine.execRcmd l p s
  | .rrpl l p => Sys2Proof.Machine.execRrpl l p s
  | .nboot l p => Sys2Proof.Machine.execNboot l p s
  | .discPeriodic => Sys2Proof.Machine.execDiscPeriodic s
  | .rootElection => Sys2Proof.Machine.execRootElection s
  | .joinRefresh => Sys2Proof.Machine.execJoinRefresh s
  | .nodeExpiry node => Sys2Proof.Machine.execNodeExpiry node s
  | .joinRecordLapse l => Sys2Proof.Machine.execJoinRecordLapse l s
  | .reorderTimeout node vc => Sys2Proof.Machine.execReorderTimeout node vc s
  | .resend node vc oseq => Sys2Proof.Machine.execResend node vc oseq s
  | .routeCacheExpiry node => Sys2Proof.Machine.execRouteCacheExpiry node s
  | .flushWrite r v => Sys2Proof.Machine.execFlushWrite r v s
  | .boutrefEdge dev => Sys2Proof.Machine.execBoutrefEdge dev s
  | .transactionTimeout ix => Sys2Proof.Machine.execTransactionTimeout ix s
  | .expreqWrite r w v => Sys2Proof.Machine.execExpreqWrite r w v s
  | .epochwGo r w v => Sys2Proof.Machine.execEpochwGo r w v s
  | .leasePass w => Sys2Proof.Machine.execLeasePass w s
  | .exportSweep w => Sys2Proof.Machine.execExportSweep w s
  | .mbgoWrite r w v => Sys2Proof.Machine.execMbgoWrite r w v s
  | .mbdoneWrite r w v => Sys2Proof.Machine.execMbdoneWrite r w v s
  | .privateWrite bs => Sys2Proof.Machine.execPrivateWrite bs s
  | .privateRead => Sys2Proof.Machine.execPrivateRead s
  | .enec bs => Sys2Proof.Machine.execEnec bs s
  | .disec bs => Sys2Proof.Machine.execDisec bs s
  | .entas n => Sys2Proof.Machine.execEntas n s
  | .rstdaa => Sys2Proof.Machine.execRstdaa s
  | .entdaa t adr => Sys2Proof.Machine.execEntdaa t adr s
  | .setmwl n => Sys2Proof.Machine.execSetmwl n s
  | .setmrl n ibi => Sys2Proof.Machine.execSetmrl n ibi s
  | .enthdr0 => Sys2Proof.Machine.execEnthdr0 s
  | .setaasa => Sys2Proof.Machine.execSetaasa s
  | .rstact t df => Sys2Proof.Machine.execRstact t df s
  | .setdasa t adr => Sys2Proof.Machine.execSetdasa t adr s
  | .setnewda t adr => Sys2Proof.Machine.execSetnewda t adr s
  | .getmwl => Sys2Proof.Machine.execGetmwl s
  | .getmrl => Sys2Proof.Machine.execGetmrl s
  | .getpid t => Sys2Proof.Machine.execGetpid t s
  | .getbcr t => Sys2Proof.Machine.execGetbcr t s
  | .getdcr t => Sys2Proof.Machine.execGetdcr t s
  | .getstatus t => Sys2Proof.Machine.execGetstatus t s
  | .getmxds => Sys2Proof.Machine.execGetmxds s
  | .getcaps => Sys2Proof.Machine.execGetcaps s
  | .nop p seq => Sys2Proof.Machine.execNop p seq s
  | .sync p seq => Sys2Proof.Machine.execSync p seq s
  | .evread p seq frm mx => Sys2Proof.Machine.execEvread p seq frm mx s
  | .evack p seq upto => Sys2Proof.Machine.execEvack p seq upto s
  | .evmask p seq mask => Sys2Proof.Machine.execEvmask p seq mask s
  | .ident p seq => Sys2Proof.Machine.execIdent p seq s
  | .status p seq => Sys2Proof.Machine.execStatus p seq s
  | .vlogrd p seq frm n => Sys2Proof.Machine.execVlogrd p seq frm n s
  | .regrd p seq adr n => Sys2Proof.Machine.execRegrd p seq adr n s
  | .regwr p seq adr vs => Sys2Proof.Machine.execRegwr p seq adr vs s
  | .cfgset p seq key v => Sys2Proof.Machine.execCfgset p seq key v s
  | .bankwld p seq core bank wld => Sys2Proof.Machine.execBankwld p seq core bank wld s
  | .fence p seq space gran owner => Sys2Proof.Machine.execFence p seq space gran owner s
  | .plotown p seq plot own => Sys2Proof.Machine.execPlotown p seq plot own s
  | .share p seq sh owner => Sys2Proof.Machine.execShare p seq sh owner s
  | .linkcls p seq link cls wld up lo hi => Sys2Proof.Machine.execLinkcls p seq link cls wld up lo hi s
  | .binwld p seq bin wld => Sys2Proof.Machine.execBinwld p seq bin wld s
  | .scrload p seq slot code => Sys2Proof.Machine.execScrload p seq slot code s
  | .scrctlStart p seq slot => Sys2Proof.Machine.execScrctlStart p seq slot s
  | .scrctlStop p seq slot => Sys2Proof.Machine.execScrctlStop p seq slot s
  | .scrstat p seq slot => Sys2Proof.Machine.execScrstat p seq slot s
  | .scriptWaitExpiry slot => Sys2Proof.Machine.execScriptWaitExpiry slot s
  | .scriptBudgetFault slot => Sys2Proof.Machine.execScriptBudgetFault slot s
  | .memrd p seq adr n => Sys2Proof.Machine.execMemrd p seq adr n s
  | .memwr p seq adr ws => Sys2Proof.Machine.execMemwr p seq adr ws s
  | .memfill p seq adr count w => Sys2Proof.Machine.execMemfill p seq adr count w s
  | .aload p seq kind index n vs => Sys2Proof.Machine.execAload p seq kind index n vs s
  | .imgload p seq off bs => Sys2Proof.Machine.execImgload p seq off bs s
  | .imgapplyPatch p seq => Sys2Proof.Machine.execImgapplyPatch p seq s
  | .imgapplyFlash p seq => Sys2Proof.Machine.execImgapplyFlash p seq s
  | .imgapplyRun p seq => Sys2Proof.Machine.execImgapplyRun p seq s
  | .crelease p seq => Sys2Proof.Machine.execCrelease p seq s
  | .bankcmd p seq core bank cmd pc => Sys2Proof.Machine.execBankcmd p seq core bank cmd pc s
  | .freeze p seq kind index => Sys2Proof.Machine.execFreeze p seq kind index s
  | .thaw p seq kind index => Sys2Proof.Machine.execThaw p seq kind index s
  | .reset p seq kind index => Sys2Proof.Machine.execReset p seq kind index s
  | .warmrst p seq => Sys2Proof.Machine.execWarmrst p seq s
  | .doorbell p seq core wld => Sys2Proof.Machine.execDoorbell p seq core wld s
  | .wnwctl p seq cl en => Sys2Proof.Machine.execWnwctl p seq cl en s
  | .linkcmd p seq link cmd => Sys2Proof.Machine.execLinkcmd p seq link cmd s
  | .routeflush p seq => Sys2Proof.Machine.execRouteflush p seq s
  | .epochall p seq wld => Sys2Proof.Machine.execEpochall p seq wld s
  | .fabsend p seq node pkt => Sys2Proof.Machine.execFabsend p seq node pkt s
  | .bincmd p seq bin cmd => Sys2Proof.Machine.execBincmd p seq bin cmd s
  | .binstat p seq bin => Sys2Proof.Machine.execBinstat p seq bin s
  | .binprog p seq engine index ws => Sys2Proof.Machine.execBinprog p seq engine index ws s
  | .mtrrd p seq off n => Sys2Proof.Machine.execMtrrd p seq off n s
  | .halt p seq core => Sys2Proof.Machine.execHalt p seq core s
  | .resume p seq core => Sys2Proof.Machine.execResume p seq core s
  | .step p seq core count flags => Sys2Proof.Machine.execStep p seq core count flags s
  | .stepComplete c => Sys2Proof.Machine.execStepComplete c s
  | .brkset p seq core slot v0 v1 => Sys2Proof.Machine.execBrkset p seq core slot v0 v1 s
  | .brkclr p seq core slot => Sys2Proof.Machine.execBrkclr p seq core slot s
  | .staterd p seq core bank sel frm n => Sys2Proof.Machine.execStaterd p seq core bank sel frm n s
  | .statewr p seq core bank sel frm ws => Sys2Proof.Machine.execStatewr p seq core bank sel frm ws s
  | .tracerd p seq cl frm n => Sys2Proof.Machine.execTracerd p seq cl frm n s
  | .debugHaltTaken c => Sys2Proof.Machine.execDebugHaltTaken c s
  | .cmddataUpdate d => Sys2Proof.Machine.execCmddataUpdate d s
  | .cmddataCapture => Sys2Proof.Machine.execCmddataCapture s
  | .testLogicReset => Sys2Proof.Machine.execTestLogicReset s
  | .counterOverflow c n => Sys2Proof.Machine.execCounterOverflow c n s
  | .hostBar2Write off bs rid => Sys2Proof.Machine.execHostBar2Write off bs rid s
  | .hostBar2Read off n rid => Sys2Proof.Machine.execHostBar2Read off n rid s
  | .hostDoorbell n v rid => Sys2Proof.Machine.execHostDoorbell n v rid s
  | .slotRelease n v => Sys2Proof.Machine.execSlotRelease n v s
  | .hostChannelAnswer ch => Sys2Proof.Machine.execHostChannelAnswer ch s
  | .functionLevelReset => Sys2Proof.Machine.execFunctionLevelReset s
  | .perst => Sys2Proof.Machine.execPerst s
  | .bushelPowerUp tamper => Sys2Proof.Machine.execBushelPowerUp tamper s
  | .converterSample dt x => Sys2Proof.Machine.execConverterSample dt x s
  | .countFrameReceive dt bs => Sys2Proof.Machine.execCountFrameReceive dt bs s
  | .detClose dt => Sys2Proof.Machine.execDetClose dt s
  | .tamperFall => Sys2Proof.Machine.execTamperFall s
  | .tamperClear => Sys2Proof.Machine.execTamperClear s
  | .stagedParameterWrite off v => Sys2Proof.Machine.execStagedParameterWrite off v s
  | .program => Sys2Proof.Machine.execProgram s
  | .arm => Sys2Proof.Machine.execArm s
  | .seal => Sys2Proof.Machine.execSeal s
  | .bushelPrivateWrite bs => Sys2Proof.Machine.execBushelPrivateWrite bs s
  | .bushelPrivateRead n => Sys2Proof.Machine.execBushelPrivateRead n s
  | .resetNRise boot ias dbg => Sys2Proof.Machine.execResetNRise boot ias dbg s
  | .resetNFall => Sys2Proof.Machine.execResetNFall s
  | .pwrgoodFall => Sys2Proof.Machine.execPwrgoodFall s
  | .railFault => Sys2Proof.Machine.execRailFault s
  | .microcodeLoadComplete => Sys2Proof.Machine.execMicrocodeLoadComplete s
  | .memoryTrainingComplete chok => Sys2Proof.Machine.execMemoryTrainingComplete chok s
  | .dramInitComplete => Sys2Proof.Machine.execDramInitComplete s
  | .firmwareRun => Sys2Proof.Machine.execFirmwareRun s
  | .nbootRequest => Sys2Proof.Machine.execNbootRequest s
  | .thermalSample ts => Sys2Proof.Machine.execThermalSample ts s
  | .sensorInvalid n => Sys2Proof.Machine.execSensorInvalid n s
  | .registerWrite r off v => Sys2Proof.Machine.execRegisterWrite r off v s
  | .fabsendTimeout => Sys2Proof.Machine.execFabsendTimeout s
  | .haltTimeout c => Sys2Proof.Machine.execHaltTimeout c s
  | .flitSlot l => Sys2Proof.Machine.execFlitSlot l s
  | .hardwarePrefetch c g => Sys2Proof.Machine.execHardwarePrefetch c g s
  | .vddBshLoss => Sys2Proof.Machine.execVddBshLoss s
  | .pciExpressLinkChange up => Sys2Proof.Machine.execPciExpressLinkChange up s
  | .instructionRegisterUpdate ir => Sys2Proof.Machine.execInstructionRegisterUpdate ir s
  | .reeveBootRomStart => Sys2Proof.Machine.execReeveBootRomStart s

end Sys2Proof.Machine
end

