-- ==== Sys2Proof/Machine/Idle.lean ====
section
/-! DEFINITION. What a step on an empty queue does: one cycle of the core clock passes (R12), with what the units do in it
without a command: the timers (R202, R203), the cycle counters (R442, R479), and work that waited for its turn. -/

namespace Sys2Proof.Machine

namespace State

/-- The account to which a powered core's cycle counts (R442). -/
def cycleAccount (s : State) (c : Nat) : Nat :=
  let d := s.rep c
  let m := s.pairMode (pairOf c)
  if (s.core d).frozen || m == 1 || m == 3 then 64
  else
    match (s.core d).run with
    | some b =>
      let t := (s.bank d b).tenant
      if bit t 7 then bits t 5 0 else 64
    | none => 65

/-- A cycle of core `c` counts for its account. -/
def countCycle (s : State) (c : Nat) : State :=
  let a := s.cycleAccount c
  let x := Tbl.get {} s.act a
  { s with act := Tbl.set {} s.act a { x with c := x.c + 1 } }

/-- A bank timer counts down (R203). -/
def tickTimer (s : State) (c : Nat) (b : Fin 4) : State :=
  let t := (s.bank c b).btmr
  if t == 0 then s
  else if t == 1 then s.btmrExpire c b
  else s.modBank c b fun k => { k with btmr := t - 1 }

/-- What counts cycles while the core is powered (R442, R479). -/
def tickCounts (s : State) (c : Nat) : State :=
  if (s.core c).pg then s
  else
    let s := s.countCycle c
    if s.oddBound c then s
    else
      let s := s.countEvent c 1 1
      if (s.core c).run.isNone then s.countEvent c 16 1 else s

/-- One cycle of a core: counters, results of MUL and DIV (R61), bank timers, except while it is frozen or in debug halt,
and supervisor timers, powered or not (R202, R203, R205). -/
def tickCore (s : State) (c : Nat) : State :=
  if !s.coreEnabled c then s
  else
    let s := s.tickCounts c
    if s.oddBound c then s
    else
      let s := [(0 : Fin 4), 1, 2, 3].foldl (fun s b => if (s.bank c b).pend.isEmpty then s else s.settleMD c b) s
      let s := if (s.core c).frozen || (s.core c).halted then s
        else [(0 : Fin 4), 1, 2, 3].foldl (fun s b => s.tickTimer c b) s
      (s.stcmpMatch c 0).stcmpMatch c 1

/-- The yoke ticks of a cycle in which TIMEC reaches a multiple of 256 (R66, R300). -/
def tickPairs (s : State) : State :=
  if s.cycle % 256 == 0 then (List.range 48).foldl (fun s p => s.yokeTick p) s else s

/-- Work that waited: packets in receive buffers and those held for order, messages in the bin engines, packets at the Reeve, its
commands. -/
def resume (s : State) : State :=
  let s := (List.range 6).foldl (fun s l => if (s.link l).rxHeld.isEmpty && (s.link l).rxOld.isEmpty then s else s.drainRx l) s
  let s := s.fab.src.foldl (fun s x => (s.drainHeld x.1 false 16).drainHeld x.1 true 16) s
  ((s.serveFlights s.bins.flight.length).serveInbox).reeveWake

end State

/-- One cycle passes; nothing does while the module is held in Reset. -/
def idle (s : State) : State :=
  if !s.running then s
  else
    let s : State := { s with cycle := s.cycle + 1 }
    if s.tripped then (s.serveInbox).reeveWake else ((List.range 96).foldl (fun s c => s.tickCore c) s).tickPairs.resume

end Sys2Proof.Machine
end

