-- ==== Sys2Proof/Safety.lean ====
section
/-! DEFINITION. What a safe run of the block is, and the words that claims about instructions are stated in: an
instruction that is issued and fetched, a source operand that its checks accept, and the registers that a step leaves
alone. -/

namespace Sys2Proof.Safety

open Sys2Proof.Machine

/-- The block can run `n` steps from a state without a stop. -/
def runs : Nat → State → Prop
  | 0, _ => True
  | n + 1, s => ∃ t, step s = .next t ∧ runs n t

/-- Bank `b` of core `c` issues the instruction encoded as `e`: the core may issue, no item of R174 comes first, the
breakpoint check, the fetch and the checks of orders 1 and 2 (R74) end without a fault and leave `s1`, the core's pair is
not yoked (R302), and the key's dispatch entry does not send it to microcode (R207). -/
def Issued (s : State) (c : Nat) (b : Fin 4) (e : Enc) (s1 : State) : Prop :=
  s.issuable c = some b ∧ s.pendingItem c b = none ∧ prelude (s.ctx c b) e s = .ok () s1 ∧
    s.pairMode (pairOf c) ≠ 2 ∧ kindOne s1 c (keyOf e.word) = none

/-- Bank `b` of core `c` issues the instruction encoded as `e` as `Issued` says, but its key's dispatch entry sends it to
microcode at `entry`, with rd among its sources where `rdSrc` says so (R206, R207). -/
def Routed (s : State) (c : Nat) (b : Fin 4) (e : Enc) (s1 : State) (entry : Nat) (rdSrc : Bool) : Prop :=
  s.issuable c = some b ∧ s.pendingItem c b = none ∧ prelude (s.ctx c b) e s = .ok () s1 ∧
    s.pairMode (pairOf c) ≠ 2 ∧ kindOne s1 c (keyOf e.word) = some (entry, rdSrc)

/-- The type attribute of the word's type is not failing parity in the copy of the core's cluster (R219). -/
abbrev AttrSound (s : State) (c : Nat) (w : Word) : Prop := (clusterOf c, 3, w.type) ∉ s.csBad

/-- The specifier names a register of bank `b` that holds `w`, and `w` passes the check of R26. -/
abbrev Src (s : State) (c : Nat) (b : Fin 4) (spec : Nat) (w : Word) : Prop :=
  s.rdReg c b spec = w ∧ s.badWord w = none ∧ AttrSound s c w

/-- Issued by bank `b` of core `c` as `e`, the instruction `i` writes `r` to the register of the specifier `rd` and
goes on to the next instruction; nothing else follows the fetch but retirement. -/
def Writes (s s1 : State) (c : Nat) (b : Fin 4) (i : Instr) (e : Enc) (rd : BitVec 5) (r : Word) : Prop :=
  Issued s c b e s1 → exec i s = .next ((s1.wrReg c b rd.toNat r).retire c b .fall)

/-- No data breakpoint can match: breakpoints do not apply now (R476), or neither of the core's two is enabled (R475). -/
abbrev DataQuiet (s : State) (c : Nat) (b : Fin 4) : Prop :=
  brkOff s (s.ctx c b) = true ∨
    (bit (s.reg (dbgBase c + 0x148)) 63 = false ∧ bit (s.reg (dbgBase c + 0x158)) 63 = false)

/-- No instruction breakpoint matches: breakpoints do not apply now (R476), or none is at the program counter (R475). -/
abbrev CodeQuiet (s : State) (c : Nat) (b : Fin 4) : Prop :=
  brkOff s (s.ctx c b) = true ∨ s.instrBrk c (s.bank c b).status.wld (s.bank c b).pc = none

/-- A local access that meets nothing on its way: translation is off, the bank is at the supervisor level, the address is
aligned and lies in assigned DRAM, the core holds the granule for its world in its L2 and in an enabled way of its L1D,
neither its line nor the first-level copy has an upset, and no data breakpoint can match. -/
abbrev Hit (s : State) (c : Nat) (b : Fin 4) (ea : Val) (size : Nat) (x : AgentLine) : Prop :=
  bit (s.bank c b).ttb 0 = false ∧ (s.bank c b).status.lvl = true ∧ ea.toNat % size = 0 ∧
  s.inDram ea.toNat = true ∧ ea.toNat < 0x0C00000000 ∧ s.agLine c (ea.toNat / 64) = some x ∧
  x.world = (s.bank c b).status.wld ∧ s.mem.upL2.contains (c, ea.toNat / 64) = false ∧
  s.mem.upL1.contains (c, ea.toNat / 64, 1) = false ∧
  ((s.core c).l1d.any fun l => l.gran == ea.toNat / 64 && l.world == (s.bank c b).status.wld &&
    (s.l1Ways c false).contains l.way) = true ∧
  DataQuiet s c b ∧ x.line.poison = false

/-- A local store of a word that meets nothing on its way: translation is off, the bank is at the supervisor level, the
address is aligned and lies in assigned DRAM of the bank's world, its granule is not poisoned, and no data breakpoint can
match. -/
abbrev Clear (s : State) (c : Nat) (b : Fin 4) (ea : Val) : Prop :=
  bit (s.bank c b).ttb 0 = false ∧ (s.bank c b).status.lvl = true ∧ ea.toNat % 8 = 0 ∧
  s.inDram ea.toNat = true ∧ ea.toNat < 0x0C00000000 ∧ s.fenceOwner ea.toNat = wn (s.bank c b).status.wld ∧
  s.peekPoison ea.toNat .cacheable = false ∧ DataQuiet s c b

/-- The store-buffer entry of a whole-word store of `w` at `ea`, made by bank `b` of core `c` at the supervisor level with
translation off (R245). -/
def storeEntry (s : State) (c : Nat) (b : Fin 4) (ea : Val) (w : Word) : SBEntry :=
  { bank := b, world := (s.bank c b).status.wld, pa := ea.toNat, mt := .cacheable, data := .word w,
    mrk := (s.bank c b).status.mrk, pc := (s.bank c b).pc, snap := true, pre := false, sup := true, tr := none }

end Sys2Proof.Safety
end

