-- ==== Sys2Proof/Certificates/Slice0/Obligations.lean ====
section
/-! DEFINITION. The statements for the provers. Each says what commands answer a next state, what that state holds, and
what it leaves alone; the docstring names the rules of the manual that it formalises. -/

open Sys2Proof Sys2Proof.Machine Sys2Proof.Safety

/-- One command per step: at a state whose queue begins with a command, a step is what exec of that command does with
the rest of the queue. The queue is the model's own; the choice is in log entry 1. -/
def Obligations.StepRunsTheFrontCommand : Prop :=
  ∀ (s : State) (i : Instr) (rest : List Instr), s.pending = i :: rest → step s = exec i { s with pending := rest }

/-- R48, R53, R60, R134, R164, R192, R339, R379: what the machine holds after cold reset. R45, R192: what holds at
reset: memory has its one form and lists nothing, no command waits, no bank is anything but Free. The form is the
model's own (log entry 2). -/
def Obligations.ResetState : Prop :=
  (let s := State.reset
   (∀ c b, (∀ i, Tbl.get nilWord (s.bank c b).gr i = nilWord) ∧ (s.bank c b).st = 0 ∧ (s.core c).run = none ∧
     (s.bank c b).status.wld = false ∧ (s.bank c b).status.cwp = 0 ∧ (s.bank c b).twp = 7 ∧
     (s.bank c b).ph = 0 ∧ (s.bank c b).pl = 0 ∧ (s.bank c b).qt = 0 ∧ (s.bank c b).rm = 0) ∧
   (∀ p, p < 32768 → s.plotState p = 0 ∧ bit (s.reg (rPLOT p)) 8 = false ∧ s.plotGen p = 0 ∧
     bit (s.reg (rPLOT p)) 9 = false ∧ bit (s.reg (rPLOT p)) 31 = false ∧ s.plotWnw p = p % 12) ∧
   (∀ i, i < 6 → s.linkState i = 0) ∧ s.bout = 0) ∧
  (State.reset.mem.wf = true ∧ State.reset.mem.vals = [] ∧ State.reset.mem.tags = [] ∧ State.reset.pending = [] ∧
     State.reset.banks = [])

/-- R29, R250, R241, R72, R206: the conditions on the state alone under which an instruction is issued with nothing
having happened yet: the core may issue, no item is due, the bank is not in a wait, no breakpoint matches, translation
is off at the supervisor level, the core holds the granule of the program counter for its world, the half of the word
there that the program counter names is the instruction's, the word is tagged RAW, and the dispatch entry admits the
instruction and leaves it to its own operation. A word that is not tagged RAW is ILLEGAL. R69, R72, R74, R194, R207:
the checks of orders 1 and 2 of the word that is fetched: an entry without V is ILLEGAL; the command of another word
changes nothing (the model's, log entry 3); a reserved field is ILLEGAL, and after it an entry with S at user level is
PRIV. A bank that goes on after a wait fetches nothing. -/
def Obligations.FetchAndDispatch : Prop :=
  (∀ (s : State) (c : Nat) (b : Fin 4) (e : Enc) (x : AgentLine),
     let k := s.bank c b
     let g := k.pc.toNat / 64
     let w := x.line.word (k.pc.toNat / 8 % 8)
     let off := 8 * (k.pc.toNat % 8)
     CodeQuiet s c b → bit k.ttb 0 = false → k.status.lvl = true → k.pc.toNat < 0x0C00000000 →
     s.inDram k.pc.toNat = true → s.agLine c g = some x → x.world = k.status.wld →
     s.mem.upL2.contains (c, g) = false → s.mem.upL1.contains (c, g, 0) = false →
     ((s.core c).l1i.any fun l => l.gran == g && l.world == k.status.wld && (s.l1Ways c true).contains l.way) = true →
     x.line.poison = false →
     (w.tag = 0x16 → bits w.val (off + 31) off = e.word → s.issuable c = some b → s.pendingItem c b = none →
       goesOn k = none → (12 + c, 2, keyOf e.word) ∉ s.csBad → s.dentV c (keyOf e.word) = true → e.resv = false →
       s.pairMode (pairOf c) ≠ 2 → kindOne s c (keyOf e.word) = none → Issued s c b e s) ∧
     (w.tag = 0x16 → fetch (s.ctx c b) s = .ok (bits w.val (off + 31) off) s) ∧
     (w.tag ≠ 0x16 → fetch (s.ctx c b) s = .error (.trap 0x01 k.pc) s)) ∧
  (∀ (s s1 s2 : State) (cx : Ctx) (e : Enc) (n : Nat) (body : Ctx → M Flow),
     let t := s2.csCheck cx.c cx.w (12 + cx.c) 2 (keyOf n)
     (goesOn (s.bank cx.c cx.b) = none → instrBreak cx s = .ok () s1 → fetch cx s1 = .ok n s2 →
       (t.dentV cx.c (keyOf n) = false → prelude cx e s = .error (.badInsn n) t ∧
         finish s cx.c cx.b e.word (insn cx e body s) =
           .next ((t.takeFault cx.c cx.b 0x01 0 n false false).getD (s.tsbMiss cx.c cx.b))) ∧
       (t.dentV cx.c (keyOf n) = true → n ≠ e.word → prelude cx e s = .error .stall t) ∧
       (t.dentV cx.c (keyOf n) = true → n = e.word →
         (e.resv = true → prelude cx e s = .error (.trap 0x01 0) t) ∧
         (e.resv = false → t.dentS cx.c (keyOf n) = true → cx.lvl = false →
           prelude cx e s = .error (.trap 0x02 0) t) ∧
         (e.resv = false → (t.dentS cx.c (keyOf n) = true → cx.lvl = true) → prelude cx e s = .ok () t))) ∧
     (goesOn (s.bank cx.c cx.b) = some e.word → prelude cx e s = .ok () s))

/-- R95, R176: what retirement does to the bank: the program counter moves on by 4, to the target, or to the address
RFE restored; the count of R176 runs while IMPP is set; nothing of another bank, of memory or of a general register
changes. R174, R176, R197: a due item is taken before the instruction at the boundary: by TRAP_ENTRY, by
IMPRECISE_EXCEPTION_DUE when it is the imprecise exception, and by any instruction of the core instead of running; a
core with nothing to take is left as it is. -/
def Obligations.RetirementAndBoundaryItems : Prop :=
  (∀ (s : State) (c : Nat) (b : Fin 4) (v : Val),
     let k := s.bank c b
     let n (pc : Val) (free : Bool) : Bank := { k with
       pc := pc, impCount := if k.status.impp then k.impCount + 1 else k.impCount, wait := none, micro := none,
       exempt := free }
     (s.retire c b .fall).bank c b = n (pcOf (k.pc + 4)) false ∧
     (s.retire c b (.jump v)).bank c b = n (pcOf v) false ∧
     (s.retire c b (.resume v)).bank c b = n (pcOf v) true ∧
     (s.retire c b .again).bank c b = { k with wait := none } ∧ s.retire c b .hold = s ∧
     ∀ f, (s.retire c b f).mem = s.mem ∧ (∀ c' b', (c', b') ≠ (c, b) → (s.retire c b f).bank c' b' = s.bank c' b') ∧
       (∀ c', (s.retire c b f).core c' = s.core c' ∨
         (c' = c ∧ (s.retire c b f).core c' = { (s.core c) with stepLeft := (s.core c).stepLeft - 1 }))) ∧
  (∀ (s t : State) (c : Fin 96) (b : Fin 4) (it : Item) (e : Enc) (body : Ctx → M Flow),
     (s.issuable c = some b → s.pendingItem c b = some it → s.takeItem c b it = some t →
       exec (.trapEntry c) s = .next t ∧ runInstr s c e body = .next t ∧
       (it = .imprecise → exec (.impreciseExceptionDue c) s = .next t) ∧
       (it ≠ .imprecise → exec (.impreciseExceptionDue c) s = .next s)) ∧
     (s.issuable c = some b → s.pendingItem c b = none →
       exec (.trapEntry c) s = .next s ∧ exec (.impreciseExceptionDue c) s = .next s) ∧
     (s.issuable c = none →
       exec (.trapEntry c) s = .next s ∧ exec (.impreciseExceptionDue c) s = .next s ∧ runInstr s c e body = .next s) ∧
     (∀ u, (u.core c).frozen = false →
       let w := (s.bank c b).status.wld
       (∀ v, s.trapEntry c b 0x11 0 v 0 false = some u →
         s.takeItem c b (.mchk v) = some ((u.clearItem c w (.mchk v)).stepped c)) ∧
       (s.trapEntry c b 0x05 0 (v64 (s.bank c b).impReason) 0 true = some u →
         s.takeItem c b .imprecise = some (u.stepped c)) ∧
       (∀ l kd d, s.trapEntry c b 0x12 l (v64 (kd * 2 ^ 12 + d)) 0 false = some u →
         s.takeItem c b (.int l kd d) = some ((u.clearItem c w (.int l kd d)).stepped c))))

/-- R78: ADD and SUB on FIX and RAW operands, both forms; a FIX result outside the range is the subject of
`Obligations.ArithmeticConditions`. R78: AND, OR, XOR, ANDN on two words of one tag, and the shifts by the low six
bits of the last operand. -/
def Obligations.FixArithmeticAndLogic : Prop :=
  (∀ (s s1 : State) (c : Fin 96) (b : Fin 4) (f : TForm) (g : IForm) (x y : Val),
     (Src s1 c b f.rs1.toNat (fixWord x) → Src s1 c b f.rs2.toNat (fixWord y) →
       (inFix (x.toInt + y.toInt) →
         Writes s s1 c b (.addF c (.t f)) (aEnc 0x01 0x02 0 (.t f) 12) f.rd (fixWord (x + y))) ∧
       (inFix (x.toInt - y.toInt) →
         Writes s s1 c b (.subF c (.t f)) (aEnc 0x01 0x02 1 (.t f) 12) f.rd (fixWord (x - y)))) ∧
     (Src s1 c b g.rs1.toNat (fixWord x) →
       (inFix (x.toInt + g.imm.toInt) →
         Writes s s1 c b (.addF c (.i g)) (aEnc 0x01 0x02 0 (.i g) 12) g.rd (fixWord (x + g.imm.signExtend 64))) ∧
       (inFix (x.toInt - g.imm.toInt) →
         Writes s s1 c b (.subF c (.i g)) (aEnc 0x01 0x02 1 (.i g) 12) g.rd (fixWord (x - g.imm.signExtend 64)))) ∧
     (Src s1 c b f.rs1.toNat (rawWord x) → Src s1 c b f.rs2.toNat (rawWord y) →
       Writes s s1 c b (.addR c (.t f)) (aEnc 0x01 0x02 2 (.t f) 12) f.rd (rawWord (x + y)) ∧
       Writes s s1 c b (.subR c (.t f)) (aEnc 0x01 0x02 3 (.t f) 12) f.rd (rawWord (x - y))) ∧
     (Src s1 c b g.rs1.toNat (rawWord x) →
       Writes s s1 c b (.addR c (.i g)) (aEnc 0x01 0x02 2 (.i g) 12) g.rd (rawWord (x + g.imm.signExtend 64)) ∧
       Writes s s1 c b (.subR c (.i g)) (aEnc 0x01 0x02 3 (.i g) 12) g.rd (rawWord (x - g.imm.signExtend 64)))) ∧
  (∀ (s s1 : State) (c : Fin 96) (b : Fin 4) (f : TForm) (g : IForm) (t u : Nat) (x y : Val),
     (t = tyFIX ∨ t = tyRAW) → (u = tyFIX ∨ u = tyRAW) →
     (Src s1 c b f.rs1.toNat (mkWord t x) → Src s1 c b f.rs2.toNat (mkWord t y) →
       Writes s s1 c b (.and c (.t f)) (aEnc 0x01 0x02 4 (.t f) 12) f.rd (mkWord t (x &&& y)) ∧
       Writes s s1 c b (.or c (.t f)) (aEnc 0x01 0x02 5 (.t f) 12) f.rd (mkWord t (x ||| y)) ∧
       Writes s s1 c b (.xor c (.t f)) (aEnc 0x01 0x02 6 (.t f) 12) f.rd (mkWord t (x ^^^ y)) ∧
       Writes s s1 c b (.andn c (.t f)) (aEnc 0x01 0x02 7 (.t f) 12) f.rd (mkWord t (x &&& ~~~y))) ∧
     (Src s1 c b g.rs1.toNat (mkWord t x) →
       Writes s s1 c b (.and c (.i g)) (aEnc 0x01 0x02 4 (.i g) 12) g.rd (mkWord t (x &&& g.imm.setWidth 64)) ∧
       Writes s s1 c b (.or c (.i g)) (aEnc 0x01 0x02 5 (.i g) 12) g.rd (mkWord t (x ||| g.imm.setWidth 64)) ∧
       Writes s s1 c b (.xor c (.i g)) (aEnc 0x01 0x02 6 (.i g) 12) g.rd (mkWord t (x ^^^ g.imm.setWidth 64)) ∧
       Writes s s1 c b (.andn c (.i g)) (aEnc 0x01 0x02 7 (.i g) 12) g.rd (mkWord t (x &&& ~~~(g.imm.setWidth 64)))) ∧
     (Src s1 c b f.rs1.toNat (mkWord t x) → Src s1 c b f.rs2.toNat (mkWord u y) →
       Writes s s1 c b (.sll c (.t f)) (aEnc 0x01 0x02 8 (.t f) 6) f.rd (mkWord t (x <<< (y.toNat % 64))) ∧
       Writes s s1 c b (.srl c (.t f)) (aEnc 0x01 0x02 9 (.t f) 6) f.rd (mkWord t (x >>> (y.toNat % 64))) ∧
       Writes s s1 c b (.sra c (.t f)) (aEnc 0x01 0x02 10 (.t f) 6) f.rd (mkWord t (x.sshiftRight (y.toNat % 64)))) ∧
     (Src s1 c b g.rs1.toNat (mkWord t x) →
       Writes s s1 c b (.sll c (.i g)) (aEnc 0x01 0x02 8 (.i g) 6) g.rd (mkWord t (x <<< (g.imm.toNat % 64))) ∧
       Writes s s1 c b (.srl c (.i g)) (aEnc 0x01 0x02 9 (.i g) 6) g.rd (mkWord t (x >>> (g.imm.toNat % 64))) ∧
       Writes s s1 c b (.sra c (.i g)) (aEnc 0x01 0x02 10 (.i g) 6) g.rd (mkWord t (x.sshiftRight (g.imm.toNat % 64)))))

/-- R81: the compares write word(TRUE, 0) or word(NIL, 0). R80: FLO arithmetic and conversion where no arithmetic
condition arises. -/
def Obligations.ComparesAndFloArithmetic : Prop :=
  (∀ (s s1 : State) (c : Fin 96) (b : Fin 4) (f : TForm) (g : IForm) (v w : Word) (t u : Nat) (x y : Val),
     (Src s1 c b f.rs1.toNat v → Src s1 c b f.rs2.toNat w →
       Writes s s1 c b (.cmpEq c (.t f)) (aEnc 0x04 0x05 0 (.t f) 12) f.rd
         (boolWord (decide (v.type = w.type ∧ v.val = w.val))) ∧
       Writes s s1 c b (.cmpNe c (.t f)) (aEnc 0x04 0x05 1 (.t f) 12) f.rd
         (boolWord (!decide (v.type = w.type ∧ v.val = w.val)))) ∧
     (Src s1 c b g.rs1.toNat v →
       Writes s s1 c b (.cmpEq c (.i g)) (aEnc 0x04 0x05 0 (.i g) 12) g.rd
         (boolWord (decide (v.type = tyFIX ∧ v.val = g.imm.signExtend 64))) ∧
       Writes s s1 c b (.cmpNe c (.i g)) (aEnc 0x04 0x05 1 (.i g) 12) g.rd
         (boolWord (!decide (v.type = tyFIX ∧ v.val = g.imm.signExtend 64))) ∧
       Writes s s1 c b (.cmpTy c g) (iEnc 0x05 6 g true true 6) g.rd
         (boolWord (decide (v.type = g.imm.toNat % 64)))) ∧
     (Src s1 c b f.rs1.toNat (fixWord x) → Src s1 c b f.rs2.toNat (fixWord y) →
       Writes s s1 c b (.cmpLt c (.t f)) (aEnc 0x04 0x05 2 (.t f) 12) f.rd
         (boolWord (decide (x.toInt < y.toInt))) ∧
       Writes s s1 c b (.cmpLe c (.t f)) (aEnc 0x04 0x05 3 (.t f) 12) f.rd
         (boolWord (decide (x.toInt ≤ y.toInt)))) ∧
     (Src s1 c b g.rs1.toNat (fixWord x) →
       Writes s s1 c b (.cmpLt c (.i g)) (aEnc 0x04 0x05 2 (.i g) 12) g.rd
         (boolWord (decide (x.toInt < g.imm.toInt))) ∧
       Writes s s1 c b (.cmpLe c (.i g)) (aEnc 0x04 0x05 3 (.i g) 12) g.rd
         (boolWord (decide (x.toInt ≤ g.imm.toInt)))) ∧
     ((t = tyFIX ∨ t = tyRAW) → (u = tyFIX ∨ u = tyRAW) → Src s1 c b f.rs1.toNat (mkWord t x) →
       Src s1 c b f.rs2.toNat (mkWord u y) →
       Writes s s1 c b (.cmpLtu c (.t f)) (aEnc 0x04 0x05 4 (.t f) 12) f.rd
         (boolWord (decide (x.toNat < y.toNat))) ∧
       Writes s s1 c b (.cmpLeu c (.t f)) (aEnc 0x04 0x05 5 (.t f) 12) f.rd
         (boolWord (decide (x.toNat ≤ y.toNat)))) ∧
     ((t = tyFIX ∨ t = tyRAW) → Src s1 c b g.rs1.toNat (mkWord t x) →
       Writes s s1 c b (.cmpLtu c (.i g)) (aEnc 0x04 0x05 4 (.i g) 12) g.rd
         (boolWord (decide (x.toNat < g.imm.toNat))) ∧
       Writes s s1 c b (.cmpLeu c (.i g)) (aEnc 0x04 0x05 5 (.i g) 12) g.rd
         (boolWord (decide (x.toNat ≤ g.imm.toNat)))) ∧
     (Src s1 c b f.rs1.toNat (floWord x) → Src s1 c b f.rs2.toNat (floWord y) →
       Writes s s1 c b (.cmpFeq c f) (tEnc 0x04 8 f true true true 0) f.rd
         (boolWord (decide (numCmp (flDecode x) (flDecode y) = some .eq))) ∧
       Writes s s1 c b (.cmpFlt c f) (tEnc 0x04 9 f true true true 0) f.rd
         (boolWord (decide (numCmp (flDecode x) (flDecode y) = some .lt))) ∧
       Writes s s1 c b (.cmpFle c f) (tEnc 0x04 10 f true true true 0) f.rd
         (boolWord (decide (numCmp (flDecode x) (flDecode y) = some .eq ∨ numCmp (flDecode x) (flDecode y) = some .lt))) ∧
       Writes s s1 c b (.cmpFun c f) (tEnc 0x04 11 f true true true 0) f.rd
         (boolWord (decide (numCmp (flDecode x) (flDecode y) = none))))) ∧
  (∀ (s s1 : State) (c : Fin 96) (b : Fin 4) (f : TForm) (x y : Val),
     (Src s1 c b f.rs1.toNat (floWord x) → Src s1 c b f.rs2.toNat (floWord y) →
       ((flAdd x y).why = 0 →
         Writes s s1 c b (.addFl c f) (tEnc 0x03 0 f true true true 0) f.rd (floWord (flAdd x y).v)) ∧
       ((flSub x y).why = 0 →
         Writes s s1 c b (.subFl c f) (tEnc 0x03 1 f true true true 0) f.rd (floWord (flSub x y).v)) ∧
       ((flMul x y).why = 0 →
         Writes s s1 c b (.mulFl c f) (tEnc 0x03 2 f true true true 0) f.rd (floWord (flMul x y).v)) ∧
       ((flDiv x y).why = 0 →
         Writes s s1 c b (.divFl c f) (tEnc 0x03 3 f true true true 0) f.rd (floWord (flDiv x y).v))) ∧
     (Src s1 c b f.rs1.toNat (floWord x) →
       ((flSqrt x).why = 0 →
         Writes s s1 c b (.sqrtFl c f) (tEnc 0x03 4 f true true false 0) f.rd (floWord (flSqrt x).v)) ∧
       Writes s s1 c b (.negFl c f) (tEnc 0x03 5 f true true false 0) f.rd (floWord (x ^^^ 0x8000000000000000)) ∧
       Writes s s1 c b (.absFl c f) (tEnc 0x03 6 f true true false 0) f.rd (floWord (x &&& 0x7FFFFFFFFFFFFFFF)) ∧
       (∀ n : Int, (∃ neg m e, flDecode x = .fin neg m e ∧ n = flTrunc neg m e) → -(2 ^ 63) ≤ n → n < 2 ^ 63 →
         Writes s s1 c b (.cvtFx c f) (tEnc 0x03 8 f true true false 0) f.rd (fixWord (BitVec.ofInt 64 n)))) ∧
     (Src s1 c b f.rs1.toNat (fixWord x) →
       Writes s s1 c b (.cvtFl c f) (tEnc 0x03 7 f true true false 0) f.rd
         (floWord (flRound (decide (x.toInt < 0)) x.toInt.natAbs 0).1)))

/-- R79, for every instruction that R78 and R80 let meet an arithmetic condition: with STATUS.P set the instruction
faults with ARITH and the reason; with P clear it writes its default result, and the first such condition sets IMPP,
AEPC and the reason. -/
def Obligations.ArithmeticConditions : Prop :=
  ∀ (s s1 : State) (c : Fin 96) (b : Fin 4) (f : TForm) (x y : Val) (reason : Nat) (r : Word) (i : Instr) (e : Enc),
    Issued s c b e s1 → reason ≠ 0 →
    ((Src s1 c b f.rs1.toNat (fixWord x) ∧ Src s1 c b f.rs2.toNat (fixWord y) ∧ reason = 1 ∧
        ((i = .addF c (.t f) ∧ e = aEnc 0x01 0x02 0 (.t f) 12 ∧ ¬ inFix (x.toInt + y.toInt) ∧ r = fixWord (x + y)) ∨
         (i = .subF c (.t f) ∧ e = aEnc 0x01 0x02 1 (.t f) 12 ∧ ¬ inFix (x.toInt - y.toInt) ∧ r = fixWord (x - y)))) ∨
      (Src s1 c b f.rs1.toNat (floWord x) ∧ Src s1 c b f.rs2.toNat (floWord y) ∧
        ((i = .addFl c f ∧ e = tEnc 0x03 0 f true true true 0 ∧ reason = (flAdd x y).why ∧ r = floWord (flAdd x y).v) ∨
         (i = .subFl c f ∧ e = tEnc 0x03 1 f true true true 0 ∧ reason = (flSub x y).why ∧ r = floWord (flSub x y).v) ∨
         (i = .mulFl c f ∧ e = tEnc 0x03 2 f true true true 0 ∧ reason = (flMul x y).why ∧ r = floWord (flMul x y).v) ∨
         (i = .divFl c f ∧ e = tEnc 0x03 3 f true true true 0 ∧ reason = (flDiv x y).why ∧
           r = floWord (flDiv x y).v))) ∨
      (Src s1 c b f.rs1.toNat (floWord x) ∧
        ((i = .sqrtFl c f ∧ e = tEnc 0x03 4 f true true false 0 ∧ reason = (flSqrt x).why ∧ r = floWord (flSqrt x).v) ∨
         (i = .cvtFx c f ∧ e = tEnc 0x03 8 f true true false 0 ∧ flToFix x = none ∧ reason = 2 ∧
           r = fixWord 0x8000000000000000)))) →
    ((s1.bank c b).status.p = true →
      exec i s = .next ((s1.takeFault c b 0x05 (v64 reason) e.word false false).getD (s.tsbMiss c b))) ∧
    ((s1.bank c b).status.p = false → (s1.bank c b).status.impp = false →
      exec i s = .next (((s1.modBank c b fun k => { k with
        status := { k.status with impp := true }, aepc := k.pc, impReason := reason, impCount := 0 }).wrReg c b
          f.rd.toNat r).retire c b .fall)) ∧
    ((s1.bank c b).status.p = false → (s1.bank c b).status.impp = true →
      exec i s = .next ((s1.wrReg c b f.rd.toNat r).retire c b .fall))

/-- R82: the branches jump to PC + 4 × sext(disp17) when their condition holds and go on otherwise; they change no
register. R33, R83: MOV, MOVI and TAGOF; SETTAG at the supervisor level gives a word any type that is not reserved,
not FORWARD and not malformed, and SETTAG.R takes the tag from a register. -/
def Obligations.BranchesMovesAndTags : Prop :=
  (∀ (s s1 : State) (c : Fin 96) (b : Fin 4) (f : BForm) (w : Word) (t : Nat) (x : Val) (taken : Bool) (i : Instr) (e : Enc),
     Issued s c b e s1 →
     ((i = .ba c f ∧ e = bEnc 0x10 0 f false ∧ taken = true) ∨
      (i = .bnil c f ∧ e = bEnc 0x10 1 f true ∧ Src s1 c b f.rs.toNat w ∧ taken = decide (w.type = tyNIL)) ∨
      (i = .bnn c f ∧ e = bEnc 0x10 2 f true ∧ Src s1 c b f.rs.toNat w ∧ taken = !decide (w.type = tyNIL)) ∨
      ((t = tyFIX ∨ t = tyRAW) ∧ Src s1 c b f.rs.toNat (mkWord t x) ∧
        ((i = .bz c f ∧ e = bEnc 0x10 3 f true ∧ taken = decide (x = 0)) ∨
         (i = .bnz c f ∧ e = bEnc 0x10 4 f true ∧ taken = !decide (x = 0)))) ∨
      (Src s1 c b f.rs.toNat (fixWord x) ∧
        ((i = .bltz c f ∧ e = bEnc 0x10 5 f true ∧ taken = decide (x.toInt < 0)) ∨
         (i = .bgez c f ∧ e = bEnc 0x10 6 f true ∧ taken = decide (0 ≤ x.toInt))))) →
     exec i s = .next (s1.retire c b
       (if taken then .jump (((s1.bank c b).pc + f.disp.signExtend 64 * 4) &&& 0xFFFFFFFFFFFF) else .fall))) ∧
  (∀ (s s1 : State) (c : Fin 96) (b : Fin 4) (f : TForm) (g : IForm) (w : Word) (x : Val),
     (Src s1 c b f.rs1.toNat w → Writes s s1 c b (.mov c f) (tEnc 0x06 0 f true true false 0) f.rd w) ∧
     Writes s s1 c b (.movi c g) (iEnc 0x06 8 g true false 12) g.rd (fixWord (g.imm.signExtend 64)) ∧
     Writes s s1 c b (.tagof c f) (tEnc 0x06 2 f true true false 0) f.rd
       (fixWord ((s1.rdReg c b f.rs1.toNat).tag.setWidth 64)) ∧
     (∀ r : Word, s1.reservedType r.type = false → r.type ≠ tyFORWARD → s1.malformed r = false → r.val = w.val →
       ((s.bank c b).status.lvl = true ∨
         (s1.isImmType w.type = true ∧ s1.isImmType r.type = true ∧ r.imm = false ∧ r.weak = false ∧
           (r.type < 0x20 ∨ s1.userSet r.type = true)) ∨
         (s1.isImmType w.type = false ∧ (s1.isPtr w.type = true ∨ w.type = tyREMOTE) ∧ r.type = w.type ∧ (r.imm = true ∨ w.imm = false))) →
       (Src s1 c b g.rs1.toNat w → r.tag = g.imm.setWidth 8 →
         Writes s s1 c b (.settag c g) (iEnc 0x06 9 g true true 8) g.rd r) ∧
       (Src s1 c b f.rs1.toNat w → Src s1 c b f.rs2.toNat (fixWord x) → r.tag = x.setWidth 8 →
         Writes s s1 c b (.settagR c f) (tEnc 0x06 1 f true true true 0) f.rd r)))

/-- R60, R61, R84: MUL and DIV retire and leave two results that wait to be written, 4 or 20 cycles after issue.
MULDIV_RESULT_WRITE always answers a next state: every result whose cycle has come is written, each pair of registers
ends with the latest issued of its own, a result whose cycle has not come waits on, and nothing else changes. -/
def Obligations.MultiplyDivide : Prop :=
  ∀ (s s1 : State) (c : Fin 96) (b : Fin 4) (f : TForm) (t u : Nat) (x y : Val),
    (t = tyFIX ∨ t = tyRAW) → (u = tyFIX ∨ u = tyRAW) →
    (Src s1 c b f.rs1.toNat (mkWord t x) → Src s1 c b f.rs2.toNat (mkWord u y) →
      ∀ (i : Instr) (e : Enc) (p : PendMD), Issued s c b e s1 →
        ((i = .mulS c f ∧ e = tEnc 0x07 0 f false true true 0 ∧ p.div = false ∧
            p.hi = BitVec.ofInt 64 (x.toInt * y.toInt / 2 ^ 64) ∧ p.lo = x * y ∧ p.due = s1.cycle + 4) ∨
         (i = .mulU c f ∧ e = tEnc 0x07 1 f false true true 0 ∧ p.div = false ∧
            p.hi = BitVec.ofNat 64 (x.toNat * y.toNat / 2 ^ 64) ∧ p.lo = x * y ∧ p.due = s1.cycle + 4) ∨
         (y ≠ 0 ∧ i = .divS c f ∧ e = tEnc 0x07 2 f false true true 0 ∧ p.div = true ∧
            p.hi = x.sdiv y ∧ p.lo = x.srem y ∧ p.due = s1.cycle + 20) ∨
         (y ≠ 0 ∧ i = .divU c f ∧ e = tEnc 0x07 3 f false true true 0 ∧ p.div = true ∧
            p.hi = x / y ∧ p.lo = x % y ∧ p.due = s1.cycle + 20)) →
        exec i s = .next ((s1.modBank c b fun k => { k with pend := k.pend ++ [p] }).retire c b .fall)) ∧
    (∃ z, exec (.muldivResultWrite c b) s = .next z ∧
      (z.bank c b).pend = (s.bank c b).pend.filter (fun p => decide (s.cycle < p.due)) ∧
      (∀ l p r, (s.bank c b).pend = l ++ p :: r → p.due ≤ s.cycle → (∀ q ∈ r, q.div = p.div → s.cycle < q.due) →
        (p.div = false → (z.bank c b).ph = p.hi ∧ (z.bank c b).pl = p.lo) ∧
        (p.div = true → (z.bank c b).qt = p.hi ∧ (z.bank c b).rm = p.lo)) ∧
      ((∀ p ∈ (s.bank c b).pend, p.div = false → s.cycle < p.due) →
        (z.bank c b).ph = (s.bank c b).ph ∧ (z.bank c b).pl = (s.bank c b).pl) ∧
      ((∀ p ∈ (s.bank c b).pend, p.div = true → s.cycle < p.due) →
        (z.bank c b).qt = (s.bank c b).qt ∧ (z.bank c b).rm = (s.bank c b).rm) ∧
      (let k := s.bank c b
       { z.bank c b with ph := k.ph, pl := k.pl, qt := k.qt, rm := k.rm, pend := k.pend } = k) ∧
      (∀ c' b', (c', b') ≠ ((c : Nat), b) → z.bank c' b' = s.bank c' b') ∧ z.mem = s.mem ∧ z.regs = s.regs)

/-- R85: a DIV by zero is ARITH at issue with reason INT_DIVZERO and leaves nothing pending; DIV.S of -2^63 by -1
gives QT = -2^63 and RM = 0 and raises nothing. -/
def Obligations.DivisionCorners : Prop :=
  ∀ (s s1 : State) (c : Fin 96) (b : Fin 4) (f : TForm) (t u : Nat) (x : Val),
    let k := s1.bank c b
    (t = tyFIX ∨ t = tyRAW) → (u = tyFIX ∨ u = tyRAW) → Src s1 c b f.rs1.toNat (mkWord t x) →
    (Src s1 c b f.rs2.toNat (mkWord u 0) →
      (Issued s c b (tEnc 0x07 2 f false true true 0) s1 →
        exec (.divS c f) s = .next ((s1.takeFault c b 0x05 5 (encT 0x07 2 f) false false).getD (s.tsbMiss c b))) ∧
      (Issued s c b (tEnc 0x07 3 f false true true 0) s1 →
        exec (.divU c f) s = .next ((s1.takeFault c b 0x05 5 (encT 0x07 3 f) false false).getD (s.tsbMiss c b)))) ∧
    (x = 0x8000000000000000 → Src s1 c b f.rs2.toNat (mkWord u (-1)) → k.pend = [] →
      Issued s c b (tEnc 0x07 2 f false true true 0) s1 →
      ∃ z, exec (.divS c f) s = .next z ∧ (z.bank c b).pc = pcOf (k.pc + 4) ∧
        ∀ n, s1.cycle + 20 ≤ n → ∃ y, exec (.muldivResultWrite c b) { z with cycle := n } = .next y ∧
          (y.bank c b).qt = 0x8000000000000000 ∧ (y.bank c b).rm = 0 ∧ (y.bank c b).pend = [])

/-- R73, R107: a class-A operand is the word itself when it is a local pointer, a RAW word or, where the instruction
takes one, a REMOTE; a FUTURE whose transaction has answered stands for its result, and one that is still out makes
the bank wait with cause 3. R87, R89: a load reads at base + disp × size and writes rd; a local base goes through the
barrier and the checks of `loadWord` and `loadSub`, a REMOTE base of LD.W starts a transaction and writes its FUTURE.
-/
def Obligations.AddressOperandsAndLoads : Prop :=
  (∀ (s : State) (cx : Ctx) (n : Nat) (w r : Word) (remote : Bool),
     let ok (x : Word) : Prop := s.isPtr x.type = true ∨ x.type = tyRAW ∨ (remote = true ∧ x.type = tyREMOTE)
     (w.type ≠ tyFUTURE → ok w → addrOp cx n w remote s = .ok w s) ∧
     (w.type ≠ tyFUTURE → ¬ ok w → addrOp cx n w remote s = .error (.trap 0x04 (v64 (2 ^ 63 + n))) s) ∧
     (w.type = tyFUTURE → (s.ott (bits w.val 16 0)).busy = false → (s.ott (bits w.val 16 0)).res = .word r → ok r →
       addrOp cx n w remote s = .ok r s) ∧
     (w.type = tyFUTURE → (s.ott (bits w.val 16 0)).busy = true →
       addrOp cx n w remote s = .error (.wait { cause := 3, key := bits w.val 16 0 }) s) ∧
     (∀ reason, w.type = tyFUTURE → (s.ott (bits w.val 16 0)).busy = false →
       (s.ott (bits w.val 16 0)).res = .error reason →
       addrOp cx n w remote s =
         .error (.trap 0x0F (remoteTval (s.ott (bits w.val 16 0)).ref.val reason)) s)) ∧
  (∀ (s s1 s2 : State) (c : Fin 96) (b : Fin 4) (f : MForm) (w a r : Word),
     Src s1 c b f.base.toNat w →
     (Issued s c b (mEnc 0x08 0 f true) s1 → addrOp (s.ctx c b) f.base.toNat w true s1 = .ok a s1 →
       (a.type ≠ tyREMOTE →
         loadWord (s.ctx c b) (a.val + f.disp.signExtend 64 * 8) mtAny false s1 = .ok r s2 →
         exec (.ldW c f) s = .next ((s2.wrReg c b f.r.toNat r).retire c b .fall)) ∧
       (a.type = tyREMOTE →
         remoteFuture (s.ctx c b) pRLOAD a (fixWord (f.disp.signExtend 64)) [] s1 = .ok r s2 →
         exec (.ldW c f) s = .next ((s2.wrReg c b f.r.toNat r).retire c b .fall))) ∧
     (∀ (i : Instr) (func size : Nat) (signed : Bool),
       ((i = .ldB c f ∧ func = 1 ∧ size = 1 ∧ signed = true) ∨ (i = .ldBu c f ∧ func = 2 ∧ size = 1 ∧ signed = false) ∨
        (i = .ldH c f ∧ func = 3 ∧ size = 2 ∧ signed = true) ∨ (i = .ldHu c f ∧ func = 4 ∧ size = 2 ∧ signed = false) ∨
        (i = .ldS c f ∧ func = 5 ∧ size = 4 ∧ signed = true) ∨
        (i = .ldSu c f ∧ func = 6 ∧ size = 4 ∧ signed = false)) →
       Issued s c b (mEnc 0x08 func f true) s1 → addrOp (s.ctx c b) f.base.toNat w false s1 = .ok a s1 →
       loadSub (s.ctx c b) (a.val + f.disp.signExtend 64 * v64 size) size signed s1 = .ok r s2 →
       exec i s = .next ((s2.wrReg c b f.r.toNat r).retire c b .fall)))

/-- R89, R26, R30, R234: a load that hits returns the word of the line (or its bytes, extended) and changes nothing,
when no store of the core to the word and no device store of the bank waits; a word of the local-pointer class goes
through the read barrier. R242: an atomic read of a word that its core holds in state M returns the word of the line,
and the write replaces that word and nothing else of the line, and ends every other reservation of the granule (R94).
-/
def Obligations.AccessesThatHit : Prop :=
  (∀ (s : State) (c : Nat) (b : Fin 4) (ea : Val) (x : AgentLine) (w : Word) (size : Nat) (signed : Bool),
     w = x.line.word (ea.toNat / 8 % 8) → sbFor s c ea.toNat = [] → s.isPtr w.type = false → w.type ≠ tyFORWARD →
     (∀ e ∈ (s.core c).sb, e.bank = b → e.mt ≠ .device) → s.badWord w = none → AttrSound s c w →
     (Hit s c b ea 8 x → loadWord (s.ctx c b) ea mtAny false s = .ok w s) ∧
     (Hit s c b ea size x → (size = 1 ∨ size = 2 ∨ size = 4) → w.tag = 0x16 →
       loadSub (s.ctx c b) ea size signed s =
         .ok (fixWord (if signed then BitVec.ofInt 64 (sext (8 * size) (bits w.val (8 * (ea.toNat % 8 + size) - 1)
             (8 * (ea.toNat % 8))))
           else BitVec.ofNat 64 (bits w.val (8 * (ea.toNat % 8 + size) - 1) (8 * (ea.toNat % 8))))) s)) ∧
  (∀ (s : State) (c : Nat) (b : Fin 4) (ea : Val) (x : AgentLine) (new : Word),
     let w := x.line.word (ea.toNat / 8 % 8)
     Hit s c b ea 8 x → x.st = .m → x.line.words.length = 8 → sbFor s c ea.toNat = [] → s.isPtr w.type = false →
     w.type ≠ tyFORWARD → s.badWord w = none → AttrSound s c w → s.isPtr new.type = false →
     atomicRead (s.ctx c b) ea s = .ok (ea.toNat, w) s ∧
     ∃ t, atomicWrite (s.ctx c b) ea ea.toNat w new s = .ok () t ∧
       (∃ y, t.agLine c (ea.toNat / 64) = some y ∧ y.st = .m ∧ y.world = x.world ∧
         y.line.word (ea.toNat / 8 % 8) = new ∧
         ∀ i, i < 8 → i ≠ ea.toNat / 8 % 8 → y.line.word i = x.line.word i) ∧
       (∀ a g, agKey a g ≠ agKey c (ea.toNat / 64) → t.agLine a g = s.agLine a g) ∧
       (∀ c' b', (t.bank c' b').resv ≠ some (ea.toNat / 64)) ∧
       (∀ c' b', (s.bank c' b').resv ≠ some (ea.toNat / 64) → t.bank c' b' = s.bank c' b') ∧
       t.mem.vals = s.mem.vals ∧ t.mem.tags = s.mem.tags ∧ t.regs = s.regs)

/-- R90, R245: a store with room enters the store buffer of its core as the youngest entry and changes no memory yet;
a whole word to a REMOTE base is posted as a packet. R245, R94, R189, R307: the oldest store of the buffer is
performed: on a line that its core owns, the word is replaced and nothing else of the line; at a register of its
world, the register is written; a store to a foreign granule is discarded and freezes the core, and what is behind it
is held; with nothing to perform, or in a halted pair, the core stays as it is. -/
def Obligations.StoresAndTheBuffer : Prop :=
  (∀ (s s1 s2 : State) (c : Fin 96) (b : Fin 4) (f : MForm) (w a v : Word),
     Src s1 c b f.base.toNat w → Src s1 c b f.r.toNat v → a.imm = false →
     (Issued s c b (mEnc 0x09 0 f true) s1 → addrOp (s.ctx c b) f.base.toNat w true s1 = .ok a s1 →
       ((s.bank c b).status.lvl = true ∨ v.type ≠ tyHEADER) →
       (a.type ≠ tyREMOTE →
         storeWord (s.ctx c b) (a.val + f.disp.signExtend 64 * 8) v mtAny false true f.r.toNat s1 = .ok () s2 →
         exec (.stW c f) s = .next (s2.retire c b .fall)) ∧
       (a.type = tyREMOTE → wantRemotable v f.r.toNat s1 = .ok () s1 →
         remotePosted (s.ctx c b) a (fixWord (f.disp.signExtend 64)) v s1 = .ok () s2 →
         exec (.stW c f) s = .next (s2.retire c b .fall))) ∧
     (∀ (i : Instr) (func size : Nat),
       ((i = .stB c f ∧ func = 1 ∧ size = 1) ∨ (i = .stH c f ∧ func = 2 ∧ size = 2) ∨
        (i = .stS c f ∧ func = 3 ∧ size = 4)) →
       (v.type = tyFIX ∨ v.type = tyRAW) →
       Issued s c b (mEnc 0x09 func f true) s1 → addrOp (s.ctx c b) f.base.toNat w false s1 = .ok a s1 →
       storeSub (s.ctx c b) (a.val + f.disp.signExtend 64 * v64 size) v.val size s1 = .ok () s2 →
       exec i s = .next (s2.retire c b .fall)) ∧
     (∀ (ea : Val) (sp : Nat), Clear s c b ea → (s.core c).sb.length < 32 → s.isPtr v.type = false →
       storeWord (s.ctx c b) ea v mtAny false true sp s = .ok () (s.modCore c fun k => { k with
         sb := k.sb ++ [storeEntry s c b ea v] }))) ∧
  (∀ (s : State) (c : Fin 96) (e : SBEntry) (r : List SBEntry) (x : AgentLine) (w : Word),
     let g := e.pa / 64
     let off := (e.pa - 0xF000000000) / 8 * 8
     let who : Who := { reeve := false, c := c, b := e.bank, w := e.world, sup := e.sup }
     let roomWaits : Prop := ∃ p ∈ s.banks, ∃ y, p.2.wait = some y ∧ y.cause = 5
     let drains : Prop := (s.core c).sb = e :: r ∧ (s.core c).sbHeld = false ∧ s.pairMode (pairOf c) ≠ 3
     ((s.core c).sb = [] ∨ (s.core c).sbHeld = true ∨ s.pairMode (pairOf c) = 3 → exec (.storePerform c) s = .next s) ∧
     (drains → e.mt = .cacheable → s.mem.upL2.contains (c.val, g) = false →
       s.agLine c g = some x → x.st = .m → x.world = e.world → x.line.poison = false → x.line.words.length = 8 →
       (e.mrk = false ∨ s.gcPhase e.world ≠ 1) → ¬ roomWaits →
       ∃ t y, exec (.storePerform c) s = .next t ∧ (t.core c).sb = r ∧ t.agLine c g = some y ∧ y.st = .m ∧
         y.line.word (e.pa / 8 % 8) = e.data.apply (e.pa % 8) (x.line.word (e.pa / 8 % 8)) ∧
         (∀ i, i < 8 → i ≠ e.pa / 8 % 8 → y.line.word i = x.line.word i) ∧
         (∀ a g', agKey a g' ≠ agKey c g → t.agLine a g' = s.agLine a g') ∧
         t.mem.vals = s.mem.vals ∧ t.mem.tags = s.mem.tags ∧ t.regs = s.regs ∧
         (∀ c' b, (t.bank c' b).resv ≠ some g) ∧
         ∀ c' b, (s.bank c' b).resv ≠ some g → t.bank c' b = s.bank c' b) ∧
     (drains → e.mt = .device → e.data = .word w → s.regViolation who off true = false →
       exec (.storePerform c) s = .next ((s.sbPop c).regWrite who off w.val)) ∧
     (drains → (s.core c).frozen = false →
       (e.mt = .device ∧ s.regViolation who off true = true ∨
         (e.mt = .uncached ∨ e.mt = .bin) ∧ s.fenceOwner e.pa ≠ wn e.world) →
       ∃ t, exec (.storePerform c) s = .next t ∧ (t.core c).sb = r ∧ (t.core c).sbHeld = true ∧ t.mem = s.mem ∧
         (s.pairMode (c.val / 2) = 0 → (t.core c).frozen = true ∧ ∀ b, (t.bank c b).st = 5)))

/-- R91: STM and LDM move the registers that the mask selects, in ascending order, to or from consecutive words from
base + disp9 × 8, STM when the store buffer has room for all of them; R92: PREF fetches the granule when nothing stops
it and raises nothing. R204: SAVEH stores one half of the current window to a save area, notes half and CWP in its
descriptor and leaves the next area in base; LOADH loads the half back and leaves the area in base. R91, R46, R52,
R245: on plain memory STM puts the selected registers into the store buffer, one entry a word from base + disp9 × 8
upward in ascending order of specifier, and LDM writes them with the words of the lines that its core holds; nothing
else changes but retirement. -/
def Obligations.TransfersAndSaveAreas : Prop :=
  (∀ (s s1 s2 s3 : State) (c : Fin 96) (b : Fin 4) (f : MForm) (w a m : Word) (g : BitVec 34),
     (Src s1 c b f.base.toNat w → Src s1 c b f.r.toNat m → (m.type = tyFIX ∨ m.type = tyRAW) →
       ((s.bank c b).status.lvl = true ∨ f.disp.toNat < 512) → addrOp (s.ctx c b) f.base.toNat w false s1 = .ok a s1 →
       (Issued s c b (mEnc 0x0A 0 f true) s1 → a.imm = false →
         (s1.core c).sb.length + (maskSpecs m.val).length ≤ 32 →
         touchPages (s.ctx c b) (a.val + (f.disp.setWidth 9).signExtend 64 * 8) (maskSpecs m.val).length mtNoDev s1 =
           .ok () s2 →
         stmGo (s.ctx c b) (f.disp.toNat / 512) (maskSpecs m.val)
           (a.val + (f.disp.setWidth 9).signExtend 64 * 8) s2 = .ok () s3 →
         exec (.stm c f) s = .next (s3.retire c b .fall)) ∧
       (Issued s c b (mEnc 0x0A 1 f true) s1 →
         (∀ i ∈ maskSpecs m.val,
           maskLoc (s1.core c).inEsc (s1.bank c b).status.cwp.toNat (f.disp.toNat / 512) i ≠ s1.loc c b f.base.toNat ∧
           maskLoc (s1.core c).inEsc (s1.bank c b).status.cwp.toNat (f.disp.toNat / 512) i ≠ s1.loc c b f.r.toNat) →
         ldmGo (s.ctx c b) (f.disp.toNat / 512) (maskSpecs m.val)
           (a.val + (f.disp.setWidth 9).signExtend 64 * 8) s1 = .ok () s2 →
         exec (.ldm c f) s = .next (s2.retire c b .fall))) ∧
     (Issued s c b (mEnc 0x0B 0 f false) s1 → s1.rdReg c b f.base.toNat = w →
       ((s1.badWord w).isSome = true → exec (.pref c f) s = .next (s1.retire c b .fall)) ∧
       (s1.badWord w = none → (s1.isPtr w.type = true ∨ w.type = tyRAW) →
         (∀ pa mt, access (s.ctx c b) ((w.val + f.disp.signExtend 64 * 8) &&& ~~~63) 8 .read mtC s1 = .ok (pa, mt) s2 →
           exec (.pref c f) s = .next ((s2.prefetch c (s.bank c b).status.wld pa).retire c b .fall)) ∧
         (∀ e, access (s.ctx c b) ((w.val + f.disp.signExtend 64 * 8) &&& ~~~63) 8 .read mtC s1 = .error e s2 →
           exec (.pref c f) s = .next (s2.retire c b .fall)))) ∧
     (s.issuable c = some b → s.inDram (64 * g.toNat) = true →
       exec (.hardwarePrefetch c g) s = .next (s.prefetch c (s.bank c b).status.wld (64 * g.toNat))) ∧
     (s.issuable c = none ∨ s.inDram (64 * g.toNat) = false → exec (.hardwarePrefetch c g) s = .next s)) ∧
  (∀ (s s1 s2 s3 s4 s5 : State) (c : Fin 96) (b : Fin 4) (f : MForm) (x y d : Val),
     Src s1 c b f.base.toNat (rawWord x) →
     (Issued s c b (saveEnc 0 f) s1 → x.toNat % 32 = 0 →
       loadWord (s.ctx c b) x mtNoDev false s1 = .ok (rawWord y) s2 → (s2.core c).sb.length + 17 ≤ 32 →
       touchPages (s.ctx c b) (x + 0x10) 17 mtNoDev s2 = .ok () s3 →
       stmGo (s.ctx c b) 0 (halfSpecs (f.disp.toNat / 512)) (x + 0x18) s3 = .ok () s4 →
       storeWord (s.ctx c b) (x + 0x10) (rawWord (v64 (16 * (f.disp.toNat / 512) + (s4.bank c b).status.cwp.toNat)))
         mtNoDev false true f.base.toNat s4 = .ok () s5 →
       exec (.saveh c f) s = .next ((s5.wrReg c b f.base.toNat (rawWord y)).retire c b .fall)) ∧
     (Issued s c b (saveEnc 1 f) s1 → y.toNat % 32 = 0 → bits d 4 4 = f.disp.toNat / 512 →
       (∀ i ∈ halfSpecs (f.disp.toNat / 512), s1.loc c b i ≠ s1.loc c b f.base.toNat) →
       loadWord (s.ctx c b) (x + 8) mtNoDev false s1 = .ok (rawWord y) s2 →
       loadWord (s.ctx c b) (y + 0x10) mtNoDev false s2 = .ok (rawWord d) s3 →
       ldmGo (s.ctx c b) 0 (halfSpecs (f.disp.toNat / 512)) (y + 0x18) s3 = .ok () s4 →
       exec (.loadh c f) s = .next ((s4.wrReg c b f.base.toNat (rawWord y)).retire c b .fall))) ∧
  (∀ (s s1 : State) (c : Fin 96) (b : Fin 4) (f : MForm) (w m : Word) (x : Nat → AgentLine),
     Src s1 c b f.base.toNat w → Src s1 c b f.r.toNat m → (m.type = tyFIX ∨ m.type = tyRAW) → w.type = tyRAW →
     (s.bank c b).status.lvl = true → s1.bank c b = s.bank c b →
     let specs := maskSpecs m.val
     let loc (i : Nat) : RLoc := maskLoc (s1.core c).inEsc (s1.bank c b).status.cwp.toNat (f.disp.toNat / 512) i
     let ea (k : Nat) : Val := w.val + (f.disp.setWidth 9).signExtend 64 * 8 + 8 * BitVec.ofNat 64 k
     (Issued s c b (mEnc 0x0A 0 f true) s1 → w.imm = false → (s1.core c).sb.length + specs.length ≤ 32 →
       (∀ k, k < specs.length → Clear s1 c b (ea k)) →
       (∀ i ∈ specs, s1.isPtr (s1.opLoc c b (loc i)).type = false) →
       exec (.stm c f) s = .next ((s1.modCore c fun y => { y with
         sb := y.sb ++ specs.zipIdx.map fun p => storeEntry s1 c b (ea p.2) (s1.opLoc c b (loc p.1)) }).retire c b .fall)) ∧
     (Issued s c b (mEnc 0x0A 1 f true) s1 →
       (∀ i ∈ specs, loc i ≠ s1.loc c b f.base.toNat ∧ loc i ≠ s1.loc c b f.r.toNat) →
       (∀ e ∈ (s1.core c).sb, e.bank = b → e.mt ≠ .device) →
       (∀ k, k < specs.length → Hit s1 c b (ea k) 8 (x k) ∧ sbFor s1 c (ea k).toNat = [] ∧
         s1.isPtr ((x k).line.word ((ea k).toNat / 8 % 8)).type = false ∧
         ((x k).line.word ((ea k).toNat / 8 % 8)).type ≠ tyFORWARD) →
       exec (.ldm c f) s = .next ((specs.zipIdx.foldl (fun t p =>
         t.wrLoc c b (loc p.1) ((x p.2).line.word ((ea p.2).toNat / 8 % 8))) s1).retire c b .fall)))

/-- R93, R94, R242: LDRV reads a word and reserves its granule; STCN stores and writes TRUE while the reservation
stands, and writes NIL without storing when it does not; CAS, SWAP and FADD replace the word at once and write the old
one to rd; RESERVATION_TIMEOUT ends the deferral of a reservation. -/
def Obligations.Atomics : Prop :=
  ∀ (s s1 s2 s3 s4 : State) (c : Fin 96) (b : Fin 4) (f : TForm) (g : MForm) (w a v old x : Word) (pa : Nat) (mt : MemType),
    (Issued s c b (mEnc 0x0C 0 g true) s1 → Src s1 c b g.base.toNat w →
      addrOp (s.ctx c b) g.base.toNat w false s1 = .ok a s1 →
      access (s.ctx c b) (a.val + g.disp.signExtend 64 * 8) 8 .write mtC s1 = .ok (pa, mt) s2 →
      (∀ e ∈ (s2.core c).sb, e.pa / 64 ≠ pa / 64) →
      atomicRead (s.ctx c b) (a.val + g.disp.signExtend 64 * 8) s2 = .ok (pa, old) s3 → DataQuiet s3 c b →
      exec (.ldrv c g) s = .next (((s3.modBank c b fun k => { k with resv := some (pa / 64), resvCy := 0 }).wrReg c b
        g.r.toNat old).retire c b .fall)) ∧
    (Src s1 c b f.rs1.toNat w → Src s1 c b f.rs2.toNat v → a.imm = false →
      ((s.bank c b).status.lvl = true ∨ v.type ≠ tyHEADER) →
      ((s1.core c).sb.any fun e => e.bank == b) = false →
      (Issued s c b (tEnc 0x0C 1 f true true true 0) s1 → addrOp (s.ctx c b) f.rs1.toNat w false s1 = .ok a s1 →
        access (s.ctx c b) a.val 8 .write mtC s1 = .ok (pa, mt) s2 → DataQuiet s2 c b →
        s2.fenceOwner pa = wn (s.bank c b).status.wld → s2.peekPoison pa mt = false →
        ((s2.bank c b).resv = some (pa / 64) → lineOwn (s.ctx c b) a.val pa s2 = .ok old s3 →
          atomicWrite (s.ctx c b) a.val pa old v s3 = .ok () s4 →
          exec (.stcn c f) s =
            .next (((s4.modBank c b fun k => { k with resv := none }).wrReg c b f.rd.toNat trueWord).retire c b .fall)) ∧
        ((s2.bank c b).resv ≠ some (pa / 64) →
          exec (.stcn c f) s = .next ((((s2.modBank c b fun k => { k with resv := none }).countEvent c 17 1).wrReg c b
            f.rd.toNat nilWord).retire c b .fall))) ∧
      (addrOp (s.ctx c b) f.rs1.toNat w true s1 = .ok a s1 → a.type ≠ tyREMOTE →
        atomicRead (s.ctx c b) a.val s1 = .ok (pa, old) s2 → DataQuiet s2 c b →
        (Issued s c b (tEnc 0x0C 2 f true true true 0) s1 → Src s1 c b f.rd.toNat x →
          (old = x → atomicWrite (s.ctx c b) a.val pa old v s2 = .ok () s3 →
            exec (.cas c f) s = .next ((s3.wrReg c b f.rd.toNat old).retire c b .fall)) ∧
          (old ≠ x → exec (.cas c f) s = .next ((s2.wrReg c b f.rd.toNat old).retire c b .fall))) ∧
        (Issued s c b (tEnc 0x0C 3 f true true true 0) s1 → atomicWrite (s.ctx c b) a.val pa old v s2 = .ok () s3 →
          exec (.swap c f) s = .next ((s3.wrReg c b f.rd.toNat old).retire c b .fall)) ∧
        (Issued s c b (tEnc 0x0C 4 f true true true 0) s1 → v.type = tyFIX → old.type = tyFIX →
          inFix (old.val.toInt + v.val.toInt) = true →
          atomicWrite (s.ctx c b) a.val pa old (fixWord (old.val + v.val)) s2 = .ok () s3 →
          exec (.fadd c f) s = .next ((s3.wrReg c b f.rd.toNat old).retire c b .fall))) ∧
      (addrOp (s.ctx c b) f.rs1.toNat w true s1 = .ok a s1 → a.type = tyREMOTE →
        (Issued s c b (tEnc 0x0C 2 f true true true 0) s1 → Src s1 c b f.rd.toNat x →
          wantRemotable x f.rd.toNat s1 = .ok () s1 → wantRemotable v f.rs2.toNat s1 = .ok () s1 →
          remoteFuture (s.ctx c b) pRCAS a (fixWord 0) [x, v] s1 = .ok old s2 →
          exec (.cas c f) s = .next ((s2.wrReg c b f.rd.toNat old).retire c b .fall)) ∧
        (Issued s c b (tEnc 0x0C 3 f true true true 0) s1 → wantRemotable v f.rs2.toNat s1 = .ok () s1 →
          remoteFuture (s.ctx c b) pRSWAP a (fixWord 0) [v] s1 = .ok old s2 →
          exec (.swap c f) s = .next ((s2.wrReg c b f.rd.toNat old).retire c b .fall)) ∧
        (Issued s c b (tEnc 0x0C 4 f true true true 0) s1 → v.type = tyFIX →
          remoteFuture (s.ctx c b) pRFADD a (fixWord 0) [v] s1 = .ok old s2 →
          exec (.fadd c f) s = .next ((s2.wrReg c b f.rd.toNat old).retire c b .fall)))) ∧
    (∃ t, exec (.reservationTimeout c b) s = .next t ∧
      t.bank c b = (if (s.bank c b).resv.isSome then { s.bank c b with resvCy := 1 } else s.bank c b) ∧
      t.mem = s.mem ∧ ∀ c' b', (c', b') ≠ ((c : Nat), b) → t.bank c' b' = s.bank c' b')

/-- R97: SAVE and RESTORE: rs1, F or Rw, read in the window before the instruction; its value and the immediate added
mod 2^64 under its tag; the window moved under the check of R49 and the word written to rd in the new window; nothing
written where the check fails; TYPE for another tag. -/
def Obligations.SaveAndRestore : Prop :=
  ∀ (s s1 : State) (c : Fin 96) (b : Fin 4) (f : IForm) (t : Nat) (x : Val) (w : Word),
    let k := s1.bank c b
    let v := mkWord t (x + f.imm.signExtend 64)
    let saved : Prop := Issued s c b (iEnc 0x13 0 f true true 12) s1
    let restored : Prop := Issued s c b (iEnc 0x13 1 f true true 12) s1
    ((t = tyFIX ∨ t = tyRAW) → Src s1 c b f.rs1.toNat (mkWord t x) →
      (saved →
        (k.status.cwp ≠ k.twp → k.status.cwp + 1 ≠ k.twp →
          exec (.save c f) s = .next (((s1.modBank c b fun k => { k with status := { k.status with
            cwp := k.status.cwp + 1 } }).wrReg c b f.rd.toNat v).retire c b .fall)) ∧
        ((k.status.cwp = k.twp ∨ k.status.cwp + 1 = k.twp) →
          exec (.save c f) s = .next ((s1.takeFault c b 0x0B 0 (encI 0x13 0 f) false false).getD (s.tsbMiss c b)))) ∧
      (restored →
        (k.status.cwp - 1 ≠ k.twp →
          exec (.restore c f) s = .next (((s1.modBank c b fun k => { k with status := { k.status with
            cwp := k.status.cwp - 1 } }).wrReg c b f.rd.toNat v).retire c b .fall)) ∧
        (k.status.cwp - 1 = k.twp →
          exec (.restore c f) s = .next ((s1.takeFault c b 0x0C 0 (encI 0x13 1 f) false false).getD (s.tsbMiss c b))))) ∧
    (Src s1 c b f.rs1.toNat w → w.type ≠ tyFIX → w.type ≠ tyRAW →
      (saved → exec (.save c f) s =
        .next ((s1.takeFault c b 0x04 (v64 (2 ^ 63 + f.rs1.toNat)) (encI 0x13 0 f) false false).getD (s.tsbMiss c b))) ∧
      (restored → exec (.restore c f) s =
        .next ((s1.takeFault c b 0x04 (v64 (2 ^ 63 + f.rs1.toNat)) (encI 0x13 1 f) false false).getD (s.tsbMiss c b))))

/-- R96: RET reads rs1, which must be RETLINK, and goes back down one window, with the check of R49, or within the
current window; another window is TYPE. -/
def Obligations.ReturnFromCall : Prop :=
  ∀ (s s1 : State) (c : Fin 96) (b : Fin 4) (f : TForm) (w : Word),
    let k := s1.bank c b
    let win := bits w.val 50 48
    let type := s1.takeFault c b 0x04 (v64 (2 ^ 63 + f.rs1.toNat)) (encT 0x12 1 f) false false
    Src s1 c b f.rs1.toNat w → Issued s c b (tEnc 0x12 1 f false true false 0) s1 →
    (w.type ≠ tyRETLINK → exec (.ret c f) s = .next (type.getD (s.tsbMiss c b))) ∧
    (w.type = tyRETLINK →
      (win = (k.status.cwp - 1).toNat → k.status.cwp - 1 ≠ k.twp →
        exec (.ret c f) s = .next ((s1.modBank c b fun k => { k with status := { k.status with
          cwp := k.status.cwp - 1 } }).retire c b (.jump (pcOf w.val)))) ∧
      (win = (k.status.cwp - 1).toNat → k.status.cwp - 1 = k.twp →
        exec (.ret c f) s = .next ((s1.takeFault c b 0x0C 0 (encT 0x12 1 f) false false).getD (s.tsbMiss c b))) ∧
      (win = k.status.cwp.toNat → exec (.ret c f) s = .next (s1.retire c b (.jump (pcOf w.val)))) ∧
      (win ≠ (k.status.cwp - 1).toNat → win ≠ k.status.cwp.toNat → exec (.ret c f) s = .next (type.getD (s.tsbMiss c b))))

/-- R95, R118: CALL and a linking JMPL leave a RETLINK with CWP and the address of the next instruction; ESCRET
resumes at ESCPC. R184-R187: a gate call checks the descriptor, opens the next window, leaves the return link and the
stack pointer there and takes the target's level; RETG goes back to user level; R182: RFE restores the level, the
window, P and the mask level from where trap or escalation entry saved them. -/
def Obligations.CallsGatesAndTrapReturn : Prop :=
  (∀ (s s1 : State) (c : Fin 96) (b : Fin 4) (f : TForm) (g : BForm) (x : Val),
     let k := s1.bank c b
     let link := mkWord tyRETLINK (v64 (fld 48 k.status.cwp.toNat + (pcOf (k.pc + 4)).toNat))
     (Issued s c b (bEnc 0x11 0 g false) s1 →
       exec (.call c g) s = .next ((s1.wrReg c b 15 link).retire c b
         (.jump (pcOf (k.pc + g.disp.signExtend 64 * 4))))) ∧
     (∀ (t : Nat) (y : Val), ((t = tyCODE ∧ y = x + 16) ∨ (t = tyRAW ∧ y = x)) → y.toNat < 2 ^ 48 → y.toNat % 4 = 0 →
       Src s1 c b f.rs1.toNat (mkWord t x) → Issued s c b (tEnc 0x12 0 f (f.ext.getLsbD 0) true false 1) s1 →
       exec (.jmpl c f) s = .next ((if f.ext.getLsbD 0 then s1.wrReg c b f.rd.toNat link else s1).retire c b (.jump y))) ∧
     (Issued s c b (tEnc 0x12 5 f false false false 0) s1 →
       exec (.escret c f) s = .next (s1.retire c b (.jump (pcOf k.escpc))))) ∧
  (∀ (s s1 s2 s3 : State) (c : Fin 96) (b : Fin 4) (f : TForm) (a : Val) (pa : Nat) (mt : MemType) (d : List Word) (p v sp : Word),
     let k := s1.bank c b
     let link (x : State) := mkWord tyRETLINK
       (v64 (fld 48 (x.bank c b).status.cwp.toNat + (pcOf ((x.bank c b).pc + 4)).toNat))
     let d0 := (d.getD 0 nilWord).val
     (Issued s c b (tEnc 0x12 2 f false true false 0) s1 → Src s1 c b f.rs1.toNat (mkWord tyGATE a) →
       (s.bank c b).status.lvl = false → a.toNat % 64 = 0 → gateXlate (s.ctx c b) a s1 = .ok (pa, mt) s2 →
       gateWords (s.ctx c b) a pa mt [0, 1, 2, 3, 4, 5, 6, 7] s2 = .ok d s3 → (∀ w ∈ d, w.tag = 0x16) →
       bit d0 63 = true → bits d0 62 56 = 0 → bits d0 50 48 = 0 → bits d0 1 0 = 0 → (d.getD 1 nilWord).val = 0 →
       bits d0 53 51 < 7 →
       (∀ i, i < bits d0 53 51 → Src s3 c b (8 + i) (s3.rdReg c b (8 + i)) ∧
         bit (d.getD (2 + i) nilWord).val (s3.rdReg c b (8 + i)).type = true) →
       (s3.bank c b).status.cwp ≠ (s3.bank c b).twp → (s3.bank c b).status.cwp + 1 ≠ (s3.bank c b).twp →
       (bit d0 55 = false →
         exec (.callg c f) s = .next (((s3.wrReg c b 15 (link s3)).modBank c b fun k => { k with status := { k.status with
           cwp := (s3.bank c b).status.cwp + 1, lvl := bit d0 54 } }).retire c b (.jump (v64 (bits d0 47 0))))) ∧
       (∀ t s4, bit d0 55 = true → bit d0 54 = true → s3.tsbOf c b = some t →
         tsbRead (s.ctx c b) (t + 64) s3 = .ok sp s4 → sp.tag = 0x16 →
         exec (.callg c f) s = .next (((((s4.wrReg c b 15 (link s4)).modBank c b fun k => { k with status := { k.status with
           cwp := (s4.bank c b).status.cwp + 1 } }).wrReg c b 14 (rawWord sp.val)).modBank c b fun k => { k with
             status := { k.status with lvl := true } }).retire c b (.jump (v64 (bits d0 47 0)))))) ∧
     (Issued s c b (tEnc 0x12 3 f false false false 0) s1 → Src s1 c b 31 p → p.type = tyRETLINK →
       bits p.val 50 48 = (k.status.cwp - 1).toNat → k.status.cwp - 1 ≠ k.twp →
       exec (.retg c f) s = .next ((s1.modBank c b fun x =>
         let y : Bank := { x with status := { x.status with cwp := k.status.cwp - 1, lvl := false } }
         if k.status.lvl then clearUser y k.status.cwp else y).retire c b (.jump (pcOf p.val)))) ∧
     (Issued s c b (tEnc 0x12 4 f false false false 0) s1 → p.tag = 0x16 → v.tag = 0x16 →
       bit v.val 31 = k.status.wld → bits v.val 63 32 = 0 → bits v.val 27 25 = 0 → bits v.val 21 19 = 0 →
       bits v.val 15 4 = 0 → p.val.toNat < 2 ^ 48 → p.val.toNat % 4 = 0 →
       let n (x : Bank) : Bank := { x with status := { x.status with
         lvl := bit v.val 30, cwp := BitVec.ofNat 3 (bits v.val 18 16), p := bit v.val 23,
         ml := BitVec.ofNat 4 (bits v.val 3 0) } }
       ((s1.core c).inEsc = true → Tbl.get nilWord (s1.core c).esc 8 = p → Tbl.get nilWord (s1.core c).esc 9 = v →
         exec (.rfe c f) s = .next (((s1.modBank c b fun x =>
           if k.status.lvl && !(bit v.val 30) then clearUser (n x) k.status.cwp else n x).modCore c
             fun x => { x with inEsc := false }).retire c b (.resume p.val))) ∧
       (∀ t, (s1.core c).inEsc = false → s1.tsbOf c b = some t → tsbRead (s.ctx c b) t s1 = .ok p s2 →
         tsbRead (s.ctx c b) (t + 8) s2 = .ok v s3 → (s3.bank c b).status = k.status →
         exec (.rfe c f) s = .next ((s3.modBank c b fun x =>
           if k.status.lvl && !(bit v.val 30) then clearUser (n x) k.status.cwp else n x).retire c b (.resume p.val)))))

/-- R54, R55, R61, R62, R98, R138, R478: MFS writes rd with the register's value and tag, after a multiply or divide
result whose cycle has come; a read of RSPOP also removes the oldest entry, as RSPOP_READ does; a read of PH or PL
before the product has come sets EARLY and returns the old value, and so for QT and RM; MTS writes the register, after
the result. R200, R201: MFB and MTB move a word between a general register and the register of the bank and window
that BANKWIN names, once that bank's scan and flip are done (R144, R156); PRIV where the bank is of the other world.
-/
def Obligations.SpecialRegistersAndBankWindow : Prop :=
  (∀ (s s1 : State) (c : Fin 96) (b : Fin 4) (f : IForm) (w : Word) (n : Nat),
     let e := s1.reg (s1.evcReg c n - 0x40)
     let may (write : Bool) : Prop := srAssigned n = true ∧ ((s.bank c b).status.lvl = true ∨ srSupervisor n = false) ∧
       (srEvc n = true → bit e 18 = (s.bank c b).status.wld ∧
         ((s.bank c b).status.lvl = true ∨ (write = false ∧ bit e 19 = true)))
     let s2 := (s1.settleMD c b).modBank c b fun k =>
       if ((n = 0x08 ∨ n = 0x09) ∧ ∃ p ∈ k.pend, p.div = false) ∨ ((n = 0x0A ∨ n = 0x0B) ∧ ∃ p ∈ k.pend, p.div = true)
       then { k with status := { k.status with early := true } } else k
     n = f.imm.toNat % 256 →
     (may false → Issued s c b (iEnc 0x0F 0 f true false 8) s1 →
       (n ≠ 0x19 → exec (.mfs c f) s =
         .next ((s2.wrReg c b f.rd.toNat ⟨srTag n, s2.srVal c b n⟩).retire c b .fall)) ∧
       (n = 0x19 → exec (.mfs c f) s = .next (((s2.modBank c b fun k => { k with rslog := k.rslog.drop 1 }).wrReg c b
         f.rd.toNat (rawWord (v64 ((s2.bank c b).rslog.headD 0)))).retire c b .fall)) ∧
       (∀ p, (s1.bank c b).pend = [p] → s1.cycle < p.due → p.div = false → (n = 0x08 ∨ n = 0x09) →
         (s2.bank c b).status.early = true ∧ s2.srVal c b n = s1.srVal c b n) ∧
       (∀ p, (s1.bank c b).pend = [p] → p.due ≤ s1.cycle → p.div = false →
         s2.bank c b = { s1.bank c b with ph := p.hi, pl := p.lo, pend := [] })) ∧
     (may true → Issued s c b (iEnc 0x0F 1 f false true 8) s1 → Src s1 c b f.rs1.toNat w →
       (w.type = tyFIX ∨ w.type = tyRAW) →
       (n = 0 → (s.bank c b).status.lvl = true ∨
         (bits w.val 18 16 = (s1.bank c b).status.cwp.toNat ∧ bits w.val 3 0 = (s1.bank c b).status.ml.toNat)) →
       exec (.mts c f) s = .next (((s1.settleMD c b).srWrite c b (s.bank c b).status.lvl n w.val).retire c b .fall)) ∧
     (∃ t, exec (.rspopRead c b) s = .next t ∧
       t.bank c b = { s.bank c b with rslog := (s.bank c b).rslog.drop 1 } ∧ t.mem = s.mem ∧ t.regs = s.regs ∧
       ∀ c' b', (c', b') ≠ ((c : Nat), b) → t.bank c' b' = s.bank c' b')) ∧
  (∀ (s s1 s2 : State) (c : Fin 96) (b t : Fin 4) (f : IForm),
     let v := (s1.coreW c (s.bank c b).status.wld).bankwin
     let i (x : State) := specIx (if bit v 3 then bits v 2 0 else (x.bank c t).status.cwp.toNat) (f.imm.toNat % 32)
     let mfb : Prop := Issued s c b (iEnc 0x0F 2 f true false 5) s1
     let mtb : Prop := Issued s c b (iEnc 0x0F 3 f false true 5) s1
     t.val = bits v 5 4 →
     ((s1.bank c t).status.wld = (s.bank c b).status.wld → (s1.bank c t).scanPend = false → (s1.bank c t).flipPend = false →
       (mfb → exec (.mfb c f) s = .next ((s1.wrReg c b f.rd.toNat (Tbl.get nilWord (s1.bank c t).gr (i s1))).retire c b .fall)) ∧
       (mtb → exec (.mtb c f) s = .next ((s1.modBank c t fun k => { k with
         gr := Tbl.set nilWord k.gr (i s1) (s1.rdReg c b f.rs1.toNat) }).retire c b .fall))) ∧
     ((s1.bank c t).status.wld = (s.bank c b).status.wld → s1.settleBank c t = some s2 →
       (mfb → exec (.mfb c f) s = .next ((s2.wrReg c b f.rd.toNat (Tbl.get nilWord (s2.bank c t).gr (i s2))).retire c b .fall)) ∧
       (mtb → exec (.mtb c f) s = .next ((s2.modBank c t fun k => { k with
         gr := Tbl.set nilWord k.gr (i s2) (s1.rdReg c b f.rs1.toNat) }).retire c b .fall))) ∧
     ((s1.bank c t).status.wld ≠ (s.bank c b).status.wld →
       (mfb → exec (.mfb c f) s =
         .next ((s1.takeFault c b 0x02 0 (encI 0x0F 2 f) false false).getD (s.tsbMiss c b))) ∧
       (mtb → exec (.mtb c f) s =
         .next ((s1.takeFault c b 0x02 0 (encI 0x0F 3 f) false false).getD (s.tsbMiss c b)))))

/-- R177, R50, R172: trap entry with a window and a usable TSB writes the eight words of the TSB, CAUSE and TVAL,
raises LVL and ML, opens the trap window and goes to TRAPENT of the bank's world; no general register changes. R179,
R180: at ML 15, with no trap window, or with an unusable TSB, trap entry is escalation entry: the escalation set holds
the state, LVL and ML rise, CWP stays, the program counter goes to ESCVEC, and neither CAUSE nor TVAL nor memory is
written. -/
def Obligations.TrapAndEscalationEntry : Prop :=
  (∀ (s s1 s2 : State) (c : Nat) (b : Fin 4) (code ilv insn base : Nat) (tval : Val) (due : Bool),
     let k := s1.bank c b
     let st := k.status
     let cause := v64 (fld 16 ilv + fld 8 (b2n st.impp) + code)
     s1 = ((((s.resend c b).abandon c b).modBank c b fun k => { k with resv := none }).drainMD c b) →
     st.ml ≠ 15 → s1.tsbOf c b = some base → st.cwp ≠ k.twp → (∀ e ∈ (s1.core c).sb, e.pa / 64 ≠ base / 64) →
     s1.tsbWrite c st.wld base [k.pc, st.toVal, cause, tval, if st.impp then k.aepc else 0, s1.bout, v64 insn,
       if st.impp then v64 k.impReason else 0] = .ok s2 →
     k.pc = (s.bank c b).pc ∧ k.status = (s.bank c b).status ∧ k.gr = (s.bank c b).gr ∧
     ∃ t, s.trapEntry c b code ilv tval insn due = some t ∧
       t.bank c b = { (s2.bank c b) with
         cause := cause, tval := tval, status := { st with lvl := true, ml := 15, cwp := st.cwp + 1, impp := false },
         pc := (s2.coreW c st.wld).trapent } ∧
       (∀ c' b', (c', b') ≠ (c, b) → t.bank c' b' = s2.bank c' b') ∧ t.mem = s2.mem ∧ t.cores = s2.cores) ∧
  (∀ (s s1 : State) (c : Nat) (b : Fin 4) (code ilv insn why : Nat) (tval : Val) (due : Bool),
     let k := s1.bank c b
     let st := k.status
     s1 = (((s.resend c b).abandon c b).modBank c b fun k => { k with resv := none }) →
     ((st.ml = 15 ∧ why = 1) ∨
      (st.ml ≠ 15 ∧ (s1.drainMD c b).tsbOf c b = none ∧ why = if st.cwp = k.twp then 2 else 3) ∨
      (st.ml ≠ 15 ∧ (∃ a, (s1.drainMD c b).tsbOf c b = some a) ∧ st.cwp = k.twp ∧ why = 2)) →
     ∃ t, s.trapEntry c b code ilv tval insn due = some t ∧
       (t.core c).inEsc = true ∧
       (t.core c).esc = [(8, rawWord k.pc), (9, rawWord st.toVal),
         (10, rawWord (v64 (fld 16 ilv + fld 8 (b2n due) + code))), (11, rawWord tval),
         (12, rawWord (v64 (bits (s1.coreW c st.wld).escstk 47 3 * 8))), (13, rawWord (v64 why))] ∧
       (t.bank c b).status = { st with lvl := true, ml := 15, impp := st.impp && !due } ∧
       (t.bank c b).pc = (s1.coreW c st.wld).escvec ∧ (t.bank c b).cause = k.cause ∧ (t.bank c b).tval = k.tval ∧
       (t.bank c b).gr = k.gr ∧ t.mem = s.mem ∧ ∀ c' b', (c', b') ≠ (c, b) → t.bank c' b' = s1.bank c' b')

/-- R115, R117: an escape of class n goes to ESCBASE + 64 n with ESCPC after the instruction, clears the reservation
and changes no status, no general register and no memory; with no escape table it is the trap ESC_TABLE. R119, R223:
ESCRD and ESCWR read the instruction word at ESCPC − 4 and move a word from and to the register of the field that ext
names; ESCWR does so for a word that is of no GEN type, which a generic routine would take. -/
def Obligations.EscapeEntryAndRegisters : Prop :=
  (∀ (s : State) (c : Nat) (b : Fin 4) (n insn : Nat),
     let k := s.bank c b
     (s.core c).inEsc = false →
     (bits k.escbase 47 12 ≠ 0 →
       ∃ t, s.takeEscape c b n insn = some t ∧
         t.bank c b = { k with
           resv := none, escpc := pcOf (k.pc + 4),
           pc := pcOf (v64 (bits k.escbase 47 12 * 4096 + 64 * n)), wait := none, micro := none, exempt := false } ∧
         t.mem = s.mem ∧ ∀ c' b', (c', b') ≠ (c, b) → t.bank c' b' = s.bank c' b') ∧
     (bits k.escbase 47 12 = 0 → s.takeEscape c b n insn = s.takeFault c b 0x14 (v64 n) insn false false)) ∧
  (∀ (s s1 s2 : State) (c : Fin 96) (b : Fin 4) (f : TForm) (n : Nat) (w r : Word),
     (Issued s c b ⟨encT 0x1B 8 f, f.rs1 != 0 || f.rs2 != 0 || decide (3 ≤ f.ext.toNat)⟩ s1 →
       escSpec (s.ctx c b) f.ext.toNat s1 = .ok n s2 → Src s2 c b n w → await (s.ctx c b) w s2 = .ok r s2 →
       exec (.escrd c f) s = .next ((s2.wrReg c b f.rd.toNat r).retire c b .fall)) ∧
     (Issued s c b ⟨encT 0x1B 9 f, f.rd != 0 || f.rs2 != 0 || decide (3 ≤ f.ext.toNat)⟩ s1 →
       (s1.bank c b).micro = none → Src s1 c b f.rs1.toNat w → await (s.ctx c b) w s1 = .ok r s1 →
       genEntry s1 (s.bank c b).status.wld r = none → escSpec (s.ctx c b) f.ext.toNat s1 = .ok n s2 →
       exec (.escwr c f) s = .next ((s2.wrReg c b n r).retire c b .fall)) ∧
     (∀ (sel : Nat) (x : AgentLine) (iw : Nat),
       let a := pcOf ((s.bank c b).escpc - 4)
       bit (s.bank c b).ttb 0 = false → (s.bank c b).status.lvl = true → s.inDram a.toNat = true →
       a.toNat < 0x0C00000000 → s.agLine c (a.toNat / 64) = some x → x.world = (s.bank c b).status.wld →
       s.mem.upL2.contains (c.val, a.toNat / 64) = false → s.mem.upL1.contains (c.val, a.toNat / 64, 0) = false →
       ((s.core c).l1i.any fun l => l.gran == a.toNat / 64 && l.world == (s.bank c b).status.wld &&
         (s.l1Ways c true).contains l.way) = true →
       x.line.poison = false → (x.line.word (a.toNat / 8 % 8)).tag = 0x16 → a.toNat % 4 = 0 →
       iw = (if a.toNat % 8 = 4 then bits (x.line.word (a.toNat / 8 % 8)).val 63 32
         else bits (x.line.word (a.toNat / 8 % 8)).val 31 0) →
       (sel = 0 → escSpec (s.ctx c b) sel s = .ok (iw / 2 ^ 21 % 32) s) ∧
       (sel = 1 → escSpec (s.ctx c b) sel s = .ok (iw / 2 ^ 16 % 32) s) ∧
       (sel = 2 → escSpec (s.ctx c b) sel s = .ok (iw / 2 ^ 11 % 32) s)))

/-- R239, R240, R305: a barrier retires when what it waits for holds and otherwise makes the bank wait with WCAUSE 6;
when the condition comes to hold, the wait ends and BEVT bit 2 is set, through the latch of a pair that is not split.
R100, R270, R278, R280, R281: the cache maintenance instructions on an address of DRAM with translation off at the
supervisor level, aligned or not (the model's, log entry 147). CWB.A leaves no modified data of the granule in L3 and
the owner, if it held M, in E; CINV.A leaves the granule in no agent that the directory names and in no L3 array; both
leave a request at the home of a blocked line, wait for an own miss, and are a violation in a granule of another
owner. CLOCK.A of a granule that the core holds locks it, ILLEGAL where eight others of the set are locked; CUNLK.A
unlocks. -/
def Obligations.BarriersAndCacheMaintenance : Prop :=
  (∀ (s s1 : State) (c : Fin 96) (b : Fin 4) (f : TForm),
     let mine (e : SBEntry) : Prop := e ∈ (s1.core c).sb ∧ e.bank = b
     let noStores : Prop := ∀ e, mine e → e.mt ≠ .cacheable ∧ e.mt ≠ .uncached
     let allLocal : Prop := ∀ e, ¬ mine e
     let allDone : Prop := allLocal ∧ ∀ p ∈ s1.fab.ott, p.2.busy = true → s1.rep p.2.core = c → p.2.bank ≠ b.val
     let bar (i : Instr) (func kind : Nat) (p : Prop) : Prop :=
       let e := tEnc 0x0D func f false false false 0
       Issued s c b e s1 →
         (p → exec i s = .next (s1.retire c b .fall)) ∧
         (¬ p → exec i s = .next (s1.enterWait c b
           { cause := 6, key := kind, iw := some e.word, gr := some (s.bank c b).opGr }))
     bar (.barCO c f) 0 0 True ∧ bar (.barCE c f) 1 2 allLocal ∧ bar (.barKO c f) 2 1 noStores ∧
     bar (.barKE c f) 3 2 allLocal ∧ bar (.barDO c f) 4 2 allLocal ∧ bar (.barDE c f) 5 2 allLocal ∧
     bar (.barSO c f) 6 3 allDone ∧ bar (.barSE c f) 7 3 allDone ∧
     (∀ w, (s.bank c b).wait = some w → w.cause = 6 → w.slot = 0 → w.done = false →
       (s.barrierDone c b w.key = true → s.pairMode (pairOf c) = 0 →
         exec (.barrierRelease c b) s = .next (s.modBank c b fun k => (k.wake .none).addEvt 2)) ∧
       (s.barrierDone c b w.key = true → s.pairMode (pairOf c) ≠ 0 →
         exec (.barrierRelease c b) s = .next (s.modPair (pairOf c) fun p => { p with
           latch := p.latch ++ [.waitDone b .none, .bevt b 2] })) ∧
       (s.barrierDone c b w.key = false → exec (.barrierRelease c b) s = .next s)) ∧
     ((s.bank c b).wait = none → exec (.barrierRelease c b) s = .next s)) ∧
  (∀ (s : State) (c : Fin 96) (b : Fin 4) (f : TForm) (w : Word),
     let wld := (s.bank c b).status.wld
     let pa := w.val.toNat
     let g := pa / 64
     let same := (s.core c).locks.filter fun x => x % 1024 == g % 1024
     let issued (func : Nat) : Prop := Issued s c b (tEnc 0x0D func f false true false 0) s
     Src s c b f.rs1.toNat w → (s.isPtr w.type = true ∨ w.type = tyRAW) → bit (s.bank c b).ttb 0 = false →
     (s.bank c b).status.lvl = true → s.inDram pa = true → pa < 0x0C00000000 →
     ((∀ e ∈ (s.core c).sb, e.bank = b → e.pa / 64 ≠ g) →
       (s.fenceOwner pa ≠ wn wld →
         (issued 8 → exec (.cwbA c f) s = .next (s.freezeCore c b vFENCEDATA w.val)) ∧
         (issued 9 → exec (.cinvA c f) s = .next (s.freezeCore c b vFENCEDATA w.val))) ∧
       (s.fenceOwner pa = wn wld → s.missOut c g = false → s.busyLine g = true →
         (issued 8 → exec (.cwbA c f) s = .next (s.sendMiss ⟨g, c, .cwb, wld⟩)) ∧
         (issued 9 → exec (.cinvA c f) s = .next (s.sendMiss ⟨g, c, .cinv, wld⟩))) ∧
       (s.fenceOwner pa = wn wld → s.missOut c g = true →
         (issued 8 → exec (.cwbA c f) s = .next s) ∧ (issued 9 → exec (.cinvA c f) s = .next s)) ∧
       (s.fenceOwner pa = wn wld → s.missOut c g = false → s.busyLine g = false → s.deferred c g = false →
         (issued 8 → ∃ t : State, exec (.cwbA c f) s = .next (t.retire c b .fall) ∧
           (∀ l, t.l3Line g = some l → l.dirty = false) ∧ t.banks = s.banks) ∧
         (issued 9 → ∃ t : State, exec (.cinvA c f) s = .next (t.retire c b .fall) ∧
           (∀ a ∈ ((s.settle g).dirE g).pv, t.agLine a g = none) ∧ t.l3Line g = none ∧ t.banks = s.banks))) ∧
     (issued 11 → exec (.cunlkA c f) s =
       .next ((s.modCore c fun x => { x with locks := x.locks.filter (· != g) }).retire c b .fall)) ∧
     (∀ x, issued 10 → s.agLine c g = some x → x.world = wld → s.mem.upL2.contains (c, g) = false →
       s.mem.upL1.contains (c, g, 1) = false →
       ((s.core c).l1d.any fun l => l.gran == g && l.world == wld && (s.l1Ways c false).contains l.way) = true →
       x.line.poison = false →
       ((g ∈ (s.core c).locks ∨ same.length < 8) →
         exec (.clockA c f) s = .next ((s.modCore c fun x => { x with
           locks := if x.locks.contains g then x.locks else x.locks ++ [g] }).retire c b .fall)) ∧
       (g ∉ (s.core c).locks → 8 ≤ same.length →
         exec (.clockA c f) s =
           .next ((s.takeFault c b 0x01 0 (encT 0x0D 10 f) false false).getD (s.tsbMiss c b)))))

/-- R263, R264, R265: TLBINV, TLBLOCK and TLBUNLK wait until the bank's stores are performed, send a broadcast that
every enabled core with entries of its own and every Winnower has still to acknowledge, and make the bank wait with
WCAUSE 6; when the wait is over the instruction retires. A kind 3 broadcast carries the lockable entries that go.
R263, R264, R265, R305: an agent that receives a broadcast drops the matching unlocked entries and acknowledges unless
a core that is not frozen still holds a store made through an entry that goes; on a pair in hand-over or yoked a
core's broadcast goes through the latch; when every acknowledgement is in, the broadcast is gone and the wait of the
sender ends with BEVT bit 2. -/
def Obligations.TlbMaintenance : Prop :=
  (∀ (s s1 s2 : State) (c : Fin 96) (b : Fin 4) (f : TForm) (w v a : Word) (t : TlbEntry) (i : Nat),
     let quiet (x : State) : Prop := ∀ e ∈ (x.core c).sb, e.bank ≠ b
     let wld := (s.bank c b).status.wld
     let ended : Prop := ∃ r, (s1.bank c b).wait = some r ∧ r.cause = 6 ∧ r.slot = 1 ∧ r.done = true
     let e (func : Nat) : Enc := tEnc 0x0E func f false (func != 0) (decide (2 ≤ func)) 0
     let sent (x : State) (func kind : Nat) (asid : BitVec 16) (va : Nat) (freed : List TlbEntry) : State :=
       let m : TlbBcast := ⟨kind, wld, asid, va, c, b.val, bcastAgents x, [], freed⟩
       ({ x with nextBcast := x.nextBcast + 1, bcasts := Tbl.set none x.bcasts x.nextBcast (some m) } : State).enterWait c b
         { cause := 6, slot := 1, key := x.nextBcast, iw := some (e func).word, gr := some (s.bank c b).opGr }
     let page (x : TlbEntry) : Bool := x.vpn == a.val.toNat / x.size && x.asid == v.val.setWidth 16
     let gone := lockSlots s1 wld page
     let asid (x : Word) : Prop := (x.type = tyFIX ∨ x.type = tyRAW) ∧ x.val.toNat < 2 ^ 16
     (ended →
       (Issued s c b (e 0) s1 → exec (.tlbinvAll c f) s = .next (s1.retire c b .fall)) ∧
       (Issued s c b (e 1) s1 → exec (.tlbinvAsid c f) s = .next (s1.retire c b .fall)) ∧
       (Issued s c b (e 2) s1 → exec (.tlbinvVa c f) s = .next (s1.retire c b .fall)) ∧
       (Issued s c b (e 3) s1 → exec (.tlblock c f) s = .next (s1.retire c b .fall)) ∧
       (Issued s c b (e 4) s1 → exec (.tlbunlk c f) s = .next (s1.retire c b .fall))) ∧
     (¬ ended → quiet s1 →
       (Issued s c b (e 0) s1 → exec (.tlbinvAll c f) s = .next (sent s1 0 0 0 0 [])) ∧
       (Issued s c b (e 1) s1 → Src s1 c b f.rs1.toNat w → asid w →
         exec (.tlbinvAsid c f) s = .next (sent s1 1 1 (w.val.setWidth 16) w.val.toNat [])) ∧
       (Src s1 c b f.rs1.toNat a → (s1.isPtr a.type = true ∨ a.type = tyRAW) → Src s1 c b f.rs2.toNat v → asid v →
         (Issued s c b (e 2) s1 →
           exec (.tlbinvVa c f) s = .next (sent s1 2 2 (v.val.setWidth 16) a.val.toNat [])) ∧
         (Issued s c b (e 3) s1 → lockWalk (s.ctx c b) a.val (v.val.setWidth 16) s1 = .ok (i, t) s2 →
           exec (.tlblock c f) s = .next (sent { s2 with
             lockTlb := Tbl.set none s2.lockTlb (8 * wn wld + i) (some t) } 3 3 (v.val.setWidth 16) a.val.toNat
               (lockGone s2 wld [i]))) ∧
         (Issued s c b (e 4) s1 →
           ∃ s3 : State, (∀ i, i < 8 →
               Tbl.get none s3.lockTlb (8 * wn wld + i) = (match Tbl.get none s1.lockTlb (8 * wn wld + i) with
                 | some e => if page e then none else some e
                 | none => none)) ∧ s3.banks = s1.banks ∧ s3.mem = s1.mem ∧ s3.regs = s1.regs ∧
             exec (.tlbunlk c f) s =
               .next (sent s3 4 3 (v.val.setWidth 16) a.val.toNat (lockGone s1 wld gone)))))) ∧
  (∀ (s : State) (a : Fin 108) (id : Nat) (x : TlbBcast),
     let made (e : SBEntry) : Prop := ∃ t, e.tr = some t ∧ (x.removes t = true ∨ t ∈ x.freed)
     let left (l : List TlbEntry) : List TlbEntry := l.filter fun e => !(x.removes e)
     let p := pairOf a.val
     Tbl.get none s.bcasts id = some x →
     (a.val < 96 → s.pairMode p ≠ 1 → s.pairMode p ≠ 2 → a.val ∈ x.waiting →
       ∃ t y, exec (.tlbinvReceive a id) s = .next t ∧ Tbl.get none t.bcasts id = some y ∧
         (t.core a.val).itlb = left (s.core a.val).itlb ∧ (t.core a.val).dtlb = left (s.core a.val).dtlb ∧
         (t.core a.val).l2tlb = left (s.core a.val).l2tlb ∧ t.lockTlb = s.lockTlb ∧ t.banks = s.banks ∧ t.mem = s.mem ∧
         (((s.core a.val).frozen = true ∨ ∀ e ∈ (s.core a.val).sb, ¬ made e) → a.val ∉ y.waiting) ∧
         ((s.core a.val).frozen = false → (∃ e ∈ (s.core a.val).sb, made e) → y.waiting = x.waiting ∧ a.val ∈ y.received)) ∧
     (96 ≤ a.val → a.val ∈ x.waiting →
       ∃ t y, exec (.tlbinvReceive a id) s = .next t ∧
         Tbl.get [] t.gc.tlb (a.val - 96) = left (Tbl.get [] s.gc.tlb (a.val - 96)) ∧
         Tbl.get none t.bcasts id = some y ∧ a.val ∉ y.waiting ∧ t.banks = s.banks ∧ t.mem = s.mem) ∧
     (a.val < 96 → (s.pairMode p = 1 ∨ s.pairMode p = 2) →
       ∃ t, exec (.tlbinvReceive a id) s = .next t ∧ .tlbinv id ∈ (t.pair p).latch ∧
         t.cores = s.cores ∧ t.banks = s.banks ∧ t.bcasts = s.bcasts) ∧
     (x.waiting = [] → x.bank < 4 →
       ∃ t, exec (.tlbinvAcknowledged id) s = .next t ∧ Tbl.get none t.bcasts id = none ∧
         (∀ w, let b : Fin 4 := Fin.ofNat 4 x.bank
           (s.bank x.core b).wait = some w → w.cause = 6 → w.slot = 1 → w.key = id → w.done = false →
           (s.pairMode (pairOf x.core) = 0 →
             t.bank x.core b = ((s.bank x.core b).wake .none).addEvt 2) ∧
           (s.pairMode (pairOf x.core) ≠ 0 → t.banks = s.banks ∧
             (t.pair (pairOf x.core)).latch = (s.pair (pairOf x.core)).latch ++ [.waitDone b .none, .bevt b 2]))) ∧
     (x.waiting ≠ [] → exec (.tlbinvAcknowledged id) s = .next s))

/-- R298, R299, R300, R301, R302, R311: YOKE.ON on an even core of a split pair that may yoke starts the hand-over,
whose first failing condition is the YOKE reason; YOKE.OFF, run by both cores of a yoked pair, starts the release; the
yoke tick, in the cycle in which TIMEC reaches a multiple of 256, sets TIMEL and completes either once the stores have
drained: the pair is yoked with YK in every bank and the hand-over counted, or split with the odd bank Ready at the
start address. R296, R297, R302, R307: an instruction of a yoked pair runs on both cores. Where one of them must wait
for a line, the pair is left as it is. Where both retire, or both take one fault, and the compared items are equal,
both results stand; where an item differs, nothing of the instruction does, the pair halts with the first difference
recorded, and FAULT_N goes low where the pair asks for it. -/
def Obligations.Yoking : Prop :=
  (∀ (s s1 : State) (c : Fin 96) (p : Fin 48) (b : Fin 4) (f : TForm) (x y : Val) (t : Nat),
     let odd := 2 * (c.val / 2) + 1
     let able (k : Fin 4) : Prop := ((s1.bank odd k).st = 0 ∨ (s1.bank odd k).st = 5 ∨ 6 ≤ (s1.bank odd k).st ∨
       ((s1.bank odd k).st = 4 ∧ (s1.bank odd k).status.wld = (s.bank c b).status.wld))
     let fails (why : Nat) : Prop := exec (.yokeOn c f) s =
       .next ((s1.takeFault c b 0x16 (v64 why) (encT 0x15 0 f) false false).getD (s.tsbMiss c b))
     let off := tEnc 0x15 1 f false true false 0
     (Issued s c b (tEnc 0x15 0 f false false false 0) s1 → (s1.core c).inEsc = false →
       (c.val % 2 = 1 → fails 1) ∧
       (c.val % 2 = 0 → s1.pairMode (c.val / 2) ≠ 0 → fails 2) ∧
       (c.val % 2 = 0 → s1.pairMode (c.val / 2) = 0 →
         (bit (s1.feat c b 0x38) 16 = false ∨ bit (s1.reg (pairBase (c.val / 2) + 8)) 0 = false) → fails 3) ∧
       (c.val % 2 = 0 → s1.pairMode (c.val / 2) = 0 → bit (s1.feat c b 0x38) 16 = true →
         bit (s1.reg (pairBase (c.val / 2) + 8)) 0 = true → (¬ ∀ k, able k) → fails 4) ∧
       (c.val % 2 = 0 → s1.pairMode (c.val / 2) = 0 → bit (s1.feat c b 0x38) 16 = true →
         bit (s1.reg (pairBase (c.val / 2) + 8)) 0 = true → (∀ k, able k) →
         ((s1.core odd).frozen = false → (s1.core odd).pg = false → (s1.core odd).halted = false →
           exec (.yokeOn c f) s = .next ((s1.setPairMode (c.val / 2) 1).modPair (c.val / 2) fun z => { z with
             handover := some b })) ∧
         (((s1.core odd).frozen || (s1.core odd).pg || (s1.core odd).halted) = true → fails 5))) ∧
     (((t = tyCODE ∧ y = x + 16) ∨ (t = tyRAW ∧ y = x)) → y.toNat < 2 ^ 48 → y.toNat % 4 = 0 →
       (Issued s c b off s1 → Src s1 c b f.rs1.toNat (mkWord t x) → exec (.yokeOff c f) s =
         .next ((s1.takeFault c b 0x16 (v64 2) (encT 0x15 1 f) false false).getD (s.tsbMiss c b))) ∧
       (s.issuable c = some b → s.pendingItem c b = none → s.pairMode (pairOf c) = 2 →
         let s2 := s.freeVal.2
         let o := s2.oddView (pairOf c)
         let cx := s.ctx c b
         let cx' : Ctx := { cx with skew := timecSkew s.freeVal.1 }
         prelude cx off s2 = .ok () s2 → prelude cx' off o = .ok () o → kindOne s2 c (keyOf off.word) = none →
         kindOne o c (keyOf off.word) = none → Src s2 c b f.rs1.toNat (mkWord t x) →
         ∃ u, exec (.yokeOff c f) s = .next u ∧ (u.pair (pairOf c)).release = some (b, y) ∧ u.banks = s.banks ∧
           u.mem = s.mem ∧ u.regs = s.regs ∧ u.core c = s.core c)) ∧
     (s.cycle % 256 ≠ 0 → exec (.yokeTick p) s = .next s) ∧
     (s.cycle % 256 = 0 → ∃ t, exec (.yokeTick p) s = .next t ∧ (t.pair p).timel = v64 s.cycle ∧
       (s.pairMode p ≠ 1 → s.pairMode p ≠ 2 → t.cores = s.cores ∧ t.banks = s.banks ∧ t.regs = s.regs ∧ t.mem = s.mem) ∧
       (s.pairMode p = 2 → (s.pair p).release = none → (s.pair p).latch = [] → t.cores = s.cores ∧ t.banks = s.banks) ∧
       ((s.core (2 * p.val)).sb ≠ [] → s.pairMode p = 1 → t.cores = s.cores ∧ t.banks = s.banks ∧ t.regs = s.regs) ∧
       (∀ k, s.pairMode p = 1 → (s.pair p).handover = some k → (s.core (2 * p.val)).sb = [] →
         (s.core (2 * p.val + 1)).sb = [] → (s.pair p).latch = [] →
         t.pairMode p = 2 ∧ (t.pair p).handover = none ∧ (∀ i, (t.bank (2 * p.val) i).status.yk = true) ∧
           (t.bank (2 * p.val) k).pc = pcOf ((s.bank (2 * p.val) k).pc + 4)) ∧
       (∀ k v, s.pairMode p = 2 → (s.pair p).release = some (k, v) → (s.core (2 * p.val)).sb = [] → (s.pair p).latch = [] →
         t.pairMode p = 0 ∧ (t.pair p).release = none ∧ (∀ i, (t.bank (2 * p.val) i).status.yk = false) ∧
           (t.bank (2 * p.val + 1) k).st = 1 ∧ (t.bank (2 * p.val + 1) k).pc = v ∧
           (t.bank (2 * p.val) k).pc = pcOf ((s.bank (2 * p.val) k).pc + 4)))) ∧
  (∀ (s t t' : State) (c : Fin 96) (b : Fin 4) (i : Instr) (e : Enc) (body : Ctx → M Flow) (f f' : Flow) (item : Nat) (x y : Word),
     let p := pairOf c
     let u := s.freeVal.2
     let even := insn (s.ctx c b) e body u
     let odd := insn { s.ctx c b with skew := timecSkew s.freeVal.1 } e body (u.oddView p)
     let a := t.retire c b f
     let a' := t'.retire c b f'
     let v := s.yokeMismatch p item b x y
     let o := pairBase p
     (exec i s = runInstr s c e body → s.issuable c = some b → s.pendingItem c b = none → s.pairMode p = 2 →
       (even = .error .stall t → exec i s = .next s) ∧
       (even = .ok f t → odd = .error .stall t' → exec i s = .next s) ∧
       (even = .ok f t → odd = .ok f' t' →
         (compareRuns c b a a' = none → exec i s = .next (a.keepOdd p b a')) ∧
         (compareRuns c b a a' = some (item, x, y) → exec i s = .next (u.yokeMismatch p item b x y))) ∧
       (∀ code tval v v', even = .error (.trap code tval) t → odd = .error (.trap code tval) t' →
         t.takeFault c b code tval e.word false false = some v → t'.takeFault c b code tval e.word false false = some v' →
         compareRuns c b v v' = none → exec i s = .next (v.keepOdd p b v'))) ∧
     compareRuns c b s s = none ∧
     (∀ k, k < 136 → Tbl.get nilWord (t.bank c b).gr k ≠ Tbl.get nilWord (t'.bank c b).gr k →
       ∃ z w, compareRuns c b t t' = some (1, z, w) ∧ z ≠ w) ∧
     ((t.bank c b).gr = (t'.bank c b).gr → (t.core c).esc = (t'.core c).esc → (t.core c).sb = (t'.core c).sb →
       (∀ n, t.srVal c b n = t'.srVal c b n) → (t.bank c b).pc ≠ (t'.bank c b).pc →
       compareRuns c b t t' = some (5, rawWord (t.bank c b).pc, rawWord (t'.bank c b).pc)) ∧
     (v.pairMode p = 3 ∧ v.mem = s.mem ∧ v.fab = s.fab ∧ v.reg (o + 0x18) = x.val ∧ v.reg (o + 0x20) = y.val ∧
       v.reg (o + 0x28) = v64 (fld 8 y.tag.toNat + x.tag.toNat) ∧ v.reg (o + 0x30) = s.bout ∧
       v.pins.faultN = (s.pins.faultN && !(bit (s.reg (o + 8)) 1))))

/-- R103, R176, R195, R208: WAITE takes the lowest pending event of its mask or waits; ASYNC completes the bank's
products and reports a pending imprecise exception; DISPATCHSYNC reloads the core's dispatch copy. R202, R170: ICSIG
by a core of the target's world sets the sender's bit of ICPEND, the Reeve's write does nothing; DBELL by the Reeve
sets IPEND.DB, a core's write does nothing; a core of the other world freezes. -/
def Obligations.EventsAndSignals : Prop :=
  (∀ (s s1 : State) (c : Fin 96) (b : Fin 4) (f : TForm) (g : IForm) (j : Nat),
     let held (key : Nat) (p : Nat × Val) : Prop :=
       rDENT 0 ≤ p.1 ∧ p.1 < rDENT 1024 ∧ (p.1 - rDENT 0) / 8 = key
     (Issued s c b (iEnc 0x15 2 g true false 4) s1 →
       (g.imm.toNat % 16 = 0 → exec (.waite c g) s =
         .next ((s1.takeFault c b 0x01 0 (encI 0x15 2 g) false false).getD (s.tsbMiss c b))) ∧
       (g.imm.toNat % 16 ≠ 0 → (s1.bank c b).bevt.toNat &&& (g.imm.toNat % 16) = 0 →
         exec (.waite c g) s = .next (s1.enterWait c b
           { cause := 1, mask := g.imm.toNat % 16, iw := some (encI 0x15 2 g), gr := some (s.bank c b).opGr })) ∧
       (j < 4 → g.imm.toNat.testBit j = true → (s1.bank c b).bevt.getLsbD j = true →
         (∀ i, i < j → g.imm.toNat.testBit i = false ∨ (s1.bank c b).bevt.getLsbD i = false) →
         exec (.waite c g) s = .next (((s1.modBank c b fun k => { k with bevt := k.bevt &&& ~~~(1#4 <<< j) }).wrReg c b
           g.rd.toNat (fixWord (v64 (2 ^ j)))).retire c b .fall))) ∧
     (Issued s c b (tEnc 0x15 3 f false false false 0) s1 →
       ((s1.bank c b).status.impp = false →
         exec (.async c f) s = .next ((s1.drainMD c b).retire c b .fall) ∧
         (((s1.drainMD c b).retire c b .fall).bank c b).pend = []) ∧
       ((s1.bank c b).status.impp = true → (s1.core c).inEsc = false →
         exec (.async c f) s = .next (((s1.drainMD c b).takeFault c b 0x05
           (v64 (s1.bank c b).impReason) (encT 0x15 3 f) true true).getD (s.tsbMiss c b)))) ∧
     (Issued s c b (tEnc 0x15 4 f false false false 0) s1 →
       ∃ t, exec (.dispatchsync c f) s = .next t ∧ t.regs = ((s1.dispatchLoad c).retire c b .fall).regs ∧
         (∀ key, key < 1024 → (∀ p ∈ s1.regs, ¬ held key p) →
           t.dentV c key = (assignedFuncs (key / 16)).contains (key % 16)) ∧
         (∀ key v, key < 1024 → (∀ p ∈ s1.regs, held key p → p.2 = v) → (∃ p ∈ s1.regs, held key p) →
           t.dentV c key = (bit v 31 && bits v 29 28 != 3) ∧ t.dentS c key = bit v 30))) ∧
  (∀ (s : State) (r : RegSrc) (x : Who) (c : Fin 96) (w : Fin 2) (v : Val),
     let wr := worldRegs c w
     (s.whoOf r = none → exec (.icsigWrite r c w v) s = .next s ∧ exec (.dbellWrite r c w v) s = .next s) ∧
     (s.whoOf r = some x → s.coreEnabled c = true → s.oddBound c = false →
       (x.reeve = false → x.w ≠ (w.val == 1) →
         exec (.icsigWrite r c w v) s = .next (s.freezeCore x.c x.b 0x05 (v64 (wr + 0x28))) ∧
         exec (.dbellWrite r c w v) s = .next (s.freezeCore x.c x.b 0x05 (v64 (wr + 0x30)))) ∧
       (x.reeve = true → exec (.icsigWrite r c w v) s = .next s) ∧
       (x.reeve = false → x.w = (w.val == 1) → exec (.dbellWrite r c w v) s = .next s) ∧
       (x.reeve = false → x.w = (w.val == 1) → x.c < 96 → s.pairMode (c.val / 2) = 0 →
         ∃ t, exec (.icsigWrite r c w v) s = .next t ∧ t.banks = s.banks ∧ t.cores = s.cores ∧ t.mem = s.mem ∧
           (s.rep x.c < 64 → bit (t.reg (wr + 0x10)) (s.rep x.c) = true ∧ ∀ i, i < 64 → i ≠ s.rep x.c →
             bit (t.reg (wr + 0x10)) i = bit (s.reg (wr + 0x10)) i) ∧
           (64 ≤ s.rep x.c → bit (t.reg (wr + 0x18)) (s.rep x.c - 64) = true)) ∧
       (x.reeve = true → bit v 0 = false → exec (.dbellWrite r c w v) s = .next s) ∧
       (x.reeve = true → bit v 0 = true → s.pairMode (c.val / 2) = 0 →
         ∃ t, exec (.dbellWrite r c w v) s = .next t ∧ bit (t.reg (wr + 8)) 0 = true ∧
           bit (t.reg (wr + 8)) 1 = bit (s.reg (wr + 8)) 1 ∧ t.banks = s.banks ∧ t.cores = s.cores ∧ t.mem = s.mem)))

/-- R135, R136, R225, R226: PLOTSYNC writes the entry of a plot of its world when the change is one that the phase
allows; WCS finishes at COUNT 0 and otherwise commits one target of its world's share in all copies, with both
progress registers. -/
def Obligations.PlotsAndControlStore : Prop :=
  ∀ (s s1 s2 : State) (c : Fin 96) (b : Fin 4) (f : TForm) (n j : Nat) (e d : Val) (a w : Word) (xs : List Val),
    let wld := (s.bank c b).status.wld
    (Issued s c b (tEnc 0x15 5 f false true true 0) s1 → Src s1 c b f.rs1.toNat (fixWord (v64 n)) → n < 32768 →
      Src s1 c b f.rs2.toNat (rawWord e) → bit (s1.reg (rPLOT n)) 8 = wld → bit e 8 = wld →
      bits e 63 32 = 0 → bit e 30 = false → bits e 23 20 = 0 → bits e 15 10 = 0 → bits e 7 5 = 0 → bits e 19 16 ≤ 11 →
      bit (s1.reg (wnwBase (bits e 19 16))) 1 = true →
      (plotChangeOk (s1.gcPhase wld) (s1.reg (rPLOT n)) e = true →
        exec (.plotsync c f) s = .next ((s1.setReg (rPLOT n) e).retire c b .fall) ∧
        (s1.setReg (rPLOT n) e).plotState n = bits e 1 0) ∧
      (plotChangeOk (s1.gcPhase wld) (s1.reg (rPLOT n)) e = false → exec (.plotsync c f) s =
        .next ((s1.takeFault c b 0x04 (v64 (2 ^ 63 + f.rs2.toNat)) (encT 0x15 5 f) false false).getD (s.tsbMiss c b)))) ∧
    (∀ (old new : Val) (phase : Nat), bits old 1 0 = 3 ∨ bits new 1 0 = 3 → plotChangeOk phase old new = false) ∧
    (Issued s c b (tEnc 0x15 6 f false true true 0) s1 → bit (s1.reg rCSGRANT) (wn wld) = true →
      Src s1 c b f.rs1.toNat (fixWord d) → Src s1 c b f.rs2.toNat w → await (s.ctx c b) w s1 = .ok a s1 →
      (s1.isPtr a.type = true ∨ a.type = tyRAW) →
      bits d 63 48 = 0 → bits d 31 18 = 0 → bits d 15 14 = 0 →
      (bits d 47 32 = 0 → exec (.wcs c f) s = .next (s1.retire c b .fall)) ∧
      (bits d 47 32 ≠ 0 → targetShare (bits d 17 16) (bits d 13 0) = some j → shareOwner s1 j = 1 + wn wld →
        wcsWords (s.ctx c b) (if bits d 17 16 = 1 then 3 else 1) a.val s1 = .ok xs s2 →
        loadOk s2 (1 + wn wld) (bits d 17 16) (bits d 13 0) xs = true →
        exec (.wcs c f) s = .next ((((s2.csWrite (bits d 17 16) (bits d 13 0) xs).wrReg c b f.rs1.toNat
          (fixWord (v64 (fld 32 (bits d 47 32 - 1) + fld 16 (bits d 17 16) + (bits d 13 0 + 1) % 2 ^ 14)))).wrReg c b
          f.rs2.toNat (rawWord (a.val + v64 (8 * (if bits d 17 16 = 1 then 3 else 1))))).retire c b .again)))

/-- R102, R319, R320, R321, R329, R335: a BSEND from a bank with a source bin numbers its message, hands it to the
engine of a bin of this module or sends it to another node, and waits with WCAUSE 2; the answer goes to rd, and a bin
of this module that is not Active answers at once. BRECV and BPEEK give NIL on an empty ring, otherwise BRECV copies
the oldest message, advances RD and gives its MSGHDR, and BPEEK only gives it; BCRED gives credit and room. -/
def Obligations.BinInstructions : Prop :=
  ∀ (s s1 s2 s3 s4 s5 : State) (c : Fin 96) (b : Fin 4) (f : TForm) (d : Val) (r a h : Word) (sb ix : Nat)
    (ws : List Word) (q : BitVec 16),
    let wld := (s.bank c b).status.wld
    let cx := s.ctx c b
    let n := bits r.val 11 0
    let node := bits r.val 63 48
    let waits (key : Nat) : WaitRec := { cause := 2, key := key, slot := 2 + sb }
    let enters (x : State) (k : WaitRec) : State :=
      x.enterWait c b { k with iw := some (encT 0x14 0 f), gr := some (s.bank c b).opGr }
    Src s1 c b f.rs1.toNat r → r.type = tyBINREF →
    (Issued s c b (tEnc 0x14 0 f true true true 0) s1 → Src s1 c b f.rd.toNat (fixWord d) → Src s1 c b f.rs2.toNat a →
      (s1.isPtr a.type = true ∨ a.type = tyRAW) →
      (∀ k v, (s1.bank c b).wait = some k → k.cause = 2 → 2 ≤ k.slot → k.done = true → k.res = .answer v →
        exec (.bsend c f) s = .next ((s1.wrReg c b f.rd.toNat v).retire c b .fall)) ∧
      ((s1.bank c b).wait = none → bits d 63 14 = 0 → s1.sourceBin c b.val = some sb →
        msgWords cx (bits d 13 8) (a.val + 8) s1 = .ok ws s2 →
        (node = s2.srcNode ∧ s2.binWld n = wld ∨ firstKept s2 (a.val + 8) ws = none) →
        s2.takeSeq sb = (q, s3) →
        let m := State.msgHdr s3.srcNode sb q (bits d 13 8 + 1) (bits d 7 0) :: ws
        let x := s3.modBank c b fun k => { k with wait := some (waits (2 ^ 17)) }
        (node = s2.srcNode → s3.binState n = 1 →
          exec (.bsend c f) s = .next (enters { x with bins := { x.bins with
            flight := x.bins.flight ++ [⟨n, s3.srcNode, sb, false, q, m, wld, .bank c b, false⟩] } } (waits (2 ^ 17)))) ∧
        (node = s2.srcNode → s3.binState n ≠ 1 → s3.pairMode (pairOf c) = 0 → (s3.bank c b).st = 2 →
          ∃ t, exec (.bsend c f) s = .next t ∧ (t.bank c b).wait = none ∧ (t.bank c b).pc = pcOf ((s3.bank c b).pc + 4) ∧
            (specLoc (s3.core c).inEsc (s3.bank c b).status.cwp.toNat f.rd.toNat = .gr ix →
              Tbl.get nilWord (t.bank c b).gr ix =
                fixWord (v64 ((if s3.binState n = 4 then 4 else 3) * 65536)))) ∧
        (node ≠ s2.srcNode → s2.storesOut c b.val node = false → s2.fabUp = true → s2.freeOtt = some ix →
          let e : Ott := { busy := true, node := node, vc := 2, core := c, bank := b.val, world := wld, kind := 7, ref := r }
          s4 = (((s3.setOtt ix e).countEvent c 13 1).modBank c b fun x => { x with wait := some (waits ix) }).originate node ix
            (mkPacket s3.srcNode node pMSG false wld (mkTtag c b.val ix) r (rawWord 0) m) →
          sendAnswer (s4.bank c b) = none →
          exec (.bsend c f) s = .next (enters s4 (waits ix))))) ∧
    ((node = s1.srcNode ∧ s1.binWld n = wld ∧ s1.binState n ≠ 0) →
      (s1.binCore n = c.val → s1.binBank n = b.val →
        (Issued s c b (tEnc 0x14 1 f true true true 0) s1 → Src s1 c b f.rs2.toNat a →
          (s1.isPtr a.type = true ∨ a.type = tyRAW) → a.imm = false →
          (s1.binUsed n = 0 → exec (.brecv c f) s = .next ((s1.wrReg c b f.rd.toNat nilWord).retire c b .fall)) ∧
          (ringHead cx n s1 = .ok (some h) s2 →
            ringRead cx n (s2.binRd n % s2.binSlots n) (bits h.val 19 14 + 1) 0 s2 = .ok ws s3 →
            (s3.bank c b).wait = none → touchPages cx a.val ws.length mtNoDev s3 = .ok () s4 →
            storeUp cx f.rs2.toNat n ws 0 a.val s4 = .ok () s5 →
            exec (.brecv c f) s = .next (((s5.setRegF (binBase n + 0x18) 63 32
              (s5.binRd n + (bits h.val 19 14 + 8) / 8)).wrReg c b f.rd.toNat h).retire c b .fall))) ∧
        (Issued s c b (tEnc 0x14 2 f true true false 0) s1 →
          (s1.binUsed n = 0 → exec (.bpeek c f) s = .next ((s1.wrReg c b f.rd.toNat nilWord).retire c b .fall)) ∧
          (ringHead cx n s1 = .ok (some h) s2 →
            exec (.bpeek c f) s = .next ((s2.wrReg c b f.rd.toNat h).retire c b .fall)))) ∧
      (Issued s c b (tEnc 0x14 3 f true true false 0) s1 → s1.sourceBin c b.val = none →
        exec (.bcred c f) s = .next ((s1.wrReg c b f.rd.toNat (fixWord (v64
          (2 ^ 32 * min (s1.regF (binBase n + 0x20) 47 32) (2 ^ 32 - 1) + s1.binFree n)))).retire c b .fall)))

/-- R322, R323, R326, R327, R330, R335: a message to a bin that is not Active is refused, ERROR or BIN_GONE, and one
to an Active bin is in flight in its engine; what the engine answers then: ERROR where the bin has entered Error,
WORLD, WITHHELD for want of an entry or of credit, accepted without effect for a duplicate, and, without a handler,
FULL. Each refusal counts in NACK. R316, R318, R330, R335: a command of BDCTL moves the bin as its table says and
clears REJ, or changes nothing else and sets REJ; FORCE abandons the messages in flight of the bin; a core of the
other world freezes, a core at user level and the host write no register. A Draining bin is Disabled once it has no
message in flight. -/
def Obligations.BinArrivalAndCommands : Prop :=
  (∀ (s : State) (n node sbin : Nat) (host w : Bool) (seq : BitVec 16) (ws : List Word) (f : Flight),
     let go := s.binHandle n node sbin host seq ws w
     let slots := (ws.length + 7) / 8
     let nack (x : State) (n : Nat) : Nat := x.regF (binBase n + 0x30) 15 0
     let refused (reason retry : Nat) : Prop := go.1 = .refused reason retry ∧
       nack go.2 n = (nack s n + 1) % 2 ^ 16 ∧ go.2.mem = s.mem ∧ go.2.banks = s.banks ∧ go.2.binWr n = s.binWr n
     let mine (e : SrcEntry) : Prop := e.bin = n ∧ e.node = node ∧ e.sbin = sbin ∧ e.host = host
     let open_ : Prop := n < 4096 ∧ (w = s.binWld n ∨ bit (s.reg (binBase n)) 11 = true)
     let none_ : Prop := ∀ e ∈ s.srcs (s.binEng n), ¬ mine e
     let spare := s.regF (binBase n + 0x20) 47 32
     (s.binState f.bin = 1 → s.binArrive f = { s with bins := { s.bins with flight := s.bins.flight ++ [f] } }) ∧
     (∀ reason, (s.binState f.bin = 4 ∧ reason = 4 ∨ s.binState f.bin ≠ 4 ∧ s.binState f.bin ≠ 1 ∧ reason = 3) →
       (f.back = .nobody → nack (s.binArrive f) f.bin = (nack s f.bin + 1) % 2 ^ 16 ∧ (s.binArrive f).mem = s.mem ∧
         (s.binArrive f).banks = s.banks ∧ (s.binArrive f).bins = s.bins) ∧
       (∀ c b k, f.back = .bank c b → s.pairMode (pairOf c) = 0 → (s.bank c b).wait = some k →
         nack (s.binArrive f) f.bin = (nack s f.bin + 1) % 2 ^ 16 ∧ (s.binArrive f).bins = s.bins ∧
         ((s.binArrive f).bank c b).wait = some { k with done := true, res := .answer (fixWord (v64 (reason * 65536))) })) ∧
     (f.back = .nobody → f.err = true → nack (s.serveFlight f) f.bin = (nack s f.bin + 1) % 2 ^ 16 ∧
       (s.serveFlight f).mem = s.mem ∧ (s.serveFlight f).bins = s.bins) ∧
     (n < 4096 → w ≠ s.binWld n → bit (s.reg (binBase n)) 11 = false → refused 6 0) ∧
     (open_ → none_ → 4096 ≤ (s.srcs (s.binEng n)).length → refused 1 1) ∧
     (open_ → none_ → (s.srcs (s.binEng n)).length < 4096 → spare < slots → ∃ t, 1 ≤ t ∧ t ≤ 255 ∧ refused 1 t) ∧
     (open_ → none_ → (s.srcs (s.binEng n)).length < 4096 → slots ≤ spare → bit (s.reg (binBase n)) 9 = false →
       s.regF (binBase n) 13 12 = 0 → 0 < slots → s.binFree n < slots → refused 2 1) ∧
     (∀ e ∈ s.srcs (s.binEng n), open_ → mine e → (∀ e' ∈ s.srcs (s.binEng n), mine e' → e' = e) →
       (∃ p, e.last = some p ∧ newer16 seq p = false) →
       go.1 = .accepted ∧ go.2.mem = s.mem ∧ go.2.banks = s.banks ∧ go.2.binWr n = s.binWr n ∧ nack go.2 n = nack s n)) ∧
  (∀ (s : State) (r : RegSrc) (x : Who) (n : Fin 4096) (i : Instr) (cmd new : Nat) (ok : Prop),
     let o := binBase n
     let errc := s.regF o 23 20
     (i = .activate r n ∧ cmd = 1 ∧ new = 1 ∧
         (ok ↔ (s.binState n = 0 ∨ s.binState n = 3) ∧ s.ringValid n = true ∧ s.srcbClash n = false) ∨
       i = .binDisable r n ∧ cmd = 2 ∧ new = 2 ∧ (ok ↔ s.binState n = 1) ∨
       i = .binForce r n ∧ cmd = 3 ∧ new = 3 ∧ (ok ↔ s.binState n = 1 ∨ s.binState n = 2) ∨
       i = .binRelease r n ∧ cmd = 4 ∧ new = 0 ∧ (ok ↔ s.binState n = 3) ∨
       i = .clear r n ∧ cmd = 5 ∧ new = 3 ∧ (ok ↔ s.binState n = 4 ∧ errc ≠ 1)) →
     (s.whoOf r = none → exec i s = .next s) ∧
     (s.whoOf r = some x → x.reeve = false → s.binWld n ≠ x.w →
       exec i s = .next (s.freezeCore x.c x.b 0x05 (v64 o))) ∧
     (s.whoOf r = some x → x.reeve = false → s.binWld n = x.w → x.sup = false → exec i s = .next s) ∧
     (s.whoOf r = some x → (x.reeve = true ∨ s.binWld n = x.w ∧ x.sup = true) →
       ∃ t, exec i s = .next t ∧
         ((cmd = 3 → ¬ ok ∨ ∀ fl ∈ s.bins.flight, fl.bin ≠ n.val) → t.banks = s.banks ∧ t.cores = s.cores ∧ t.mem = s.mem) ∧
         (ok → t.binState n = new ∧ bit (t.reg o) 27 = false ∧
           (cmd = 5 → t.regF o 23 20 = 0) ∧
           (cmd = 4 → t.binRd n = 0 ∧ t.binWr n = 0 ∧ ∀ k, k < 12 → ∀ e ∈ t.srcs k, e.bin ≠ n) ∧
           (cmd = 3 → t.bins.flight = s.bins.flight.filter fun fl => fl.bin != n.val) ∧
           (cmd = 3 → (∀ fl ∈ s.bins.flight, fl.bin = n.val → fl.back = .nobody) →
             t.reg (engBase (s.binEng n) + 8) = s.reg (engBase (s.binEng n) + 8) +
               v64 (s.bins.flight.filter fun fl => fl.bin == n.val).length) ∧
           (cmd = 1 → s.binState n = 0 → t.binRd n = 0 ∧ t.binWr n = 0 ∧
             t.regF (o + 0x20) 47 32 = s.regF (o + 0x20) 15 0)) ∧
         (¬ ok → t.binState n = s.binState n ∧ bit (t.reg o) 27 = true ∧ t.bins = s.bins)) ∧
     (∃ t, exec (.binDrainComplete n) s = .next t ∧ t.banks = s.banks ∧ t.mem = s.mem ∧ t.bins = s.bins ∧
       (s.binState n = 2 → (∀ fl ∈ s.bins.flight, fl.bin ≠ n.val) → t.binState n = 3) ∧
       ((s.binState n ≠ 2 ∨ ∃ fl ∈ s.bins.flight, fl.bin = n.val) → t = s)) ∧
     (∀ (k : Fin 12) (src : SrcKey), ∃ t, exec (.sourceEntryExpiry k src) s = .next t ∧
       t.srcs k = ((s.srcs k).filter fun e => !(e.named src && decide (64 ≤ e.idle))) ∧
       t.regF (engBase k) 12 0 = (t.srcs k).length % 2 ^ 13 ∧ t.banks = s.banks ∧ t.mem = s.mem))

/-- R196, R198: at a decision a core that does not schedule, or is in escalation, stays as it is; an item of the
Running bank is taken; with nothing to route, an idle core runs a Ready bank of greatest PRI, a Running bank below ML
15 is preempted by a greater PRI, and at the end of a quantum by an equal one. -/
def Obligations.HarrowDecisions : Prop :=
  ∀ (s : State) (c : Fin 96) (r b : Fin 4) (it : Item) (u : State),
    let on : Prop := s.schedules c = true ∧ (s.core c).inEsc = false
    let ready (k : Fin 4) : Prop := (s.bank c k).st = 1
    let runs_ (t : State) (k : Fin 4) : Prop := (t.core c).run = some k ∧ (t.core c).lastRun = k ∧ (t.bank c k).st = 2 ∧
      (t.bank c k).gr = (s.bank c k).gr ∧ (t.bank c k).pc = (s.bank c k).pc ∧ t.mem = s.mem ∧
      (∀ c' k', c' ≠ c.val → t.bank c' k' = s.bank c' k') ∧ (∀ c', c' ≠ c.val → t.core c' = s.core c')
    let calm : Prop := (s.core c).run = some r ∧ (s.bank c r).scanPend = false ∧ (s.bank c r).flipPend = false ∧
      s.pendingItem c r = none ∧ s.routing c = none ∧ (s.bank c r).status.ml ≠ 15 ∧ (s.bank c r).st = 2
    (¬ on → exec (.harrowDecision c) s = .next s ∧ exec (.quantumExpiry c) s = .next s) ∧
    (on → (s.core c).run = some r → (s.bank c r).scanPend = false → (s.bank c r).flipPend = false →
      s.pendingItem c r = some it → s.takeItem c r it = some u → exec (.harrowDecision c) s = .next u) ∧
    (on → (s.core c).run = none → s.routing c = none → (∀ k, ¬ ready k) → exec (.harrowDecision c) s = .next s) ∧
    (on → (s.core c).run = none → s.routing c = none → ready b →
      ∃ t k, exec (.harrowDecision c) s = .next t ∧ ready k ∧ (∀ k', ready k' → (s.bank c k').pri ≤ (s.bank c k).pri) ∧
        runs_ t k) ∧
    (on → calm → ready b → (s.bank c r).pri < (s.bank c b).pri →
      ∃ t k, exec (.harrowDecision c) s = .next t ∧ ready k ∧ (∀ k', ready k' → (s.bank c k').pri ≤ (s.bank c k).pri) ∧
        runs_ t k ∧ (t.bank c r).st = 1 ∧ (t.bank c r).resv = none) ∧
    (on → calm → (∀ k, ready k → (s.bank c k).pri < (s.bank c r).pri) →
      exec (.harrowDecision c) s = .next s ∧ exec (.quantumExpiry c) s = .next s) ∧
    (on → calm → ready b → (s.bank c b).pri = (s.bank c r).pri →
      (∀ k, ready k → (s.bank c k).pri ≤ (s.bank c r).pri) →
      (s.quantumOut c = false → exec (.harrowDecision c) s = .next s) ∧
      (s.regF (coreBase c + 8) 7 0 ≠ 0 →
        ∃ t k, exec (.quantumExpiry c) s = .next t ∧ ready k ∧ runs_ t k ∧ (t.bank c r).st = 1)) ∧
    (on → (s.core c).run = some r → s.pendingItem c r = none → (s.bank c r).status.ml = 15 →
      exec (.harrowDecision c) s = .next s)

/-- R202, R203, R305, R306: a bank timer that goes from 1 to 0 sets BEVT bit 1 of its bank, and does not count while
the core is frozen or halted; a supervisor timer that TIMEC has reached, TIMEL on a yoked pair, whose odd core's is
not compared, sets IPEND.ST and clears STCMP; either goes through the latch of a pair that is not split. R205: a core
whose conditions for gating do not all hold, an outstanding miss among them, stays as it is; a core that gates loses
its caches, its unlocked translations and its dispatch copy; a core whose power returns has every general register at
word(NIL, 0), each bank its world, and the timers and events at zero. -/
def Obligations.TimersAndCorePower : Prop :=
  (∀ (s : State) (c : Fin 96) (b : Fin 4) (w : Fin 2),
     let k := s.bank c b
     let o := worldRegs c w + 0x20
     let now := if s.pairMode (c.val / 2) = 2 then (s.pair (c.val / 2)).timel.toNat else s.cycle
     ((k.btmr ≠ 1 ∨ (s.core c).frozen = true ∨ (s.core c).halted = true) → exec (.btmrExpiry c b) s = .next s) ∧
     (k.btmr = 1 → (s.core c).frozen = false → (s.core c).halted = false →
       ∃ t, exec (.btmrExpiry c b) s = .next t ∧ (t.bank c b).btmr = 0 ∧ t.mem = s.mem ∧ t.regs = s.regs ∧
         (∀ c' b', (c', b') ≠ ((c : Nat), b) → t.bank c' b' = s.bank c' b') ∧
         (s.pairMode (c.val / 2) = 0 → (t.bank c b).bevt = k.bevt ||| 2) ∧
         (s.pairMode (c.val / 2) ≠ 0 → (t.pair (c.val / 2)).latch = (s.pair (c.val / 2)).latch ++ [.bevt b 1])) ∧
     ((s.oddBound c = true ∨ s.reg o = 0 ∨ now < (s.reg o).toNat) → exec (.stcmpMatch c w) s = .next s) ∧
     (s.oddBound c = false → s.reg o ≠ 0 → (s.reg o).toNat ≤ now →
       ∃ t, exec (.stcmpMatch c w) s = .next t ∧ t.reg o = 0 ∧ t.banks = s.banks ∧ t.mem = s.mem ∧ t.cores = s.cores ∧
         (s.pairMode (c.val / 2) = 0 → bit (t.reg (worldRegs c w + 8)) 1 = true) ∧
         (s.pairMode (c.val / 2) ≠ 0 →
           (t.pair (c.val / 2)).latch = (s.pair (c.val / 2)).latch ++ [.ipend (w.val == 1) 1]))) ∧
  (∀ (s : State) (c : Fin 96),
     let x := s.core c
     let hctl := s.reg (coreBase c + 8)
     let may : Prop := x.pg = false ∧ x.frozen = false ∧ bit hctl 16 = true ∧ s.pairMode (c.val / 2) = 0 ∧
       (∀ b, (s.bank c b).st = 0) ∧ bits hctl 15 8 ≤ x.freeBouts - 1 ∧ x.sb = [] ∧
       (∀ y ∈ s.mem.trans, y.1 / 2 ^ 34 = c.val → y.2 = some .miA)
     (¬ may → exec (.corePowerGate c) s = .next s) ∧
     (may → ∃ t, exec (.corePowerGate c) s = .next t ∧ (t.core c).pg = true ∧ (t.core c).itlb = [] ∧ (t.core c).dtlb = [] ∧
       (t.core c).l2tlb = [] ∧ (t.core c).locks = [] ∧
       (t.core c).l1i = [] ∧ (t.core c).l1d = [] ∧ (t.core c).dloaded = false ∧ t.banks = s.banks ∧ t.lockTlb = s.lockTlb) ∧
     (x.pg = false → exec (.corePowerRestore c) s = .next s) ∧
     (x.pg = true → ∃ t, exec (.corePowerRestore c) s = .next t ∧ (t.core c).pg = false ∧ (t.core c).dloaded = true ∧
       t.mem = s.mem ∧ t.regs = s.regs ∧
       ∀ b, (∀ i, Tbl.get nilWord (t.bank c b).gr i = nilWord) ∧ (t.bank c b).status.wld = (s.bank c b).status.wld ∧
         (t.bank c b).status.cwp = 0 ∧ (t.bank c b).twp = 7 ∧ (t.bank c b).btmr = 0 ∧ (t.bank c b).bevt = 0 ∧
         (t.bank c b).st = (s.bank c b).st))

/-- R192, R193, R194, R202: the bank commands and BPC, written by the Reeve or by a core of the bank's world: what
each does from the states that allow it, and REJ with nothing else from the others; the other world's core freezes;
the block of a core that is not enabled or not its own ignores the write. -/
def Obligations.BankCommands : Prop :=
  ∀ (s : State) (r : RegSrc) (x : Who) (c : Fin 96) (b : Fin 4) (v : Val),
    let k := s.bank c b
    let mayWrite : Prop := s.whoOf r = some x ∧ s.coreEnabled c = true ∧ s.oddBound c = false ∧
      (x.reeve = true ∨ k.status.wld = x.w)
    let frame (t : State) : Prop := t.mem = s.mem ∧ t.regs = s.regs ∧ ∀ c' b', c' ≠ c.val → t.bank c' b' = s.bank c' b'
    let others (t : State) : Prop := ∀ b', b' ≠ b → t.bank c b' = s.bank c b'
    let rej (i : Instr) : Prop := ∃ t, exec i s = .next t ∧ frame t ∧ others t ∧ t.bank c b = { k with
      rej := true }
    (∀ i : Instr, (i = .bankStart r c b ∨ i = .bankPark r c b ∨ i = .bankUnpark r c b ∨ i = .bankRelease r c b ∨
        i = .bpcWrite r c b v) →
      (s.whoOf r = none → exec i s = .next s) ∧
      (s.whoOf r = some x → (s.coreEnabled c = false ∨ s.oddBound c = true) → exec i s = .next s)) ∧
    (mayWrite →
      (k.st = 0 → (s.core c).pg = false → k.scanPend = false → k.flipPend = false →
        ∃ t, exec (.bankStart r c b) s = .next t ∧ frame t ∧ others t ∧ (t.bank c b).st = 1 ∧
          (t.bank c b).rej = false ∧ (t.bank c b).twp = 7 ∧ (t.bank c b).pc = k.pc ∧ (t.bank c b).gr = k.gr ∧
          (t.bank c b).status = {
            wld := k.status.wld, lvl := true, mrk := s.gcPhase k.status.wld == 1,
            yk := s.pairMode (c.val / 2) == 2, early := false, p := false, impp := false, cwp := 0, ml := 15 }) ∧
      (k.st ≠ 0 → rej (.bankStart r c b)) ∧
      ((k.st = 1 ∨ k.st = 3) → ∃ t, exec (.bankPark r c b) s = .next t ∧ frame t ∧ others t ∧ t.cores = s.cores ∧
        t.bank c b = { k with st := 4, rej := false }) ∧
      (k.st = 2 → ∃ t, exec (.bankPark r c b) s = .next t ∧ frame t ∧ others t ∧
        t.bank c b = { k with st := 4, rej := false } ∧ (t.core c).run = none) ∧
      (k.st ≠ 1 → k.st ≠ 2 → k.st ≠ 3 → rej (.bankPark r c b)) ∧
      (k.st = 4 → k.wait = none → k.scanPend = false → k.flipPend = false →
        ∃ t, exec (.bankUnpark r c b) s = .next t ∧ frame t ∧ others t ∧
          t.bank c b = { k with st := 1, wcause := 0, rej := false }) ∧
      (∀ y, k.st = 4 → k.wait = some y → y.done = false → ∃ t, exec (.bankUnpark r c b) s = .next t ∧ frame t ∧ others t ∧
        t.bank c b = { k with st := 3, rej := false }) ∧
      (k.st ≠ 4 → rej (.bankUnpark r c b)) ∧
      ((k.st = 0 ∨ k.st = 4) → k.micro = none → ∃ t, exec (.bankRelease r c b) s = .next t ∧ frame t ∧ others t ∧
        t.bank c b = { k with
          st := 0, wcause := 0, rej := false, resv := none, wait := none, micro := none, exempt := false }) ∧
      (k.st ≠ 0 → k.st ≠ 4 → rej (.bankRelease r c b)) ∧
      ((k.st = 0 ∨ k.st = 4) → k.micro = none → ∃ t, exec (.bpcWrite r c b v) s = .next t ∧ frame t ∧ others t ∧
        t.bank c b = { k with
          pc := v64 (4 * bits v 47 2), wcause := 0, wait := none, micro := none, exempt := false }) ∧
      (k.st ≠ 0 → k.st ≠ 4 → exec (.bpcWrite r c b v) s = .next s)) ∧
    (s.whoOf r = some x → s.coreEnabled c = true → s.oddBound c = false → x.reeve = false → k.status.wld ≠ x.w →
      exec (.bankStart r c b) s = .next (s.freezeCore x.c x.b 0x05 (v64 (coreBase c + 0x108 + 0x40 * b.val))))

/-- R108 to R114: the generic arithmetic on FIX and FLO operands gives the FIX result in range or the IEEE default
result, and escapes OVERFLOW, NUMERIC, DIVZERO, QUOTIENT or TYPE where the tables say so; nothing but rd, the event
counter and the retirement changes. -/
def Obligations.GenericArithmetic : Prop :=
  ∀ (s s1 : State) (c : Fin 96) (b : Fin 4) (f : TForm) (x y : Val) (v w : Word),
    let num (k : Word) : Prop := k.type = tyFIX ∨ k.type = tyFLO
    let big (k : Word) : Prop := k.type = tyBIGNUM ∨ k.type = tyRATIO
    let other (k : Word) : Prop := ¬ num k ∧ ¬ big k ∧ k.type ≠ tyFUTURE ∧ k.type < 0x20
    let fl (k : Word) : Val := if k.type = tyFIX then flOfFix k.val else k.val
    let gives (i : Instr) (ev : Nat) (r : Word) : Prop :=
      exec i s = .next (((s1.countEvent c ev 1).wrReg c b f.rd.toNat r).retire c b .fall)
    let escapes (i : Instr) (func n : Nat) : Prop :=
      exec i s = .next ((s1.takeEscape c b n (encT 0x18 func f)).getD (s.tsbMiss c b))
    let at_ (func : Nat) (rs2 : Bool) : Prop := Issued s c b (tEnc 0x18 func f true true rs2 0) s1
    let exact (i : Instr) (func ev : Nat) (r : Int) : Prop := at_ func true →
      (inFix r = true → gives i ev (fixWord (i64 r))) ∧ (inFix r = false → escapes i func 1)
    (s1.bank c b).micro = none →
    (Src s1 c b f.rs1.toNat (fixWord x) → Src s1 c b f.rs2.toNat (fixWord y) →
      exact (.addG c f) 0 3 (x.toInt + y.toInt) ∧ exact (.subG c f) 1 3 (x.toInt - y.toInt) ∧
      exact (.mulG c f) 2 15 (x.toInt * y.toInt) ∧
      (y ≠ 0 → exact (.quoG c f) 4 15 (x.toInt.tdiv y.toInt)) ∧
      (y ≠ 0 → at_ 5 true → gives (.remG c f) 15 (fixWord (i64 (x.toInt.tmod y.toInt)))) ∧
      (y ≠ 0 → x.toInt.tmod y.toInt = 0 → exact (.divG c f) 3 15 (x.toInt.tdiv y.toInt)) ∧
      (y ≠ 0 → x.toInt.tmod y.toInt ≠ 0 → at_ 3 true → escapes (.divG c f) 3 4)) ∧
    (Src s1 c b f.rs1.toNat v → Src s1 c b f.rs2.toNat w →
      (num v → num w → ¬ (v.type = tyFIX ∧ w.type = tyFIX) →
        (at_ 0 true → gives (.addG c f) 3 (floWord (flAdd (fl v) (fl w)).v)) ∧
        (at_ 1 true → gives (.subG c f) 3 (floWord (flSub (fl v) (fl w)).v)) ∧
        (at_ 2 true → gives (.mulG c f) 15 (floWord (flMul (fl v) (fl w)).v)) ∧
        (at_ 3 true → ¬ (w.type = tyFIX ∧ w.val = 0) → gives (.divG c f) 15 (floWord (flDiv (fl v) (fl w)).v)) ∧
        (at_ 4 true → escapes (.quoG c f) 4 0) ∧ (at_ 5 true → escapes (.remG c f) 5 0)) ∧
      (((big v ∧ (num w ∨ big w)) ∨ (num v ∧ big w)) →
        (at_ 0 true → escapes (.addG c f) 0 2) ∧ (at_ 1 true → escapes (.subG c f) 1 2) ∧
        (at_ 2 true → escapes (.mulG c f) 2 2)) ∧
      ((other v ∧ (num w ∨ big w ∨ other w)) ∨ ((num v ∨ big v) ∧ other w) →
        (at_ 0 true → escapes (.addG c f) 0 0) ∧ (at_ 1 true → escapes (.subG c f) 1 0) ∧
        (at_ 2 true → escapes (.mulG c f) 2 0) ∧ (at_ 3 true → escapes (.divG c f) 3 0) ∧
        (at_ 4 true → escapes (.quoG c f) 4 0) ∧ (at_ 5 true → escapes (.remG c f) 5 0)) ∧
      (v.type = tyFIX → w.type = tyFIX → w.val = 0 →
        (at_ 3 true → escapes (.divG c f) 3 3) ∧ (at_ 4 true → escapes (.quoG c f) 4 3) ∧
        (at_ 5 true → escapes (.remG c f) 5 3))) ∧
    (Src s1 c b f.rs1.toNat (fixWord x) →
      (at_ 6 false → (x ≠ 0x8000000000000000 → gives (.negG c f) 3 (fixWord (-x))) ∧
        (x = 0x8000000000000000 → escapes (.negG c f) 6 1)) ∧
      (at_ 7 false → (x ≠ 0x8000000000000000 → gives (.absG c f) 3 (fixWord (i64 (x.toInt.natAbs : Int)))) ∧
        (x = 0x8000000000000000 → escapes (.absG c f) 7 1)) ∧
      (Issued s c b (tEnc 0x1B 0 f true true false 7) s1 → inFix (x.toInt + f.ext.toInt) = true →
        gives (.addiG c f) 3 (fixWord (i64 (x.toInt + f.ext.toInt)))) ∧
      (Issued s c b (tEnc 0x1A 0 f true true false 0) s1 → gives (.floatG c f) 3 (floWord (flOfFix x))) ∧
      (Issued s c b (tEnc 0x1A 1 f true true false 0) s1 → gives (.truncG c f) 3 (fixWord x)) ∧
      (Issued s c b (tEnc 0x1A 2 f true true false 0) s1 → gives (.zeropG c f) 3 (boolWord (x == 0)))) ∧
    (Src s1 c b f.rs1.toNat (floWord x) →
      (at_ 6 false → gives (.negG c f) 3 (floWord (x ^^^ 0x8000000000000000))) ∧
      (at_ 7 false → gives (.absG c f) 3 (floWord (x &&& 0x7FFFFFFFFFFFFFFF))) ∧
      (Issued s c b (tEnc 0x1B 0 f true true false 7) s1 →
        gives (.addiG c f) 3 (floWord (flAdd x (flOfFix (i64 f.ext.toInt))).v)) ∧
      (Issued s c b (tEnc 0x1A 0 f true true false 0) s1 → gives (.floatG c f) 3 (floWord x)) ∧
      (Issued s c b (tEnc 0x1A 1 f true true false 0) s1 → ∀ n m e, flDecode x = .fin n m e →
        inFix (flTrunc n m e) = true → gives (.truncG c f) 3 (fixWord (i64 (flTrunc n m e)))) ∧
      (Issued s c b (tEnc 0x1A 2 f true true false 0) s1 → gives (.zeropG c f) 3 (boolWord (flEq x 0)))) ∧
    (Src s1 c b f.rs1.toNat v → v.type ≠ tyFUTURE → v.type < 0x20 →
      Issued s c b (tEnc 0x1A 3 f true true false 0) s1 →
      gives (.numpG c f) 3 (if v.type = tyFIX ∨ v.type = tyFLO ∨ v.type = tyBIGNUM ∨ v.type = tyRATIO then trueWord
        else nilWord))

/-- R113, R41: the generic compares on numbers compare exact values, on characters scalar values; EQL is identity of
the words; the other pairs escape. -/
def Obligations.GenericCompares : Prop :=
  ∀ (s s1 : State) (c : Fin 96) (b : Fin 4) (f : TForm) (x y : Val) (v w : Word),
    let num (k : Word) : Prop := k.type = tyFIX ∨ k.type = tyFLO
    let big (k : Word) : Prop := k.type = tyBIGNUM ∨ k.type = tyRATIO
    let plain (k : Word) : Prop := k.type ≠ tyFUTURE ∧ k.type < 0x20
    let gives (i : Instr) (r : Bool) : Prop :=
      exec i s = .next (((s1.countEvent c 3 1).wrReg c b f.rd.toNat (boolWord r)).retire c b .fall)
    let escapes (i : Instr) (func n : Nat) : Prop :=
      exec i s = .next ((s1.takeEscape c b n (encT 0x19 func f)).getD (s.tsbMiss c b))
    let at_ (func : Nat) : Prop := Issued s c b (tEnc 0x19 func f true true true 0) s1
    (s1.bank c b).micro = none →
    (Src s1 c b f.rs1.toNat (fixWord x) → Src s1 c b f.rs2.toNat (fixWord y) →
      (at_ 0 → gives (.cmpGEq c f) (decide (x = y))) ∧
      (at_ 1 → gives (.cmpGLt c f) (decide (x.toInt < y.toInt))) ∧
      (at_ 2 → gives (.cmpGLe c f) (decide (x.toInt ≤ y.toInt)))) ∧
    (Src s1 c b f.rs1.toNat (floWord x) → Src s1 c b f.rs2.toNat (floWord y) →
      (at_ 0 → gives (.cmpGEq c f) (flEq x y)) ∧ (at_ 1 → gives (.cmpGLt c f) (flLt x y)) ∧
      (at_ 2 → gives (.cmpGLe c f) (flLe x y))) ∧
    (Src s1 c b f.rs1.toNat v → Src s1 c b f.rs2.toNat w →
      (v.type = tyCHAR → w.type = tyCHAR →
        (at_ 0 → gives (.cmpGEq c f) (decide (v.val = w.val))) ∧
        (at_ 1 → gives (.cmpGLt c f) (decide (v.val.toNat < w.val.toNat))) ∧
        (at_ 2 → gives (.cmpGLe c f) (decide (v.val.toNat ≤ w.val.toNat)))) ∧
      (((big v ∧ (num w ∨ big w)) ∨ (num v ∧ big w)) →
        (at_ 0 → escapes (.cmpGEq c f) 0 2) ∧ (at_ 1 → escapes (.cmpGLt c f) 1 2) ∧
        (at_ 2 → escapes (.cmpGLe c f) 2 2)) ∧
      (plain v → plain w → ¬ (num v ∨ big v) → ¬ (v.type = tyCHAR ∧ w.type = tyCHAR) →
        (at_ 0 → escapes (.cmpGEq c f) 0 0) ∧ (at_ 1 → escapes (.cmpGLt c f) 1 0) ∧
        (at_ 2 → escapes (.cmpGLe c f) 2 0)) ∧
      (plain v → plain w →
        (v.type = w.type → v.val = w.val → at_ 3 → gives (.cmpGEql c f) true) ∧
        (¬ (v.type = w.type ∧ v.val = w.val) → ¬ (v.type = w.type ∧ big v) → at_ 3 → gives (.cmpGEql c f) false) ∧
        (v.type = w.type → v.val ≠ w.val → big v → at_ 3 → escapes (.cmpGEql c f) 3 2)))

/-- R122, R123: CAR and CDR of NIL give NIL, of a CONS the cell's word through the read barrier, of a REMOTE the cell
that the owner answers; SETCAR and SETCDR store into a CONS or post to a REMOTE; other operands escape TYPE. -/
def Obligations.Lists : Prop :=
  ∀ (s s1 s2 : State) (c : Fin 96) (b : Fin 4) (f : TForm) (x v r : Word),
    let esc (i : Instr) (func : Nat) : Prop := exec i s = .next ((s1.takeEscape c b 0 (encT 0x1C func f)).getD (s.tsbMiss c b))
    Src s1 c b f.rs1.toNat x → x.type ≠ tyFUTURE →
    (∀ (i : Instr) (func off : Nat), ((i = .car c f ∧ func = 0 ∧ off = 0) ∨ (i = .cdr c f ∧ func = 1 ∧ off = 1)) →
      Issued s c b (tEnc 0x1C func f true true false 0) s1 →
      (x.type = tyNIL →
        exec i s = .next (((s1.countEvent c 3 1).wrReg c b f.rd.toNat nilWord).retire c b .fall)) ∧
      (x.type = tyCONS → loadWord (s.ctx c b) (x.val + v64 (8 * off)) mtNoDev false s1 = .ok r s2 →
        exec i s = .next (((s2.countEvent c 3 1).wrReg c b f.rd.toNat r).retire c b .fall)) ∧
      (x.type = tyREMOTE → remoteCell (s.ctx c b) x off s1 = .ok r s2 →
        exec i s = .next ((s2.wrReg c b f.rd.toNat r).retire c b .fall)) ∧
      (x.type ≠ tyNIL → x.type ≠ tyCONS → x.type ≠ tyREMOTE → esc i func)) ∧
    (∀ (i : Instr) (func off : Nat), ((i = .setcar c f ∧ func = 2 ∧ off = 0) ∨ (i = .setcdr c f ∧ func = 3 ∧ off = 1)) →
      Issued s c b (tEnc 0x1C func f false true true 0) s1 → Src s1 c b f.rs2.toNat v → v.type ≠ tyFUTURE →
      (x.type ≠ tyCONS → x.type ≠ tyREMOTE → esc i func) ∧
      (x.imm = false → ((s.bank c b).status.lvl = true ∨ v.type ≠ tyHEADER) →
        (x.type = tyCONS →
          storeWord (s.ctx c b) (x.val + v64 (8 * off)) v mtNoDev true true f.rs2.toNat s1 = .ok () s2 →
          exec i s = .next ((s2.countEvent c 15 1).retire c b .fall)) ∧
        (x.type = tyREMOTE → wantRemotable v f.rs2.toNat s1 = .ok () s1 →
          remotePosted (s.ctx c b) x (fixWord (v64 off)) v s1 = .ok () s2 →
          exec i s = .next ((s2.countEvent c 15 1).retire c b .fall))))

/-- R124, R125: CONS and ALLOC take their object at ALLOCP when it fits below ALLOCL in one plot, initialise it, move
ALLOCP past it and write its pointer; an object that does not fit escapes ALLOC and changes nothing. -/
def Obligations.Allocation : Prop :=
  ∀ (s s1 s2 s3 s4 s5 s6 : State) (c : Fin 96) (b : Fin 4) (f : TForm) (g : IForm) (x y : Word) (p q : Nat × MemType)
    (t sub : Nat) (n : Nat),
    let a := (s1.bank c b).allocp.toNat
    let end_ := (s1.bank c b).allocl.toNat
    let made (u : State) (size ty rd : Nat) : State :=
      (((u.modBank c b fun k => { k with allocp := v64 (a + 8 * size) }).countEvent c 15 1).wrReg c b rd
        (mkWord ty (v64 a))).retire c b .fall
    (Src s1 c b f.rs1.toNat x → Src s1 c b f.rs2.toNat y → x.type ≠ tyFUTURE → y.type ≠ tyFUTURE →
      ((s.bank c b).status.lvl = true ∨ (x.type ≠ tyHEADER ∧ y.type ≠ tyHEADER)) →
      Issued s c b (tEnc 0x1C 4 f true true true 0) s1 →
      (a + 16 ≤ end_ → a / 2 ^ 21 = (a + 8) / 2 ^ 21 → (s1.core c).sb.length ≤ 30 →
        initPrep (s.ctx c b) a x s1 = .ok p s2 → initPrep (s.ctx c b) (a + 8) y s2 = .ok q s3 →
        initPush (s.ctx c b) a p x s3 = .ok () s4 → initPush (s.ctx c b) (a + 8) q y s4 = .ok () s5 →
        markNew (s.ctx c b) a (mkWord tyCONS (v64 a)) s5 = .ok () s6 →
        exec (.cons c f) s = .next (made s6 2 tyCONS f.rd.toNat)) ∧
      ((end_ < a + 16 ∨ a / 2 ^ 21 ≠ (a + 8) / 2 ^ 21) →
        exec (.cons c f) s = .next ((s1.takeEscape c b 5 (encT 0x1C 4 f)).getD (s.tsbMiss c b)))) ∧
    (∀ (i : Instr) (e : Enc) (rd : Nat),
      ((i = .alloc c f ∧ e = tEnc 0x1C 5 f true true true 0 ∧ rd = f.rd.toNat ∧
          Src s1 c b f.rs1.toNat (fixWord (v64 (fld 8 sub + t))) ∧ Src s1 c b f.rs2.toNat (fixWord (v64 n))) ∨
        (i = .allocI c g ∧ e = iEnc 0x1C 8 g true true 12 ∧ rd = g.rd.toNat ∧ n = g.imm.toNat ∧
          Src s1 c b g.rs1.toNat (fixWord (v64 (fld 8 sub + t))))) →
      Issued s c b e s1 → t < 64 → sub < 256 → n < 2 ^ 48 →
      (n = 0 → sub = 0 → ((t = tySYMBOL ∧ a + 32 ≤ end_ ∧ a / 2 ^ 21 = (a + 24) / 2 ^ 21 →
          markNew (s.ctx c b) a (mkWord t (v64 a)) s1 = .ok () s2 → exec i s = .next (made s2 4 t rd)) ∧
        (t = tyRATIO ∧ a + 16 ≤ end_ ∧ a / 2 ^ 21 = (a + 8) / 2 ^ 21 →
          markNew (s.ctx c b) a (mkWord t (v64 a)) s1 = .ok () s2 → exec i s = .next (made s2 2 t rd)))) ∧
      ((t ∈ [tyVECTOR, tySTRING, tyBIGNUM, tyCLOSURE, tyCODE] ∨ s1.isAllotPtr t = true) →
        (n < 262144 → a + 8 * (1 + n) ≤ end_ → a / 2 ^ 21 = (a + 8 * n) / 2 ^ 21 → (s1.core c).sb.length < 32 →
          let h := mkWord tyHEADER (v64 (fld 48 sub + n))
          initPrep (s.ctx c b) a h s1 = .ok p s2 → initPush (s.ctx c b) a p h s2 = .ok () s3 →
          markNew (s.ctx c b) a (mkWord t (v64 a)) s3 = .ok () s4 →
          exec i s = .next (made s4 (1 + n) t rd)) ∧
        ((262144 ≤ n ∨ end_ < a + 8 * (1 + n) ∨ a / 2 ^ 21 ≠ (a + 8 * n) / 2 ^ 21) →
          exec i s = .next ((s1.takeEscape c b 5 e.word).getD (s.tsbMiss c b))))) ∧
    ((s.bank c b).status.mrk = false → ∀ k : Nat, markNew (s.ctx c b) k x s = .ok () s)

/-- R126: VREF reads, and VSET writes, the word after the header that the index names; VLEN gives the header's length;
an index outside the length escapes BOUNDS, a REMOTE vector escapes REMOTE and any other type TYPE. -/
def Obligations.Vectors : Prop :=
  ∀ (s s1 s2 s3 : State) (c : Fin 96) (b : Fin 4) (f : TForm) (v x h r : Word) (i : Val),
    let isVec : Prop := v.type = tyVECTOR ∨ s1.isAllotPtr v.type = true
    let head : Prop := loadWord (s.ctx c b) v.val mtNoDev false s1 = .ok h s2
    let esc (j : Instr) (func n : Nat) (u : State) : Prop :=
      exec j s = .next ((u.takeEscape c b n (encT 0x1D func f)).getD (s.tsbMiss c b))
    Src s1 c b f.rs1.toNat v → v.type ≠ tyFUTURE →
    (Src s1 c b f.rs2.toNat (fixWord i) →
      (Issued s c b (tEnc 0x1D 0 f true true true 0) s1 →
        (v.type = tyREMOTE → esc (.vref c f) 0 8 s1) ∧
        (v.type ≠ tyREMOTE → ¬ isVec → esc (.vref c f) 0 0 s1) ∧
        (isVec → v.type ≠ tyREMOTE → head → h.type = tyHEADER →
          (i.toInt < 0 ∨ bits h.val 47 0 ≤ i.toNat → esc (.vref c f) 0 7 s2) ∧
          (0 ≤ i.toInt → i.toNat < bits h.val 47 0 →
            loadWord (s.ctx c b) (v.val + 8 * (1 + i)) mtNoDev false s2 = .ok r s3 →
            exec (.vref c f) s = .next (((s3.countEvent c 15 1).wrReg c b f.rd.toNat r).retire c b .fall)))) ∧
      (Issued s c b (tEnc 0x1D 1 f true true true 0) s1 → Src s1 c b f.rd.toNat x → x.type ≠ tyFUTURE → isVec →
        v.type ≠ tyREMOTE → v.imm = false → ((s.bank c b).status.lvl = true ∨ x.type ≠ tyHEADER) → head →
        h.type = tyHEADER →
        (i.toInt < 0 ∨ bits h.val 47 0 ≤ i.toNat → esc (.vset c f) 1 7 s2) ∧
        (0 ≤ i.toInt → i.toNat < bits h.val 47 0 →
          storeWord (s.ctx c b) (v.val + 8 * (1 + i)) x mtNoDev true true f.rd.toNat s2 = .ok () s3 →
          exec (.vset c f) s = .next ((s3.countEvent c 15 1).retire c b .fall)))) ∧
    (Issued s c b (tEnc 0x1D 2 f true true false 0) s1 →
      (v.type ≠ tyREMOTE → s1.isHeadered v.type = false → esc (.vlen c f) 2 0 s1) ∧
      (v.type ≠ tyREMOTE → s1.isHeadered v.type = true → head → h.type = tyHEADER →
        exec (.vlen c f) s =
          .next (((s2.countEvent c 15 1).wrReg c b f.rd.toNat (fixWord (v64 (bits h.val 47 0)))).retire c b .fall)))

/-- R127, R128, R129, R130: each long instruction finishes with its result or commits one step into its progress
registers and goes on at the same address. -/
def Obligations.LongInstructions : Prop :=
  ∀ (s s1 s2 s3 s4 : State) (c : Fin 96) (b : Fin 4) (f : TForm) (key l e d a r : Word) (n : Val) (j : Nat),
    let cx := s.ctx c b
    let u := s1.countEvent c 15 1
    let at_ (func ext : Nat) (same : Bool) : Prop := Issued s c b (longEnc func f ext same) s1
    let three := f.rd == f.rs1 || f.rd == f.rs2 || f.rs1 == f.rs2
    let ends (i : Instr) (x : State) (w : Word) : Prop :=
      exec i s = .next ((x.wrReg c b f.rd.toNat w).retire c b .fall)
    let again (i : Instr) (x : State) : Prop := exec i s = .next (x.retire c b .again)
    let reg (k : BitVec 5) (w : Word) : Prop := Src s1 c b k.toNat w ∧ w.type ≠ tyFUTURE
    (reg f.rs1 key → reg f.rs2 l →
      (at_ 0 0 (f.rd == f.rs2) →
        (l.type = tyNIL → ends (.assq c f) u nilWord) ∧
        (l.type = tyCONS → listLoad cx l.val u = .ok e s2 → e.type = tyCONS → listLoad cx e.val s2 = .ok r s3 →
          (identical r key = true → ends (.assq c f) s3 e) ∧
          (identical r key = false → nextCursor cx (l.val + 8) s3 = .ok d s4 →
            again (.assq c f) (s4.wrReg c b f.rs2.toNat d))) ∧
        (l.type = tyCONS → listLoad cx l.val u = .ok e s2 → e.type = tyNIL → nextCursor cx (l.val + 8) s2 = .ok d s4 →
          again (.assq c f) (s4.wrReg c b f.rs2.toNat d))) ∧
      (at_ 1 0 (f.rd == f.rs2) →
        (l.type = tyNIL → ends (.memq c f) u nilWord) ∧
        (l.type = tyCONS → listLoad cx l.val u = .ok e s2 →
          (identical e key = true → ends (.memq c f) s2 l) ∧
          (identical e key = false → nextCursor cx (l.val + 8) s2 = .ok d s3 →
            again (.memq c f) (s3.wrReg c b f.rs2.toNat d))))) ∧
    (reg f.rs1 (fixWord n) → reg f.rs2 l → 0 ≤ n.toInt → at_ 2 0 three →
      (n = 0 → ends (.nthcdr c f) u l) ∧ (n ≠ 0 → l.type = tyNIL → ends (.nthcdr c f) u nilWord) ∧
      (n ≠ 0 → l.type = tyCONS → nextCursor cx (l.val + 8) u = .ok d s2 →
        again (.nthcdr c f) ((s2.wrReg c b f.rs2.toNat d).wrReg c b f.rs1.toNat (fixWord (n - 1))))) ∧
    (reg f.rs1 l → reg f.rs2 (fixWord n) → at_ 3 0 three →
      (l.type = tyNIL → ends (.len c f) u (fixWord n)) ∧
      (l.type = tyCONS → n ≠ 0x7FFFFFFFFFFFFFFF → nextCursor cx (l.val + 8) u = .ok d s2 →
        again (.len c f) ((s2.wrReg c b f.rs1.toNat d).wrReg c b f.rs2.toNat (fixWord (n + 1))))) ∧
    (reg f.rd (fixWord n) → reg f.rs1 a → reg f.rs2 d → (s1.isPtr a.type = true ∨ a.type = tyRAW) →
      (s1.isPtr d.type = true ∨ d.type = tyRAW) → d.imm = false → 0 ≤ n.toInt → at_ 4 0 three →
      (n = 0 → exec (.copyw c f) s = .next (u.retire c b .fall)) ∧
      (∀ k, n ≠ 0 → k = min n.toNat (8 - d.val.toNat % 64 / 8) → (u.core c).sb.length + k ≤ 32 →
        copyStep cx f.rs2.toNat k a.val d.val u = .ok j s2 →
        again (.copyw c f) (((s2.wrReg c b f.rd.toNat (fixWord (n - v64 j))).wrReg c b f.rs1.toNat
          (rawWord (a.val + v64 (8 * j)))).wrReg c b f.rs2.toNat (rawWord (d.val + v64 (8 * j)))))) ∧
    (reg f.rs1 a → reg f.rs2 (fixWord n) → (s1.isPtr a.type = true ∨ a.type = tyRAW) → 0 ≤ n.toInt → at_ 5 7 three →
      (n = 0 → ends (.scant c f) u nilWord) ∧
      (∀ k, n ≠ 0 → k = min n.toNat (8 - a.val.toNat % 64 / 8) →
        (scanRun cx (f.ext.toNat % 64) (f.ext.getLsbD 6) k 0 a.val u = .ok (some j) s2 →
          ends (.scant c f) ((s2.wrReg c b f.rs1.toNat (rawWord (a.val + v64 (8 * j)))).wrReg c b f.rs2.toNat
            (fixWord (n - v64 j))) (rawWord (a.val + v64 (8 * j)))) ∧
        (scanRun cx (f.ext.toNat % 64) (f.ext.getLsbD 6) k 0 a.val u = .ok none s2 →
          again (.scant c f) ((s2.wrReg c b f.rs1.toNat (rawWord (a.val + v64 (8 * k)))).wrReg c b f.rs2.toNat
            (fixWord (n - v64 k))))))

/-- R207, R211, R214, R215, R218, R219: an instruction whose dispatch entry is of KIND 1 runs the routine of that
entry, and a routine of one microword that passes rs1 to rd and commits leaves rs1 in rd; an Allotment key that the
bank's world may not run is ILLEGAL, before anything else of it; a copy that failed parity is rewritten from a good
one and counted, or counted as not corrected; CS_BOUND faults the instruction whose routine is running. -/
def Obligations.Microcode : Prop :=
  (∀ (s s1 : State) (c : Fin 96) (b : Fin 4) (e : Enc) (body : Ctx → M Flow) (u : Nat) (rdSrc : Bool),
    Routed s c b e s1 u rdSrc →
    runInstr s c e body =
      finish s c b e.word (runRoutine (s.ctx c b) u e.word (latchW (s.ctx c b) e.word rdSrc) s1)) ∧
  (∀ (s s1 s2 : State) (c : Fin 96) (b : Fin 4) (m : Fin 4) (fn : BitVec 4) (f : TForm) (fl : Flow) (x y : Word) (u : Nat),
    let key := 0x380 + 16 * m.val + fn.toNat
    let iw := encT (0x38 + m.val) fn.toNat f
    let may := mayRun s (s.bank c b).status.wld (keyShare key)
    let mw := s1.reg (rMWORD u)
    let nn := bits mw 23 11
    let n := nanoOf (s1.reg (rNANO nn)) (s1.reg (rNANO nn + 8)) (s1.reg (rNANO nn + 16))
    let owner := match microShare u with
      | some j => shareOwner s1 j
      | none => 4
    (∀ rdSrc : Bool, Routed s c b ⟨iw, !may⟩ s1 u rdSrc →
      runRoutine (s.ctx c b) u iw (latchW (s.ctx c b) iw rdSrc) s1 = .ok fl s2 →
      exec (.allotmentInstruction c m fn f) s = .next (s2.retire c b fl)) ∧
    (Routed s c b ⟨iw, !may⟩ s1 u false →
      (s1.bank c b).micro = none → Src s1 c b f.rs1.toNat x → x.type ≠ tyFUTURE →
      Src s1 c b f.rs2.toNat y → y.type ≠ tyFUTURE → (microShare u).isSome = true →
      ownedBy s1 owner (nanoShare nn) = true → (clusterOf c, 0, u) ∉ s1.csBad → (clusterOf c, 1, nn) ∉ s1.csBad →
      bits mw 10 8 = 6 → n.cond = 0 → n.aop = 0 → n.srca = 2 → n.srcb = 0 → n.dst = 1 → n.tsel = 0 → n.mop = 0 →
      n.madr = 0 → n.eff = 1 → (s1.core c).sb.length ≤ 32 →
      exec (.allotmentInstruction c m fn f) s =
        .next (((((s1.countEvent c 15 1).trace c 2 b u).trace c 3 b u).wrReg c b f.rd.toNat x).retire c b .fall)) ∧
    (s.issuable c = some b → s.pendingItem c b = none → s.pairMode (pairOf c) ≠ 2 → goesOn (s.bank c b) = none →
      may = false → instrBreak (s.ctx c b) s = .ok () s → fetch (s.ctx c b) s = .ok iw s2 →
      (12 + c.val, 2, key) ∉ s2.csBad → s2.dentV c key = true →
      exec (.allotmentInstruction c m fn f) s =
        .next ((s2.takeFault c b cILLEGAL 0 iw false false).getD (s.tsbMiss c b)))) ∧
  (∀ (s : State) (k : Fin 108) (st : CsStore) (adr : BitVec 14) (w : Fin 2) (c : Fin 96),
    let n := csStoreNo st
    let others : Prop := ∃ j : Fin 12, j.val ≠ k.val ∧ (j.val, n, adr.toNat) ∉ s.csBad
    let quiet : Prop := s.issuable c = none ∨ ∃ b, s.issuable c = some b ∧ (s.bank c b).micro = none
    let d := k.val - 12
    let v := s.reg (rDENT adr.toNat)
    (quiet → k.val < 12 →
      ∃ z, exec (.csParityRepair k st adr w c) s = .next z ∧ z.mem = s.mem ∧ z.banks = s.banks ∧
        z.reg rCSLAST = v64 (fld 20 n + fld 16 k.val + adr.toNat) ∧
        (others → z.reg rCSREP = s.reg rCSREP + 1 ∧ z.reg rCSUNC = s.reg rCSUNC ∧
          (k.val, n, adr.toNat) ∉ z.csBad) ∧
        (¬ others → z.reg rCSUNC = s.reg rCSUNC + 1 ∧ z.reg rCSREP = s.reg rCSREP ∧
          (k.val, n, adr.toNat) ∈ z.csBad) ∧
        (∀ q, q ≠ (k.val, n, adr.toNat) → (q ∈ z.csBad ↔ q ∈ s.csBad)) ∧
        (∀ o, o ≠ rCSLAST → o ≠ rCSREP → o ≠ rCSUNC → z.reg o = s.reg o) ∧
        (s.coreEnabled c = false → z.cores = s.cores)) ∧
    (12 ≤ k.val → n ≠ 2 → exec (.csParityRepair k st adr w c) s = .next s) ∧
    (quiet → 12 ≤ k.val → n = 2 → (clusterOf d, 2, adr.toNat) ∉ s.csBad →
      ∃ z, exec (.csParityRepair k st adr w c) s = .next z ∧
        z.reg rCSREP = s.reg rCSREP + 1 ∧ z.reg rCSUNC = s.reg rCSUNC ∧ (k.val, 2, adr.toNat) ∉ z.csBad ∧
        (z.core d).dcopy = (if v = regReset (rDENT adr.toNat) then Tbl.erase (s.core d).dcopy adr.toNat
          else Tbl.insert (Tbl.erase (s.core d).dcopy adr.toNat) adr.toNat v))) ∧
  (∀ (s : State) (c : Fin 96) (b : Fin 4) (m : MicroSt),
    (s.issuable c = none → exec (.csBoundExceeded c) s = .next s) ∧
    (s.issuable c = some b → (s.bank c b).micro = none → exec (.csBoundExceeded c) s = .next s) ∧
    (s.issuable c = some b → (s.bank c b).micro = some m →
      exec (.csBoundExceeded c) s =
        .next ((s.takeFault c b cMCHK (State.mchkTval 0x42 m.u) m.iw.toNat false false).getD (s.tsbMiss c b))))

/-- R150, R153, R154, R155, R162, R163: GCCTL takes GO at any time, SCOPE only in Idle and ABORT only in Mark; DESTQ
takes a Normal plot of its world while it has room and refuses any other; WCTL obeys the Reeve alone and refuses to
leave no Winnower in service; a core of the other world freezes and user code changes nothing; and at a boundary GO
begins Mark, ABORT ends it, Fix-up lasts while a Winnower has fix-ups left, and no phase but an aborted one ends while
an access fails. -/
def Obligations.CollectionControl : Prop :=
  ∀ (s : State) (r : RegSrc) (x : Who) (k : Fin 12) (w : Fin 2) (v : Val),
    let o := gcBase w.val
    let wd : Bool := w == 1
    let ctl := wnwBase k.val
    let rest (t : State) (o' : Nat) : Prop :=
      t.mem = s.mem ∧ t.banks = s.banks ∧ t.cores = s.cores ∧ ∀ p, p ≠ o' → t.reg p = s.reg p
    (∀ i, i ∈ [Instr.goWrite r w v, .abortWrite r w v, .destqPush r k w v, .wctlEnWrite r k v] →
      s.whoOf r = none → exec i s = .next s) ∧
    (s.whoOf r = some x → x.reeve = false → x.w ≠ wd →
      exec (.goWrite r w v) s = .next (s.freezeCore x.c x.b 0x05 (v64 o)) ∧
      exec (.abortWrite r w v) s = .next (s.freezeCore x.c x.b 0x05 (v64 o)) ∧
      exec (.destqPush r k w v) s = .next (s.freezeCore x.c x.b 0x05 (v64 (ctl + 0x50 + 0x40 * w.val)))) ∧
    (s.whoOf r = some x → x.reeve = false → x.w = wd → x.sup = false →
      ∀ i, i ∈ [Instr.goWrite r w v, .abortWrite r w v, .destqPush r k w v] → exec i s = .next s) ∧
    (s.whoOf r = some x → (x.reeve = true ∨ (x.w = wd ∧ x.sup = true)) →
      (∀ (i : Instr), (i = .goWrite r w v ∨ i = .abortWrite r w v) →
        ∃ t, exec i s = .next t ∧ rest t o ∧ t.regF o 23 20 = bits v 23 20 ∧ t.regF o 19 13 = bits v 19 13 ∧
          (s.gcPhase wd = 0 → t.regF o 10 8 = bits v 10 8) ∧ (s.gcPhase wd ≠ 0 → t.regF o 10 8 = s.regF o 10 8) ∧
          (i = .goWrite r w v → bit (t.reg o) 0 = true) ∧
          (s.gcPhase wd ≠ 1 → t.gc = s.gc) ∧
          (i = .abortWrite r w v → s.gcPhase wd = 1 → (t.gcW wd).abort = true)) ∧
      (let p := bits v 14 0
       let q := (s.wnw k wd).destq
       ∃ t, exec (.destqPush r k w v) s = .next t ∧ rest t (ctl + 8) ∧
        ((s.plotState p = 1 ∧ bit (s.reg (rPLOT p)) 8 = wd ∧ q.length < 8) →
          (t.wnw k wd).destq = q ++ [p] ∧ bit (t.reg (ctl + 8)) 2 = false) ∧
        (¬ (s.plotState p = 1 ∧ bit (s.reg (rPLOT p)) 8 = wd ∧ q.length < 8) →
          t.gc = s.gc ∧ bit (t.reg (ctl + 8)) 2 = true))) ∧
    (s.whoOf r = some x →
      (x.reeve = false → exec (.wctlEnWrite r k v) s = .next s) ∧
      (x.reeve = true →
        let stays : Prop := bit v 0 = false ∧ (s.gcPhase false ≠ 0 ∨ s.gcPhase true ≠ 0) ∧
          ∀ j : Fin 12, j ≠ k → bit (s.reg (wnwBase j.val)) 0 = false ∨ bit (s.reg (wnwBase j.val)) 1 = false
        ∃ t, exec (.wctlEnWrite r k v) s = .next t ∧ t.mem = s.mem ∧ t.banks = s.banks ∧ t.gc = s.gc ∧
          (stays → bit (t.reg (ctl + 8)) 3 = true ∧ t.reg ctl = s.reg ctl) ∧
          (¬ stays → bit (t.reg (ctl + 8)) 3 = false ∧ bit (t.reg ctl) 0 = bit v 0 ∧ bit (t.reg ctl) 1 = bit (s.reg ctl) 1))) ∧
    ((s.gcW wd).newMarks = [] →
     let t := s.gcBoundary wd
     ((s.gcW wd).failing = true → s.gcPhase wd ≠ 0 → (s.gcW wd).abort = false →
        t = s.modGcW wd fun g => { g with failing := false }) ∧
     (s.gcPhase wd = 0 → bit (s.reg o) 0 = true → bit (s.reg (o + 8)) 7 = false →
        t.gcPhase wd = 1 ∧ bit (t.reg o) 0 = false ∧ t.reg (o + 0x38) = s.reg (o + 0x38) + 1 ∧ t.mem = s.mem ∧
        ∀ (c : Fin 96) (b : Fin 4),
          ((s.bank c b).status.wld = wd → (t.bank c b).status.mrk = true ∧ (t.bank c b).scanPend = true) ∧
          ((s.bank c b).status.wld ≠ wd → t.bank c b = s.bank c b)) ∧
     (s.gcPhase wd = 1 → (s.gcW wd).abort = true →
        t.gcPhase wd = 0 ∧ bit (t.reg (o + 8)) 7 = true ∧ t.mem = s.mem ∧
        ∀ c : Fin 96, (∀ b : Fin 4,
          (s.bank c b).status.wld = wd → (t.bank c b).status.mrk = false ∧ (t.bank c b).satblog = []) ∧
          ∀ e ∈ (t.core c).sb, e.world = wd → e.mrk = false) ∧
     (s.gcPhase wd = 3 → s.anyWnw wd (fun y => !y.toFix.isEmpty) = true → t.gcPhase wd = 3))

/-- R142, R144, R147, R150, R154, R157, R158, R159, R162: what each piece of a collection's work does to the state: a
Winnower marks, copies and fixes up only in its phase and in service; an access that fails is a machine check, has no
other effect and holds the phase; destination space comes from the current plot, then from the queue; a copied object
leaves a FORWARD word; a slot that points at a FORWARD word gets the new address; scans fill the SATBLOG and Winnowers
empty it; an answered assist wakes its bank. -/
def Obligations.CollectionWork : Prop :=
  ∀ (s s1 s2 s3 s4 s5 s6 : State) (k : Fin 12) (w : Fin 2) (c : Fin 96) (b : Fin 4),
    let wd : Bool := w == 1
    let o := gcBase w.val
    let x := s.wnw k wd
    let on (n : Nat) : Prop := s.tripped = false ∧ s.gcPhase wd = n ∧ (s.gcW wd).failing = false ∧
      bit (s.reg (wnwBase k.val)) 1 = true ∧ (s.gcW wd).draining = false
    let counted (u : State) (a : Nat) (f : State → Nat → State) : State := match u.plotOf wd a with
      | some p => f u p
      | none => u
    (¬ on 1 → (s.gcW wd).draining = false → exec (.winnowerMark k w) s = .next s) ∧
    (¬ on 2 → (s.gcW wd).draining = false → exec (.winnowerCopy k w) s = .next s) ∧
    (¬ on 3 → (s.gcW wd).draining = false → exec (.winnowerFixup k w) s = .next s) ∧
    ((s.gcW wd).draining = true → s.storesLeft wd = true → exec (.winnowerCopy k w) s = .next s) ∧
    (on 1 → x.full = true → exec (.winnowerMark k w) s = .next s) ∧
    (∀ (p : Word) (q : List Word), on 1 → x.full = false → x.stack = p :: q →
      let u := s.modWnw k wd fun y => { y with stack := q }
      (scanObj k wd p u = .ok () s1 → exec (.winnowerMark k w) s = .next s1) ∧
      (∀ (e : WnwErr) (va : Nat), scanObj k wd p u = .error (e, va) s1 →
        exec (.winnowerMark k w) s = .next (wnwStop s wd va e))) ∧
    (∀ (va : Nat) (e : WnwErr), e.waits = false →
      wnwStop s wd va e = (wnwFail s wd va e).modGcW wd fun g => { g with failing := true }) ∧
    (on 1 → x.full = false → x.stack = [] → spillOf s k wd = none →
      (s.gcW wd).roots.find? (fun n => s.inService (n % 12) == k.val) = none →
      (s.gcW wd).exports.find? (fun n => s.inService (n % 12) == k.val) = none → exec (.winnowerMark k w) s = .next s) ∧
    (∀ (p y : Word), s.badWord y = none → traced s wd y = true → s.isHeadered y.type = false → y.type ≠ tySYMBOL →
      let h := wnwOf s wd y.val.toNat
      wRead k wd p.val.toNat s = .ok y s → markBit h wd y.val.toNat s = .ok false s1 →
      setMarkBit h wd y.val.toNat true s1 = .ok () s2 → (s2.wnw h wd).full = false → (s2.wnw h wd).stack.length < 4096 →
      scanWords none k wd 1 p.val.toNat s =
        .ok () (counted ((s2.modWnw h wd fun z => { z with stack := y :: z.stack }).modGcW wd fun g => { g with
          marked := g.marked ++ [(y.val.toNat, y)] }) y.val.toNat State.addWork)) ∧
    (∀ n : Nat,
      let plot (a : Nat) : Nat := (a - s.heapBase wd) / 2 ^ 21
      let next (d : Nat) : Nat := if plot (d + 8 * n) = plot d then d + 8 * n else 0
      let took (d : Nat) (r : List Nat) : State := (s.modWnw k wd fun y => { y with destq := r, cur := next d }).modGcW wd
        fun g => { g with dests := if g.dests.contains (plot d) then g.dests else g.dests ++ [plot d] }
      let fits : Prop := x.cur ≠ 0 ∧ plot x.cur = plot (x.cur + 8 * n - 8)
      (fits → takeDest k wd n s = .ok x.cur (took x.cur x.destq)) ∧
      (¬ fits → ∀ (p : Nat) (r : List Nat), x.destq = p :: r →
        takeDest k wd n s = .ok (s.heapBase wd + 2 ^ 21 * p) (took (s.heapBase wd + 2 ^ 21 * p) r)) ∧
      (¬ fits → x.destq = [] → takeDest k wd n s = .error (.noDest k, 0) s)) ∧
    (∀ (a d : Nat) (q : List Nat) (w0 : Word), on 2 → x.toCopy = a :: q → wRead k wd a s = .ok w0 s1 →
      (w0.type = tyFORWARD →
        exec (.winnowerCopy k w) s = .next (s1.modWnw k wd fun y => { y with toCopy := q })) ∧
      (w0.type ≠ tyFORWARD → w0.type ≠ tyHEADER → ((s.gcW wd).marked.filter (·.1 == a)).map (·.2.type) = [tyCONS] →
        markBit k wd (a + 8) s1 = .ok false s2 → (s2.gcW wd).draining = false → takeDest k wd 2 s2 = .ok d s3 →
        copyWords k wd 2 a d (setDestWait s3 k wd false) = .ok () s4 → setMarkBit k wd d true s4 = .ok () s5 →
        wWrite k wd a ⟨BitVec.ofNat 8 tyFORWARD, v64 d⟩ s5 = .ok () s6 → s6.gcPhase wd = 2 →
        exec (.winnowerCopy k w) s = .next
          ((counted ((s6.incF (wnwBase k + 0x18) 63 0 16).modGcW wd fun g => { g with
            copied := g.copied ++ [(a, ⟨0, v64 d⟩)] }) a fun u p => u.addW p 1).modWnw k wd fun y => { y with toCopy := q }))) ∧
    (∀ (v : Nat) (q : List (Nat × Nat)), on 3 → x.toFix = (1, v) :: q → rootRange k wd v s = .ok none s1 →
      exec (.winnowerFixup k w) s = .next (s1.modWnw k wd fun y => { y with toFix := q })) ∧
    (∀ (a : Nat) (y f : Word), wRead k wd a (counted s a State.addWork) = .ok y s1 → s1.badWord y = none →
      s1.isPtr y.type = true → s1.inEvac wd y.val.toNat = true → wRead k wd y.val.toNat s1 = .ok f s2 →
      f.type = tyFORWARD → wWrite k wd a ⟨y.tag, f.val⟩ s2 = .ok () s3 → fixSlot k wd a s = .ok () s3) ∧
    (on 3 → x.toFix = [] → exec (.winnowerFixup k w) s = .next s) ∧
    (s.gc.assists.find? (fun r => r.k == k.val && r.result.isNone) = none → exec (.winnowerAssist k) s = .next s) ∧
    (∀ (r : Assist), s.gc.assists.find? (fun r => r.k == k.val && r.result.isNone) = some r →
      (s.gcW r.world).draining = false → (s.gcW r.world).failing = false → s.tripped = false →
      (assistStep k s = .ok () s1 → exec (.winnowerAssist k) s = .next s1) ∧
      (∀ (e : WnwErr) (va : Nat), assistStep k s = .error (e, va) s1 →
        exec (.winnowerAssist k) s = .next (wnwStop s r.world va e))) ∧
    (∀ y : WaitRec, (s.bank c b).wait = some y → y.cause = 4 → y.done = false →
      ((∃ r ∈ s.gc.assists, r.core = c.val ∧ r.bank = b ∧ r.addr = y.key ∧ r.tagb = y.tagb ∧ r.result.isSome = true) →
        exec (.assistReply c b) s = .next (s.deliver c (.waitDone b .none))) ∧
      ((∀ r ∈ s.gc.assists, r.core = c.val → r.bank = b → r.result = none) → exec (.assistReply c b) s = .next s)) ∧
    (let l := s.bank c b
     (l.scanPend = true → l.satblog.length + (scanGo s l.status.wld l (scanRegs l)).length ≤ 256 →
       ∃ t, exec (.registerScan c b) s = .next t ∧ (t.bank c b).scanPend = false ∧
         (t.bank c b).satblog = l.satblog ++ scanGo s l.status.wld l (scanRegs l) ∧ t.mem = s.mem ∧
         (l.st = 3 → l.wcause = 7 → l.flipPend = false → (t.bank c b).st = 1) ∧ (l.wcause ≠ 7 → (t.bank c b).st = l.st) ∧
         ∀ c' b', (c', b') ≠ ((c : Nat), b) → t.bank c' b' = s.bank c' b') ∧
     (l.scanPend = true → 256 < l.satblog.length + (scanGo s l.status.wld l (scanRegs l)).length →
       exec (.registerScan c b) s = .next s) ∧
     (l.flipPend = true → (s.gcW l.status.wld).failing = false → flipGo c b l.status.wld (scanRegs l) s = .ok () s1 →
       ∃ t, exec (.registerFlip c b) s = .next t ∧ (t.bank c b).flipPend = false ∧ t.mem = s1.mem ∧
         (t.bank c b).gr = (s1.bank c b).gr) ∧
     (s.gcPhase l.status.wld = 1 → (s.gcW l.status.wld).failing = false → s.tripped = false →
       (s.wnw (s.inService (clusterOf c)) l.status.wld).full = false →
       (∀ (y : Word) (q : List Word), l.satblog = y :: q →
         (s.isPtr y.type = false ∨ s.inScope l.status.wld y.val.toNat = false →
           exec (.satblogTake c b) s = .next (s.modBank c b fun k => { k with satblog := q })) ∧
         (s.isPtr y.type = true → s.inScope l.status.wld y.val.toNat = true → markObj l.status.wld y s = .ok () s1 →
           exec (.satblogTake c b) s = .next (s1.modBank c b fun k => { k with satblog := q })))) ∧
     (s.gcPhase l.status.wld ≠ 1 → exec (.satblogTake c b) s = .next s)) ∧
    (bit (s.reg (o + 8)) 7 = false → exec (.bitmapClearDone w) s = .next s) ∧
    (bit (s.reg (o + 8)) 7 = true → (s.gcW wd).failing = false → s.tripped = false →
      State.clearMaps wd (s.gcW wd).clearing s = .ok () s1 →
      ∃ t, exec (.bitmapClearDone w) s = .next t ∧ bit (t.reg (o + 8)) 7 = false ∧ (t.gcW wd).clearing = [] ∧
        t.mem = s1.mem ∧ t.banks = s1.banks)

/-- R167, R189, R274, R276, R278, R279, R280, R296: a request reaches its home only when its agent may send it, which
the odd core of a yoked pair may not, and the fence lets its world through; a line in a transaction queues it, 64
deep, and then refuses it; otherwise memory data, a grant or the probes of R278 are sent, the line is blocked and the
directory is written. -/
def Obligations.HomeRequests : Prop :=
  ∀ (s : State) (a : Fin 108) (gr : BitVec 34) (w : Fin 2) (wr : Option (Fin 8 × Word)),
    let g := gr.toNat
    let wd : Bool := w == 1
    let e := s.dirE g
    let odd : Prop := a.val < 96 ∧ s.oddBound a = true
    let room : Prop := s.inDram (64 * g) = true ∧ s.tripped = false ∧ ¬ odd
    let own : Prop := room ∧ s.fenceOwner (64 * g) = w.val
    let out : Prop := s.missOut a g = true
    let free : Prop := own ∧ s.txn g = none ∧ Tbl.get 0 s.mem.upDir g = 0
    let entry : Prop := free ∧ s.dirVictim g = some none
    let reqs : List (Instr × Req) := [(.homeRd a gr w, .rd), (.homeRo a gr w, .ro), (.homeUpg a gr w, .upg),
      (.homeCwb a gr w, .cwb), (.homeCinv a gr w, .cinv), (.homeUc a gr w wr, .uc (wr.map fun x => (x.1.val, x.2)))]
    let may (q : Req) : Prop := match q with
      | .rd | .ro => s.agLine a g = none ∧ ¬ out
      | .upg => ¬ out ∧ ∃ l, s.agLine a g = some l ∧ (l.st = .s ∨ l.st = .f)
      | .cwb | .cinv => ¬ out
      | .uc _ => True
    let same (t : State) : Prop := t.banks = s.banks ∧ t.cores = s.cores ∧ t.mem.vals = s.mem.vals ∧
      t.mem.tags = s.mem.tags ∧ t.mem.lines = s.mem.lines
    let grants (i : Instr) (q : Req) (tr : AgentTr) (f : FillMsg) : Prop :=
      ∃ t x, exec i s = .next t ∧ same t ∧ t.trans a g = some tr ∧ t.mem.fills = s.mem.fills ++ [f] ∧
        t.txn g = some x ∧ x.agent = a ∧ x.tr = .bc ∧ x.req = q ∧ (t.dirE g).blk = true ∧ (t.dirE g).dst = .ex ∧
        (t.dirE g).fwd = some a.val ∧ (t.dirE g).pv = [a.val] ∧ t.mem.probes = s.mem.probes
    let probes (i : Instr) (q : Req) (tr : Option AgentTr) (st : HomeTr) (ps : List (Nat × Probe)) : Prop :=
      ∃ t x, exec i s = .next t ∧ same t ∧ (tr.isSome = true → t.trans a g = tr) ∧ t.mem.fills = s.mem.fills ∧
        t.txn g = some x ∧ x.agent = a ∧ x.tr = st ∧ x.req = q ∧ x.acks = ps.map (·.1) ∧ (t.dirE g).blk = true ∧
        (t.dirE g).dst = e.dst ∧ (t.dirE g).pv = e.pv ∧ t.mem.probes = s.mem.probes ++ ps.map fun p => (p.1, g, p.2)
    (∀ i q, (i, q) ∈ reqs → (¬ may q ∨ s.tripped = true ∨ odd ∨ (s.inDram (64 * g) = false ∧ s.inBin (64 * g) = false)) →
      exec i s = .next s) ∧
    (∀ i q, (i, q) ∈ reqs → may q → room → s.fenceOwner (64 * g) ≠ w.val →
      (96 ≤ a.val → exec i s = .next (wnwFail s wd (64 * g) .fence)) ∧
      (a.val < 96 → (s.core a).frozen = true → exec i s = .next s) ∧
      (a.val < 96 → (s.core a).frozen = false → exec i s =
        .next (s.freezeCore a ((s.core a).run.getD (s.core a).lastRun) vFENCEDATA (v64 (64 * g))))) ∧
    (∀ i q, (i, q) ∈ reqs → may q → own → (s.txn g).isSome = true →
      let n := (s.mem.queue.filter fun x => State.home x.gran == State.home g).length
      ∃ t, exec i s = .next t ∧ same t ∧ t.mem.dir = s.mem.dir ∧ t.mem.txns = s.mem.txns ∧
        (n < 64 → t.mem.queue = s.mem.queue ++ [⟨g, a, q, wd⟩] ∧ t.mem.nacked = s.mem.nacked ∧ t.regs = s.regs) ∧
        (64 ≤ n → t.mem.queue = s.mem.queue ∧ t.mem.nacked = s.mem.nacked ++ [⟨g, a, q, wd⟩])) ∧
    (∀ (d : Bool) (l : Line), entry → e.dst = .i → s.mem.upL3.contains g = false → s.l3Line g = some ⟨d, l⟩ →
      (may .rd → grants (.homeRd a gr w) .rd .isD ⟨a, g, some l, false, .e, wd⟩) ∧
      (may .rd → grants (.homeRo a gr w) .ro .imD ⟨a, g, some l, true, .m, wd⟩) ∧
      (may .upg → grants (.homeUpg a gr w) .ro .smG ⟨a, g, some l, true, .m, wd⟩)) ∧
    (entry → e.dst = .i → s.mem.upL3.contains g = false → s.l3Line g = none →
      Tbl.get 0 s.mem.ecc (s.store (64 * g) / 64) = 0 → may .rd →
      (s.mem.l3.filter fun y => State.home y.1 == State.home g).length < 196608 - s.regF (clusterBase (State.home g) + 0x10018) 15 0 →
      let l : Line := ⟨s.mem.line (s.store (64 * g) / 64), s.mem.poisoned (s.store (64 * g) / 64)⟩
      grants (.homeRd a gr w) .rd .isD ⟨a, g, some l, false, .e, wd⟩ ∧
      ∀ t, exec (.homeRd a gr w) s = .next t → t.l3Line g = some ⟨false, l⟩) ∧
    (∀ o : Nat, entry → e.dst = .ex → e.fwd = some o →
      (may .rd → probes (.homeRd a gr w) .rd (some .isD) .bp [(o, .prd a)] ∧
        probes (.homeRo a gr w) .ro (some .imD) .bp [(o, .pro a)])) ∧
    (∀ (x : Nat) (rest : List Nat), entry → e.dst = .sh → State.byDistance a e.pv = x :: rest →
      (may .rd → probes (.homeRo a gr w) .ro (some .imD) .bp ((x, .pro a) :: rest.map fun b => (b, .pinv)) ∧
        (∀ f, e.fwd = some f → f ≠ x → f ≠ a →
          probes (.homeRd a gr w) .rd (some .isD) .bp [(x, .prd a), (f, .fdem)]) ∧
        ((e.fwd = none ∨ e.fwd = some x) → probes (.homeRd a gr w) .rd (some .isD) .bp [(x, .prd a)])) ∧
      (may .upg → e.pv.contains a.val = true →
        probes (.homeUpg a gr w) .upg (some .smG) .bp ((x :: rest).map fun b => (b, .pinv)))) ∧
    (entry → e.dst = .sh → may .upg → e.pv.contains a.val = true → State.byDistance a e.pv = [] →
      grants (.homeUpg a gr w) .upg .smG ⟨a, g, none, true, .m, wd⟩) ∧
    (∀ (d : Bool) (l : Line), entry → e.dst = .sh → may .rd → State.byDistance a e.pv = [] →
      s.mem.upL3.contains g = false → s.l3Line g = some ⟨d, l⟩ →
      ∃ t, exec (.homeRd a gr w) s = .next t ∧ same t ∧ t.trans a g = some .isD ∧
        t.mem.fills = s.mem.fills ++ [⟨a, g, some l, false, .f, wd⟩] ∧ (t.dirE g).blk = true ∧ (t.dirE g).dst = .sh ∧
        (t.dirE g).fwd = some a.val ∧ (t.dirE g).pv = [a.val] ∧ t.mem.probes = s.mem.probes) ∧
    (∀ o : Nat, free → may .cwb → e.dst = .ex → e.fwd = some o → probes (.homeCwb a gr w) .cwb none .bu [(o, .pcln)]) ∧
    (free → e.dst ≠ .i →
      (may .cinv → probes (.homeCinv a gr w) .cinv none .bu (e.pv.map fun b => (b, .pinv))) ∧
      (probes (.homeUc a gr w wr) (.uc (wr.map fun x => (x.1.val, x.2))) none .bu (e.pv.map fun b => (b, .pinv)))) ∧
    (∀ l : Line, free → s.mem.upL3.contains g = false → s.l3Line g = some ⟨true, l⟩ →
      (may .cwb → e.dst ≠ .ex → ∃ t, exec (.homeCwb a gr w) s = .next t ∧ t.txn g = none ∧
        t.l3Line g = some ⟨false, l⟩ ∧ (∀ i < 8, t.mem.word (64 * g + 8 * i) = (s.mem.putLine g l).word (64 * g + 8 * i))) ∧
      (may .cinv → e.dst = .i → ∃ t, exec (.homeCinv a gr w) s = .next t ∧ t.txn g = none ∧ t.l3Line g = none ∧
        (∀ i < 8, t.mem.word (64 * g + 8 * i) = (s.mem.putLine g l).word (64 * g + 8 * i))))

/-- R267, R276, R277, R278, R280, R281, R282, R283, R292: an agent answers each probe from the line it holds or its
victim buffer, and a reservation holds the answer back; the home counts acknowledgements, takes dirty data and grants
when all have come; data and grants install the line; CMP frees it; a writeback or a notice by the owner frees the
directory entry; an eviction sends what its state requires; a refused request is sent again, under the fence as it
then is; the patrol scrub reads the next granule of a channel once its interval has passed. -/
def Obligations.AgentsAndReplies : Prop :=
  ∀ (s : State) (a : Fin 108) (gr : BitVec 34) (k : ProbeAck) (x : HomeTxn) (l : AgentLine) (v : Line) (q : QReq),
    let g := gr.toNat
    let e := s.dirE g
    let other (t : State) : Prop := t.regs = s.regs ∧ t.banks = s.banks ∧ t.mem.vals = s.mem.vals ∧
      t.mem.tags = s.mem.tags ∧ ∀ (b h : Nat), h < 2 ^ 34 → (b, h) ≠ (a.val, g) → t.agLine b h = s.agLine b h
    let row (p : Probe) : Instr := match p with
      | .prd _ => .prd a gr
      | .pro _ => .pro a gr
      | .pinv => .pinv a gr
      | .pcln => .pcln a gr
      | .fdem => .fdem a gr
    let kind (p p' : Probe) : Prop := row p = row p'
    let come (p : Probe) : Prop := (a.val, g, p) ∈ s.mem.probes ∧ ∀ p', (a.val, g, p') ∈ s.mem.probes → kind p p' → p' = p
    let acked (t : State) (p : Probe) (nd : Bool) (d : Option Line) : Prop :=
      t.mem.acks = s.mem.acks ++ [⟨a, g, p, nd, d⟩] ∧ t.mem.probes = s.mem.probes.erase (a.val, g, p)
    let room3 : Prop := (s.l3Line g).isSome = true ∨ (s.mem.l3.filter fun y => State.home y.1 == State.home g).length <
      196608 - s.regF (clusterBase (State.home g) + 0x10018) 15 0
    let clean : Prop := s.mem.upL2.contains (a.val, g) = false
    (∀ p, (∀ p', (a.val, g, p') ∈ s.mem.probes → ¬ kind p p') → exec (row p) s = .next s) ∧
    (∀ p, come p → s.holdsProbe a g = true → p ≠ .fdem → exec (row p) s = .next s) ∧
    (∀ p, come p → (s.holdsProbe a g = false ∨ p = .fdem) → clean → s.agLine a g = some l →
      ∃ t, exec (row p) s = .next t ∧ other t ∧
        (∀ r, p = .prd r → t.agLine a g = some { l with st := .s } ∧
          acked t p false (if l.st = .m then some l.line else none) ∧
          ∃ f, t.mem.fills = s.mem.fills ++ [f] ∧ f.agent = r ∧ f.gran = g ∧ f.data = some l.line ∧ f.gnt = false) ∧
        (∀ r, p = .pro r → t.agLine a g = none ∧ acked t p false none ∧
          ∃ f, t.mem.fills = s.mem.fills ++ [f] ∧ f.agent = r ∧ f.gran = g ∧ f.data = some l.line ∧ f.gnt = false) ∧
        (p = .pinv → t.agLine a g = none ∧ acked t p false (if l.st = .m then some l.line else none) ∧
          t.mem.fills = s.mem.fills) ∧
        (p = .pcln → (l.st = .m → t.agLine a g = some { l with st := .e }) ∧ (l.st ≠ .m → t.agLine a g = some l) ∧
          acked t p false (if l.st = .m then some l.line else none) ∧ t.mem.fills = s.mem.fills) ∧
        (p = .fdem → (l.st = .f → t.agLine a g = some { l with st := .s }) ∧ (l.st ≠ .f → t.agLine a g = some l) ∧
          acked t p false none ∧ t.mem.fills = s.mem.fills)) ∧
    (∀ p, come p → (s.holdsProbe a g = false ∨ p = .fdem) → clean → s.agLine a g = none → s.victim a g = none →
      ∃ t, exec (row p) s = .next t ∧ other t ∧ t.cores = s.cores ∧ acked t p true none ∧ t.mem.fills = s.mem.fills) ∧
    (∀ p, come p → s.holdsProbe a g = false → clean → s.agLine a g = none → s.victim a g = some v →
      (∃ y ∈ s.mem.wbs, y.1 = a.val ∧ y.2.1 = g) → (p = .pinv ∨ p = .pcln) →
      ∃ t, exec (row p) s = .next t ∧ other t ∧ acked t p false (some v) ∧ (a.val, g) ∈ t.mem.staleWbs ∧
        ∀ y ∈ t.mem.wbs, (y.1, y.2.1) ≠ (a.val, g)) ∧
    ((∀ y ∈ s.mem.acks, (y.agent, y.gran) ≠ (a.val, g)) → exec (.probeAcknowledge a gr) s = .next s) ∧
    (s.mem.acks.find? (fun y => y.agent == a.val && y.gran == g) = some k → s.txn g = some x →
      (k.dirty = none ∨ room3) →
      let n := x.acks.erase a.val
      let saved (t : State) : Prop := ∀ d, k.dirty = some d → t.l3Line g = some ⟨true, d⟩
      let asks : Prop := k.nodata = true ∧ ∃ r, k.probe = .prd r ∨ k.probe = .pro r
      (¬ asks → n ≠ [] → ∃ t, exec (.probeAcknowledge a gr) s = .next t ∧ other t ∧ saved t ∧ t.mem.dir = s.mem.dir ∧
        t.mem.acks = s.mem.acks.erase k ∧ t.txn g = some { x with acks := n }) ∧
      (asks → ∀ (y : Nat) (rest : List Nat), x.respTry = y :: rest →
        ∃ t, exec (.probeAcknowledge a gr) s = .next t ∧ other t ∧ saved t ∧ t.mem.dir = s.mem.dir ∧
          t.txn g = some { x with acks := n ++ [y], respTry := rest } ∧
          t.mem.probes = s.mem.probes ++ [(y, g, if x.req = .rd then .prd x.agent else .pro x.agent)]) ∧
      (¬ asks → n = [] → x.tr = .bp → x.req ≠ .rd → x.cmp = false → ∃ t, exec (.probeAcknowledge a gr) s = .next t ∧
        other t ∧ (t.dirE g).dst = .ex ∧ (t.dirE g).fwd = some x.agent ∧ (t.dirE g).pv = [x.agent] ∧
        (t.dirE g).blk = true ∧ t.mem.fills = s.mem.fills ++ [⟨x.agent, g, none, true, .m, x.world⟩] ∧
        t.txn g = some { x with acks := [], tr := .bc }) ∧
      (¬ asks → n = [] → x.tr = .bp → x.req = .rd → x.cmp = false → x.back = false →
        ∃ t, exec (.probeAcknowledge a gr) s = .next t ∧ other t ∧ (t.dirE g).dst = .sh ∧ (t.dirE g).fwd = some x.agent ∧
          (t.dirE g).pv = (e.pv.filter fun b => b != x.agent) ++ [x.agent] ∧ (t.dirE g).blk = true ∧
          t.mem.fills = s.mem.fills ∧ t.txn g = some { x with acks := [], tr := .bc })) ∧
    ((a.val, g) ∉ s.mem.cmps → exec (.homeCmp a gr) s = .next s) ∧
    ((a.val, g) ∈ s.mem.cmps → s.txn g = some x →
      (x.tr ≠ .bc → ∃ t, exec (.homeCmp a gr) s = .next t ∧ other t ∧ t.txn g = some { x with cmp := true } ∧
        t.mem.cmps = s.mem.cmps.erase (a.val, g)) ∧
      (x.tr = .bc → (∀ y ∈ s.mem.queue, y.gran ≠ g) → ∃ t, exec (.homeCmp a gr) s = .next t ∧ other t ∧
        t.txn g = none ∧ (t.dirE g).blk = false ∧ t.mem.queue = s.mem.queue)) ∧
    ((∀ f ∈ s.mem.fills, (f.agent, f.gran) ≠ (a.val, g)) → exec (.agentFill a gr) s = .next s) ∧
    (∀ f : FillMsg, s.mem.fills.filter (fun f => f.agent == a.val && f.gran == g) = [f] →
      (f.final = .m → f.gnt = false → exec (.agentFill a gr) s = .next s) ∧
      ((a.val < 96 ∧ s.oddBound a = true) ∨ (s.waysFull a g = true ∧ s.evictable a g = []) →
        exec (.agentFill a gr) s = .next s) ∧
      (∀ d, (f.final ≠ .m ∨ f.gnt = true) → (96 ≤ a.val ∨ s.oddBound a = false) → s.agLine a g = none →
        s.waysFull a g = true → s.evictable a g ≠ [] → f.data = some d →
        ∃ t y, exec (.agentFill a gr) s = .next t ∧ y ∈ s.evictable a g ∧ t.agLine a y = none ∧
          t.agLine a g = some ⟨f.final, f.world, d⟩) ∧
      (∀ d, (f.final ≠ .m ∨ f.gnt = true) → (96 ≤ a.val ∨ s.oddBound a = false) → s.waysFull a g = false →
        (f.data = some d ∨ f.data = none ∧ s.agLine a g = some l ∧ d = l.line) →
        ∃ t, exec (.agentFill a gr) s = .next t ∧ other t ∧ t.agLine a g = some ⟨f.final, f.world, d⟩ ∧
          t.mem.cmps = s.mem.cmps ++ [(a.val, g)] ∧ t.trans a g = (if (s.victim a g).isSome then some .miA else none) ∧
          ∀ y ∈ t.mem.fills, (y.agent, y.gran) ≠ (a.val, g))) ∧
    (∀ d, (a.val, g) ∉ s.mem.wbacks → s.mem.wbs = [(a.val, g, d)] → (∀ p, (a.val, g, p) ∉ s.mem.probes) → room3 →
      ∃ t, exec (.homeWb a gr) s = .next t ∧ other t ∧ t.mem.wbs = [] ∧ t.mem.wbacks = s.mem.wbacks ++ [(a.val, g)] ∧
        (e.dst = .ex → e.fwd = some a.val → t.l3Line g = some ⟨true, d⟩ ∧ (t.dirE g).dst = .i) ∧
        (¬ (e.dst = .ex ∧ e.fwd = some a.val) → t.mem.l3 = s.mem.l3 ∧ t.mem.dir = s.mem.dir)) ∧
    ((a.val, g) ∈ s.mem.wbacks → exec (.homeWb a gr) s = .next s) ∧
    (((a.val, g) ∉ s.mem.evns → exec (.homeEvn a gr) s = .next s) ∧
     ((a.val, g) ∈ s.mem.evns → ∃ t, exec (.homeEvn a gr) s = .next t ∧ other t ∧
       t.mem.evns = s.mem.evns.erase (a.val, g) ∧
       (e.dst = .ex → e.fwd = some a.val → (t.dirE g).dst = .i) ∧
       (e.dst = .sh → e.pv.filter (· != a.val) = [] → (t.dirE g).dst = .i) ∧
       (e.dst = .sh → e.pv.filter (· != a.val) ≠ [] → (t.dirE g).dst = .sh ∧ (t.dirE g).pv = e.pv.filter (· != a.val)))) ∧
    ((a.val, g) ∈ s.mem.wbacks → (∀ p, (a.val, g, p) ∉ s.mem.probes) → ∃ t, exec (.wback a gr) s = .next t ∧ other t ∧
      t.victim a g = none ∧ t.mem.wbacks = s.mem.wbacks.erase (a.val, g)) ∧
    (((a.val, g) ∉ s.mem.wbacks ∨ ∃ p, (a.val, g, p) ∈ s.mem.probes) → exec (.wback a gr) s = .next s) ∧
    ((s.missOut a g = true ∨ (a.val < 96 ∧ g ∈ (s.core a).locks)) → exec (.agentEviction a gr) s = .next s) ∧
    (s.missOut a g = false → (96 ≤ a.val ∨ g ∉ (s.core a).locks) → clean → s.agLine a g = some l →
      (l.st = .m → (s.mem.victims.filter fun y => y.1 / 2 ^ 34 == a.val).length < 8 → s.victim a g = none →
        ∃ t, exec (.agentEviction a gr) s = .next t ∧ other t ∧ t.agLine a g = none ∧ t.victim a g = some l.line ∧
          t.trans a g = some .miA ∧ t.mem.wbs = s.mem.wbs ++ [(a.val, g, l.line)]) ∧
      (l.st = .m → 8 ≤ (s.mem.victims.filter fun y => y.1 / 2 ^ 34 == a.val).length →
        exec (.agentEviction a gr) s = .next s) ∧
      ((l.st = .e ∨ l.st = .f) → ∃ t, exec (.agentEviction a gr) s = .next t ∧ other t ∧ t.agLine a g = none ∧
        t.mem.evns = s.mem.evns ++ [(a.val, g)] ∧ t.mem.wbs = s.mem.wbs) ∧
      (l.st = .s → ∃ t, exec (.agentEviction a gr) s = .next t ∧ other t ∧ t.agLine a g = none ∧
        t.mem.evns = s.mem.evns ∧ t.mem.wbs = s.mem.wbs)) ∧
    ((∀ y ∈ s.mem.nacked, (y.agent, y.gran) ≠ (a.val, g)) → exec (.requestRetry a gr) s = .next s) ∧
    (s.mem.nacked.find? (fun y => y.agent == a.val && y.gran == g) = some q →
      let u := s.modMem fun m => { m with nacked := m.nacked.erase q }
      let end_ : Option AgentTr := if (s.victim a g).isSome then some .miA else none
      s.fenceOwner (64 * g) ≠ wn q.world →
      exec (.requestRetry a gr) s =
        .next ((if s.missOut a g then u.setTrans a g end_ else u).homeFence a q.world (64 * g))) ∧
    (s.mem.nacked.find? (fun y => y.agent == a.val && y.gran == g) = some q → (s.txn g).isSome = true →
      s.fenceOwner (64 * g) = wn q.world →
      (s.mem.queue.filter fun y => State.home y.gran == State.home g).length < 64 →
      ∃ t, exec (.requestRetry a gr) s = .next t ∧ other t ∧ t.mem.nacked = s.mem.nacked.erase q ∧
        t.mem.queue = s.mem.queue ++ [q]) ∧
    (∀ (n : Fin 12) (set : Fin 16384),
      ∃ t, exec (.directoryRebuild n set) s = .next t ∧ t.mem.lines = s.mem.lines ∧ t.mem.vals = s.mem.vals ∧
        t.banks = s.banks ∧
        ∀ h, h < 2 ^ 34 → State.home h = n.val → State.dirSet h = set.val → s.txn h = none →
          (t.dirE h).dst = (s.reported h).dst ∧ (t.dirE h).fwd = (s.reported h).fwd ∧
          (t.dirE h).pv = (s.reported h).pv) ∧
    (∀ ch : Fin 16, (bit (s.reg rSCRUB) 31 = false ∨ bit (s.reg rMCSTAT) ch.val = false ∨
        s.scrubDue ch.val = false) →
      exec (.patrolScrub ch) s = .next s) ∧
    (∀ ch : Fin 16, bit (s.reg rSCRUB) 31 = true → bit (s.reg rMCSTAT) ch.val = true → s.scrubDue ch.val = true →
      ∃ t, exec (.patrolScrub ch) s = .next t ∧ t.mem.vals = s.mem.vals ∧ t.mem.tags = s.mem.tags ∧
        t.mem.lines = s.mem.lines ∧ t.banks = s.banks ∧
        Tbl.get 0 t.mem.scrubPos ch.val = (Tbl.get 0 s.mem.scrubPos ch.val + 1) % 50331648 ∧
        Tbl.get none t.mem.scrubAt ch.val = some s.bounds)

/-- R336, R338, R339, R340, R346, R349, R351, R354, R355: the link state machine. A command or an event acts in the
states that R339 and R340 name and sets REJ or changes nothing in the others; a link with no packet to hand back that
goes down keeps its Retrain entries and the packets received, and its LNKSTAT names the cause when it was in use. -/
def Obligations.LinkStates : Prop :=
  ∀ (s : State) (l : Fin 6) (pre : Bool) (lanes : List LaneInfo) (f : Flit),
    let st := s.linkState l
    let o := linkBase l.val + 8
    let ctl := s.reg (linkBase l.val)
    let x := s.link l
    let up : Prop := s.tripped = false
    let rest (t : State) : Prop := t.banks = s.banks ∧ t.cores = s.cores ∧ t.mem = s.mem ∧ t.gc = s.gc ∧
      (∀ l' : Fin 6, l' ≠ l → t.link l' = s.link l' ∧ t.linkState l' = s.linkState l')
    let rej (i : Instr) (b : Bool) (n : Nat) : Prop := ∃ t, exec i s = .next t ∧ rest t ∧ bit (t.reg o) 9 = b ∧ t.linkState l = n
    let goes (i : Instr) (n : Nat) : Prop := ∃ t, exec i s = .next t ∧ rest t ∧ t.linkState l = n ∧ t.link l = x
    let near : List Nat := x.retrains.filter fun b => decide (s.bounds - b < 2 ^ 20)
    let kept : List (Nat × Packet) := x.rxOld ++ x.rxHeld
    let lock (t : State) (b : Bool) : Prop := ∀ k < 8, bit (t.reg (linkBase l.val + 0x80 + 8 * k)) 4 = b
    let down (i : Instr) (n cause : Nat) (rs : List Nat) (old : List (Nat × Packet)) : Prop :=
      ∃ t, exec i s = .next t ∧ rest t ∧ t.linkState l = n ∧ t.link l = { retrains := rs, rxOld := old } ∧ lock t false ∧
        (st = 4 ∨ st = 5 ∨ st = 6 → t.regF o 19 16 = cause) ∧ (∀ y ∈ t.fab.cache, y.2.1 ≠ l.val)
    let empty : Prop := s.backPackets l = []
    ((st = 0 ∨ st = 7) → rej (.linkEnable l) false 1) ∧ (st ≠ 0 → st ≠ 7 → rej (.linkEnable l) true st) ∧
    (st = 0 → rej (.linkDisable l) true 0 ∧ rej (.linkForce l) false 0) ∧
    (st ≠ 0 → empty → down (.linkForce l) 0 7 x.retrains (if s.linkFrozen l then [] else kept) ∧ rej (.linkForce l) false 0) ∧
    (st ≠ 0 → st ≠ 5 → st ≠ 6 → empty → down (.linkDisable l) 0 7 x.retrains kept) ∧
    ((st = 5 ∨ st = 6) → (∀ v, Tbl.get [] x.q v = []) →
      ∃ t, exec (.linkDisable l) s = .next t ∧ rest t ∧ t.linkState l = st ∧ (t.link l).quiesceTx = true ∧
        (t.link l).disabling = true ∧ (t.link l).q = [] ∧ (t.link l).replay = x.replay ∧ bit (t.reg o) 9 = false) ∧
    (st ≠ 5 → rej (.linkRetrain l) true st) ∧
    (st = 5 → near.length < 15 →
       (∃ t, exec (.linkRetrain l) s = .next t ∧ rest t ∧ t.linkState l = 6 ∧ t.regF o 19 16 = 4 ∧ lock t false ∧
         (t.link l).replay = x.replay ∧ (t.link l).rxPart = [] ∧ (t.link l).markDue = false ∧ (t.link l).markIn = false ∧
         (t.link l).credDue = (x.credDue || !x.rxPart.isEmpty) ∧ (t.link l).retrains = near ++ [s.bounds] ∧
         t.regF (linkBase l.val + 0x48) 31 0 = (s.regF (linkBase l.val + 0x48) 31 0 + 1) % 2 ^ 32) ∧
       (up → ∃ t, exec (.laneLockLoss l) s = .next t ∧ rest t ∧ t.linkState l = 6 ∧ t.regF o 19 16 = 1 ∧
         (t.link l).replay = x.replay)) ∧
    (st = 5 → 15 ≤ near.length → empty → x.disabling = false →
      down (.linkRetrain l) 7 6 (near ++ [s.bounds]) kept ∧ (up → down (.laneLockLoss l) 7 6 (near ++ [s.bounds]) kept)) ∧
    (∀ i, i ∈ [Instr.linkDetect l, .trainComplete l pre, .alignComplete l lanes, .linkAutoRetry l, .laneLockLoss l,
      .retrainLock l, .retrainTimeout l, .disableTimeout l] → s.tripped = true → exec i s = .next s) ∧
    (up →
      (st = 1 → goes (.linkDetect l) 2) ∧ (st ≠ 1 → exec (.linkDetect l) s = .next s) ∧
      (st = 2 → ∃ t, exec (.trainComplete l pre) s = .next t ∧ rest t ∧ t.linkState l = 3 ∧ t.link l = x ∧
        bit (t.reg o) 8 = (pre && bit ctl 6)) ∧
      (st ≠ 2 → exec (.trainComplete l pre) s = .next s) ∧
      (st = 3 → lanes.length = 4 → (∀ i : Fin 4, ∃ y ∈ lanes, y.map.val = i.val) →
        ∃ t, exec (.alignComplete l lanes) s = .next t ∧ rest t ∧ t.linkState l = 4 ∧ (t.link l).q = x.q ∧
          (t.link l).replay = [] ∧ (t.link l).sent = [] ∧ (t.link l).freed = [] ∧ (t.link l).limit = [] ∧
          (t.link l).rxOld = x.rxOld ∧ t.txNext l = 0 ∧ t.rxExp l = 0 ∧ (t.link l).ctrlDue = [(1, rawWord 0x0040010001000080)] ∧
          ∀ (i : Fin 4) (y : LaneInfo), lanes[i.val]? = some y →
            t.regF (linkBase l.val + 0x80 + 8 * i.val) 1 0 = y.map.val ∧
            bit (t.reg (linkBase l.val + 0x80 + 8 * i.val)) 3 = y.pol ∧
            bit (t.reg (linkBase l.val + 0x80 + 8 * i.val)) 4 = true) ∧
      ((st ≠ 3 ∨ lanes.length ≠ 4) → exec (.alignComplete l lanes) s = .next s) ∧
      (st = 7 → (bit ctl 5 = true → goes (.linkAutoRetry l) 1) ∧ (bit ctl 5 = false → exec (.linkAutoRetry l) s = .next s)) ∧
      (st ≠ 7 → exec (.linkAutoRetry l) s = .next s) ∧ (st ≠ 5 → exec (.laneLockLoss l) s = .next s) ∧
      (st = 6 → ∃ t, exec (.retrainLock l) s = .next t ∧ rest t ∧ t.linkState l = 6 ∧ lock t true ∧
        t.link l = { x with ctrlDue := [(2, rawWord 0)], nakDue := false, nakWait := false, txLanes := (t.link l).txLanes }) ∧
      (st ≠ 6 → exec (.retrainLock l) s = .next s ∧ exec (.retrainTimeout l) s = .next s) ∧
      (st = 6 → empty → x.disabling = false → down (.retrainTimeout l) 7 6 x.retrains kept) ∧
      (st = 5 → x.disabling = true → empty → down (.disableTimeout l) 0 7 x.retrains kept) ∧
      ((st ≠ 5 ∨ x.disabling = false) → exec (.disableTimeout l) s = .next s)) ∧
    ((f.kind ≠ 6 ∨ f.w0.val ≠ 1) → exec (.ctrlParameters l f) s = .next s) ∧
    (f.kind = 6 → f.w0.val = 1 → f.crc = f.crcFor 0xFFFF → f.ackv = false → st = 4 →
      (f.w3.val ≠ 1 → empty → x.disabling = false → down (.ctrlParameters l f) 7 5 x.retrains kept) ∧
      (f.w3.val = 1 → ∃ t, exec (.ctrlParameters l f) s = .next t ∧ rest t ∧ t.linkState l = 5 ∧
        t.reg (linkBase l.val + 0x10) = f.w2.val ∧
        (s.reg (linkBase l.val + 0x10) ≠ 0 → s.reg (linkBase l.val + 0x10) ≠ f.w2.val →
          t.regF (rLNKCLS l.val) 47 32 = 0 ∧ Tbl.get none t.fab.joins l.val = none) ∧
        ∀ v : Fin 4, Tbl.get 0 (t.link l).limit v.val = bits f.w1.val (16 * v.val + 15) (16 * v.val)))

/-- R341, R343, R344, R345, R346, R347, R348, R349, R350, R352, R353, R354, R378: flits. A sequenced flit in order
with a good CRC on an Up link advances RXEXP and joins its packet; a bad one is counted and asks for a NAKR once; an
ACK frees the replay buffer up to it; a NAKR for an outstanding flit begins a replay, the eighth without progress a
Retrain; CRED, MARK and CTRL flits do what their kinds say; a flit slot sends what comes first in the order of the
model. -/
def Obligations.LinkFlits : Prop :=
  ∀ (s : State) (l : Fin 6) (f : Flit) (fs rs : List Byte) (ta : Nat),
    let st := s.linkState l
    let x := s.link l
    let o := linkBase l.val
    let e := s.rxExp l
    let cw := fs ++ rs
    let live : Prop := s.flitsPass l = true
    let good : Prop := f.crc = f.crcFor 0xFFFF
    let holds (n : Nat) : Prop := ∃ y ∈ x.replay, y.seq.toNat = n
    let rest (t : State) : Prop := t.banks = s.banks ∧ t.cores = s.cores ∧ t.mem = s.mem ∧
      (∀ l' : Fin 6, l' ≠ l → t.link l' = s.link l' ∧ t.linkState l' = s.linkState l')
    let rows : List (Instr × Nat × Option Nat) := [(.nakr l f, 4, none), (.cred l f, 5, none), (.mark l f ta, 3, none),
      (.ctrlResume l f, 6, some 2), (.ctrlQuiesce l f, 6, some 3), (.ctrlRetrainRequest l f, 6, some 4)]
    let is_ (k : Nat) (c : Option Nat) : Prop := f.kind = k ∧ ∀ n, c = some n → f.w0.val.toNat = n
    let idle (i : Instr) : Prop := exec i s = .next s
    ((s.tripped = true ∨ ¬ live ∨ fs.length ≠ 160 ∨ rs.length ≠ 4) → idle (.sequencedFlitReceive l fs rs)) ∧
    (s.tripped = false → live → fs.length = 160 → rs.length = 4 →
      let got := (rsDecode cw).getD cw
      let one (u : State) (k : Nat) : State :=
        u.freeVal.2.rxFlit l (Flit.ofBytes ((got.drop (40 * k)).take 40)) u.freeVal.1.toNat
      exec (.sequencedFlitReceive l fs rs) s = .next ((one (one (one (one s 0) 1) 2) 3).rsReport l cw)) ∧
    (rsDecode cw = some cw → s.rsReport l cw = s.modLink l fun y => { y with uncorr := 0 }) ∧
    (∀ g, rsDecode cw = some g → g ≠ cw → rest (s.rsReport l cw) ∧ (s.rsReport l cw).link l = { x with uncorr := 0 } ∧
      (s.rsReport l cw).reg (o + 0x28) = s.reg (o + 0x28) + 1) ∧
    (rsDecode cw = none → (x.uncorr < 15 ∨ st ≠ 5) →
      (s.rsReport l cw).link l = { x with uncorr := x.uncorr + 1 } ∧ (s.rsReport l cw).linkState l = st ∧
        (s.rsReport l cw).reg (o + 0x30) = s.reg (o + 0x30) + 1) ∧
    (rsDecode cw = none → x.uncorr = 15 → st = 5 → x.retrains = [] →
      (s.rsReport l cw).linkState l = 6 ∧ (s.rsReport l cw).regF (o + 8) 19 16 = 1) ∧
    (∀ i k c, (i, k, c) ∈ rows → ¬ is_ k c ∨ ¬ live → idle i) ∧
    (∀ i k c, (i, k, c) ∈ rows → is_ k c → live → ¬ good →
      ∃ t, exec i s = .next t ∧ rest t ∧ t.reg (o + 0x38) = s.reg (o + 0x38) + 1 ∧ t.linkState l = st ∧
        (k = 3 → t.reg (o + 0x50) = s.reg (o + 0x50) + 1) ∧ (t.link l).nakWait = true ∧
        (x.nakWait = false → (t.link l).nakDue = true) ∧ (t.link l).replay = x.replay) ∧
    (st = 5 → (f.kind = 1 ∨ f.kind = 2) →
      let t := s.rxFlit l f ta
      let n := (flitsPacket [f]).len
      (f.crc = f.crcFor e → f.ackv = false → f.kind = 1 → x.rxPart = [] →
        (n ≠ 0 → n ≤ 16 →
          rest t ∧ t.rxExp l = (e + 1) % 1024 ∧
            (t.link l).rxPart = [f] ∧ (t.link l).rxVc = f.vc ∧ (t.link l).accepted = true ∧ (t.link l).ackDue = true ∧
            (t.link l).nakWait = false ∧ (t.link l).replay = x.replay) ∧
        (n = 0 → t = (((s.setRegF (State.lseq l) 41 32 ((e + 1) % 1024)).modLink l fun y =>
          { y with accepted := true, ackDue := true, nakWait := false, nakDue := false }).modLink l fun y =>
          { y with rxPart := [], rxVc := f.vc }).packetIn l f.vc (flitsPacket [f]))) ∧
      (f.crc ≠ f.crcFor e →
        rest t ∧ t.rxExp l = e ∧ (t.link l).rxPart = x.rxPart ∧
          t.reg (o + 0x38) = s.reg (o + 0x38) + 1 ∧ (t.link l).nakWait = true ∧ t.linkState l = 5)) ∧
    (st = 5 → good → f.kind = 4 →
      (¬ holds f.ack → ¬ holds ((f.ack + 1023) % 1024) → idle (.nakr l f)) ∧
      (holds f.ack → ¬ holds ((f.ack + 1023) % 1024) → x.stalls < 7 →
        ∃ t, exec (.nakr l f) s = .next t ∧ rest t ∧ t.linkState l = 5 ∧
          t.link l = { x with replayAt := some f.ack, stalls := x.stalls + 1 } ∧
          t.reg (o + 0x40) = s.reg (o + 0x40) + 1) ∧
      (∀ (a : TxFlit) (q : List TxFlit), x.replay = a :: q → a.seq.toNat = (f.ack + 1023) % 1024 → ¬ holds f.ack →
        x.disabling = false →
        ∃ t, exec (.nakr l f) s = .next t ∧ rest t ∧ t.linkState l = 5 ∧ (t.link l).replay = q ∧ (t.link l).stalls = 0 ∧
          t.txAck l = a.seq.toNat)) ∧
    (live → good → f.kind = 5 → f.ackv = false →
      ∃ t, exec (.cred l f) s = .next t ∧ rest t ∧ t.regs = s.regs ∧ t.linkState l = st ∧ (t.link l).limit = x.limit ∧
        ∀ v : Fin 4, (Tbl.get 0 (t.link l).pfreed v.val).toNat = bits f.w0.val (16 * v.val + 15) (16 * v.val)) ∧
    (live → good → f.kind = 3 → f.ackv = false →
      ∃ t, exec (.mark l f ta) s = .next t ∧ rest t ∧
        (t.link l).markIn = true ∧ (t.link l).markTa = ta ∧
        ((s.isRoot = true ∨ s.regF rBTSTAT 58 56 = l.val) → s.fab.btJumpTo.toNat < f.w0.val.toNat →
          t.fab.btJumpTo = f.w0.val) ∧
        (s.isRoot = false → s.regF rBTSTAT 58 56 ≠ l.val → t.regs = s.regs ∧ t.fab.btJumpTo = s.fab.btJumpTo) ∧
        (∀ (p : Nat) (n : Neigh), s.isRoot = false → s.regF rBTSTAT 58 56 = l.val → bit f.w3.val 63 = true →
          s.parent = some (p, n) → n.period = s.regF rBTCTL 1 0 →
          let th := s.markTheta l f.w1.val.toNat f.w2.val.toNat ta
          t.regF rBTSTAT 31 0 = (th * 320 / 9 % 2 ^ 32).toNat ∧
          t.fab.btAdj = if 1800 < th.natAbs then th
            else if 375 ≤ 4 * th.natAbs then (if th < 0 then -94 else 94) else th)) ∧
    (good → f.kind = 6 → f.ackv = false →
      (f.w0.val = 2 → live → st ≠ 6 → idle (.ctrlResume l f)) ∧
      (f.w0.val = 2 → st = 6 → live → x.replay = [] → x.disabling = false →
        ∃ t, exec (.ctrlResume l f) s = .next t ∧ rest t ∧ t.linkState l = 5 ∧ t.link l = x) ∧
      (f.w0.val = 3 → live → st ≠ 5 → idle (.ctrlQuiesce l f)) ∧
      (f.w0.val = 3 → st = 5 → (∀ v, Tbl.get [] x.q v = []) →
        ∃ t, exec (.ctrlQuiesce l f) s = .next t ∧ rest t ∧ t.linkState l = 5 ∧ (t.link l).quiesceTx = true ∧
          (t.link l).replay = x.replay) ∧
      (f.w0.val = 4 → live → st ≠ 5 → idle (.ctrlRetrainRequest l f)) ∧
      (f.w0.val = 4 → st = 5 → x.retrains = [] →
        ∃ t, exec (.ctrlRetrainRequest l f) s = .next t ∧ rest t ∧ t.linkState l = 6 ∧ t.regF (o + 8) 19 16 = 3 ∧
          (t.link l).replay = x.replay)) ∧
    ((x.replay = [] ∨ st ≠ 5 ∨ s.tripped = true) → idle (.replayTimeout l)) ∧
    (∀ (a : TxFlit) (q : List TxFlit), x.replay = a :: q → st = 5 → s.tripped = false → x.stalls < 7 →
      ∃ t, exec (.replayTimeout l) s = .next t ∧ rest t ∧ t.linkState l = 5 ∧
        t.link l = { x with replayAt := some a.seq.toNat, stalls := x.stalls + 1 } ∧
        t.reg (o + 0x40) = s.reg (o + 0x40) + 1) ∧
    (∀ (a : TxFlit) (q : List TxFlit), x.replay = a :: q → st = 5 → s.tripped = false → x.stalls = 7 → x.retrains = [] →
      ∃ t, exec (.replayTimeout l) s = .next t ∧ rest t ∧ t.linkState l = 6 ∧ t.regF (o + 8) 19 16 = 2) ∧
    ((x.nakWait = false ∨ st ≠ 5 ∨ s.tripped = true) → idle (.nakrRepeat l)) ∧
    (x.nakWait = true → st = 5 → s.tripped = false →
      ∃ t, exec (.nakrRepeat l) s = .next t ∧ rest t ∧ t.regs = s.regs ∧ t.link l = { x with nakDue := true }) ∧
    ((s.tripped = true ∨ ¬ live) → idle (.flitSlot l)) ∧
    (s.tripped = false → st = 5 → x.markDue = false → x.nakDue = true →
      ∃ t g, exec (.flitSlot l) s = .next t ∧ rest t ∧ t.regs = s.regs ∧ (t.link l).out = [g] ∧
        g.kind = 4 ∧ g.ack = e % 1024 ∧ (t.link l).nakDue = false ∧ (t.link l).replay = x.replay) ∧
    (s.tripped = false → st = 5 → x.markDue = true →
      ∃ t g, exec (.flitSlot l) s = .next t ∧ rest t ∧ t.regs = s.regs ∧ (t.link l).out = [g] ∧ g.w0 = rawWord s.bout ∧
        (t.link l).markDue = false ∧ (t.link l).replay = x.replay) ∧
    (s.tripped = false → st = 5 → x.markDue = false → x.nakDue = false → x.ctrlDue = [] → x.credDue = true →
      ∃ t g, exec (.flitSlot l) s = .next t ∧ rest t ∧ t.regs = s.regs ∧ (t.link l).out = [g] ∧
        (t.link l).credDue = false ∧ (t.link l).replay = x.replay ∧
        ∀ v : Fin 4, bits g.w0.val (16 * v.val + 15) (16 * v.val) = (Tbl.get 0 x.freed v.val).toNat) ∧
    (∀ (y : Flit) (q : List Flit), s.tripped = false → st = 5 → x.markDue = false → x.nakDue = false → x.ctrlDue = [] →
      x.credDue = false → x.replayAt = none → x.replay.length < 512 → x.cur = y :: q →
      ∃ t g, exec (.flitSlot l) s = .next t ∧ rest t ∧ (t.link l).out = [g] ∧ g.w0 = y.w0 ∧ g.w1 = y.w1 ∧ g.w2 = y.w2 ∧
        g.w3 = y.w3 ∧ (t.link l).cur = q ∧ (t.link l).replay.length = x.replay.length + 1 ∧
        t.txNext l = (s.txNext l + 1) % 1024 ∧
        Tbl.get 0 (t.link l).sent x.curVc = Tbl.get 0 x.sent x.curVc + 1) ∧
    (∀ p : Packet, s.tripped = false → st = 5 → x.markDue = false → x.nakDue = false → x.ctrlDue = [] →
      x.credDue = false → x.replayAt = none → x.replay.length < 512 → x.cur = [] → x.quiesceTx = false →
      x.disabling = false → Tbl.get [] x.q 3 = [p] → p.flits ≤ s.linkCredit l 3 →
      ∃ t g, exec (.flitSlot l) s = .next t ∧ rest t ∧ (t.link l).out = [g] ∧ g.w0 = p.w0 ∧ g.w1 = p.w1 ∧
        Tbl.get [] (t.link l).q 3 = [] ∧ (t.link l).curVc = 3 ∧ t.txNext l = (s.txNext l + 1) % 1024)

/-- R357, R361, R362, R363, R365, R366, R367, R368, R370, R374, R375, R391, R398, R424: the row of a packet type acts
only on a packet of that type on an Up link; a packet that cannot be taken stays in the buffer, any other frees its
flits; what the fabric unit does with a packet by its form, its link's rights, its destination, its order and its
type. -/
def Obligations.Packets : Prop :=
  ∀ (s t : State) (l : Fin 6) (p : Packet) (i : Instr) (ty : Nat) (q : Port) (bs : List Byte),
    let rows : List (Instr × Nat) := [(.msg l p, pMSG), (.rload l p, pRLOAD), (.rcell l p, pRCELL), (.rstore l p, pRSTORE),
      (.rcas l p, pRCAS), (.rswap l p, pRSWAP), (.rfadd l p, pRFADD), (.lease l p, pLEASE), (.rdata l p, pRDATA),
      (.rack l p, pRACK), (.rerr l p, pRERR), (.bans l p, pBANS), (.fnak l p, pFNAK), (.disc l p, pDISC), (.join l p, pJOIN),
      (.assign l p, pASSIGN), (.rtupd l p, pRTUPD), (.resync l p, pRESYNC), (.rsack l p, pRSACK), (.epoch l p, pEPOCH),
      (.rrpl l p, pRRPL), (.nboot l p, pNBOOT)]
    let u (v : Nat) : State := (s.modLink l fun x => { x with rxHeld := x.rxHeld ++ [(v, p)] }).modLink l fun x =>
      { x with rxOld := [], rxHeld := [] }
    let after (v : Nat) : State := match (u v).fabIn l p with
      | some z => (z.freeFlits l v p.flits).modLink l fun x => x
      | none => (if (u v).linkFrozen l then u v else (u v).reqStop p).modLink l fun x =>
        { x with rxHeld := [(v, p)] ++ x.rxHeld }
    let e := s.srcOrd p.src
    let waits : Prop := s.reeve.fwWait = true ∧ s.regF rGLBSTRAP 1 0 = 2
    let running : Prop := s.tripped = false ∧ ¬ waits ∧ (s.linkFrozen l = false ∨ vcOf p.ty = 1)
    let here : Prop := running ∧ s.packetOk p = true ∧ (s.fabUp = true ∨ p.isLocal = true)
    ((i, ty) ∈ rows →
      ((p.ty ≠ ty ∨ s.linkState l ≠ 5) → exec i s = .next s) ∧
      (p.ty = ty → s.linkState l = 5 → (s.link l).rxHeld = [] → (s.link l).rxOld = [] →
        exec i s = .next (after (vcOf ty)))) ∧
    ((p.ty ≠ pRCMD ∨ s.linkState l ≠ 5) → exec (.rcmd l p) s = .next s) ∧
    (p.ty = pRCMD → s.linkState l = 5 → (s.link l).rxHeld = [] → (s.link l).rxOld = [] →
      let z := after 3
      (z.reeve.inbox.length ≤ s.reeve.inbox.length → exec (.rcmd l p) s = .next z) ∧
      (∀ r, z.reeve.inbox = r ++ [(q, bs)] → s.reeve.inbox.length ≤ r.length → exec (.rcmd l p) s =
        .next (({ z with reeve := { z.reeve with inbox := r } } : State).serveBytes q bs false))) ∧
    (s.tripped = true → s.fabIn l p = none) ∧
    (s.tripped = false → waits → (p.ty ≠ pNBOOT ∨ s.packetOk p = false) → s.fabIn l p = some s) ∧
    (s.tripped = false → waits → p.ty = pNBOOT → s.packetOk p = true → s.fabIn l p = some (s.takeNboot l p)) ∧
    (s.tripped = false → ¬ waits → s.linkFrozen l = true → vcOf p.ty ≠ 1 → s.fabIn l p = none) ∧
    (running → s.packetOk p = false →
      ∃ z, s.fabIn l p = some z ∧ z.reg rFABBAD = s.reg rFABBAD + 1 ∧ z.fab = s.fab ∧ z.mem = s.mem ∧ z.banks = s.banks) ∧
    (running → s.packetOk p = true → s.fabUp = false → p.isLocal = false → s.fabIn l p = some s) ∧
    (here → s.linkRights l p = .violation → ∃ z, s.fabIn l p = some z ∧ bit (z.reg rFRZP) l.val = true ∧
      z.mem = s.mem ∧ z.banks = s.banks ∧ ∀ y ∈ z.fab.cache, y.2.1 ≠ l.val) ∧
    (here → s.linkRights l p = .accept → p.isLocal = false → p.dst ≠ s.nodeNo →
      s.fabIn l p = some (s.route (some l.val) p)) ∧
    (here → s.linkRights l p = .accept → (p.isLocal = true ∨ p.dst = s.nodeNo) →
      let did (z : State) : Prop := s.fabIn l p = some z
      ((vcOf p.ty = 0 ∨ vcOf p.ty = 2) →
        let m : Bool := vcOf p.ty == 2
        let want := if m then e.msg else e.req
        let held := if m then e.heldMsg else e.heldReq
        (e.valid = false → did (s.sendFnak p 4)) ∧
        (e.valid = true → p.oseq = want → s.performReq p = none → s.fabIn l p = none) ∧
        (e.valid = true → p.oseq = want → e.heldMsg = [] → e.heldReq = [] → s.performReq p = some t → t.srcOrd p.src = e →
          ∃ z, did z ∧ z.mem = t.mem ∧ z.banks = t.banks ∧ z.regs = t.regs ∧
            (m = true → (z.srcOrd p.src).msg = want + 1 ∧ (z.srcOrd p.src).req = e.req) ∧
            (m = false → (z.srcOrd p.src).req = want + 1 ∧ (z.srcOrd p.src).msg = e.msg)) ∧
        (e.valid = true → p.oseq ≠ want → newer16 p.oseq want = true → (∀ h ∈ held, h.1 ≠ p.oseq) →
          e.heldMsg.length + e.heldReq.length < 16 →
          ∃ z, did z ∧ z.mem = s.mem ∧ z.banks = s.banks ∧ z.reg rFABHELD = s.reg rFABHELD + 1 ∧
            (if m then (z.srcOrd p.src).heldMsg else (z.srcOrd p.src).heldReq) = held ++ [(p.oseq, l.val, p)]) ∧
        (e.valid = true → p.oseq ≠ want → newer16 p.oseq want = false →
          ∃ z, did z ∧ z.mem = s.mem ∧ z.fab = s.fab ∧ z.reg rFABDUP = s.reg rFABDUP + 1)) ∧
      (vcOf p.ty = 1 → p.ty ≠ pFNAK →
        let ix := p.ttag % 2 ^ 17
        let x := s.ott ix
        (x.busy = false → ∃ z, did z ∧ z.mem = s.mem ∧ z.fab = s.fab ∧ z.reg rFABNOMATCH = s.reg rFABNOMATCH + 1) ∧
        (∀ y, x.busy = true → x.packet = some y → y.ttag = p.ttag →
          (p.ty = pRDATA → x.kind ∈ [0, 1, 3, 4, 5] → did (s.completeTx ix (.word p.w2))) ∧
          (p.ty = pRACK → (x.kind = 2 ∨ x.kind = 6) → did (s.completeTx ix .none)) ∧
          (p.ty = pRERR → x.kind ≠ 7 → did (s.completeTx ix (.error p.w2.val.toNat))) ∧
          (p.ty = pBANS → x.kind = 7 → did (s.completeTx ix (.answer p.w2))))) ∧
      (∀ (ix : Nat) (y : Ott) (k : Packet), p.ty = pFNAK → s.fab.ott = [(ix, y)] → y.busy = true → y.packet = some k →
        let fty := bits p.w2.val 39 32
        ((bits p.w2.val 7 0 = 1 ∨ bits p.w2.val 7 0 = 2) → k.ttag = p.ttag → did (s.abandonTx ix y.node 12)) ∧
        (bits p.w2.val 7 0 = 3 → y.node = p.src → k.oseq = BitVec.ofNat 16 (bits p.w2.val 63 48) → vcOf k.ty = vcOf fty →
          did { s with fab := { s.fab with resend := s.fab.resend ++ [(y.node, vcOf fty, k.oseq, s.cycle + 256)] } })) ∧
      (p.ty = pFNAK → (∀ n ∈ s.fab.ott, n.2.busy = false) → ∃ z, did z ∧ z.reg rFABNOMATCH = s.reg rFABNOMATCH + 1) ∧
      (p.ty = pDISC → s.discovers = false → did s) ∧
      (p.ty = pDISC → s.discovers = true → ∃ z, did z ∧ z.mem = s.mem ∧ z.banks = s.banks ∧
        z.regF (rLNKCLS l.val) 47 32 = bits p.w3.val 47 32 ∧
        Tbl.get none z.fab.neigh l.val = some ⟨p.w2.val, bit p.w3.val 63, bits p.w3.val 55 48,
          BitVec.ofNat 16 (bits p.w3.val 47 32), bit p.w3.val 31, bits p.w3.val 1 0⟩) ∧
      (p.ty = pJOIN → p.isLocal = true → s.fabUp = false → did s) ∧
      (p.ty = pJOIN → p.isLocal = false → s.isRoot = false → did s) ∧
      (p.ty = pJOIN → p.isLocal = true → s.fabUp = true → s.isRoot = true → bit p.w3.val 31 = true →
        s.addrFree (bits p.w3.val 47 32) = true → ∃ z, did z ∧
          z.addrOf (bits p.w3.val 47 32) = { chip := p.w2.val, held := true, age := 0, blocked := 0 }) ∧
      (p.ty = pASSIGN → p.w2.val = s.reg rFABCHIP → bit p.w3.val 0 = false → ∃ z, did z ∧ z.fabUp = true ∧
        z.nodeNo = bits p.w3.val 47 32 ∧ z.regF rFABSTAT 31 16 = bits p.w3.val 31 16 ∧ z.mem = s.mem) ∧
      (p.ty = pASSIGN → p.w2.val = s.reg rFABCHIP → bit p.w3.val 0 = true → s.fabUp = true →
        (∀ n ∈ s.fab.ott, n.2.busy = false) → ∃ z, did z ∧ z.fabUp = false ∧ bit (z.reg rFABSTAT) 6 = true) ∧
      (p.ty = pRTUPD → (s.fabUp = false ∨ s.linkClass l ≠ 0 ∨ p.src ≠ s.regF rFABSTAT 31 16) → did s) ∧
      (∀ n < 1024, p.ty = pRTUPD → s.fabUp = true → s.linkClass l = 0 → p.src = s.regF rFABSTAT 31 16 → p.data = [] →
        p.w2.val = v64 n → did (s.setReg (rRTSEG n) (v64 (bits p.w3.val 15 9 * 512 + bits p.w3.val 7 0)))) ∧
      (p.ty = pRESYNC →
        let rq := BitVec.ofNat 16 (bits p.w2.val 15 0)
        let mg := BitVec.ofNat 16 (bits p.w2.val 31 16)
        let e' : SrcOrd := { e with
          valid := true, req := rq, msg := mg,
          heldReq := e.heldReq.filter fun h => newer16 h.1 rq, heldMsg := e.heldMsg.filter fun h => newer16 h.1 mg }
        did ((s.setSrcOrd p.src e').answer p pRSACK p.w2)) ∧
      (p.ty = pRSACK → (s.dstCtr p.src).resyncing = false → did s) ∧
      (p.ty = pEPOCH → (∃ y, s.fab.epochs.find? (fun e => e.1 == 2 * bits p.w3.val 63 48 + b2n (bit p.w2.val 47)) = some y ∧
        newer16 (BitVec.ofNat 16 (bits p.w2.val 15 0)) y.2 = false) → did s) ∧
      (p.ty = pEPOCH → s.fab.epochs = [] → ∃ z, did z ∧ z.mem = s.mem ∧
        z.fab.roc = s.fab.roc.filter fun x => !(State.epochHits p.w2.val x.node x.world)) ∧
      (p.ty = pRRPL → (∀ f ∈ s.reeve.fabsend, f.node.toNat ≠ p.src) → did s) ∧
      (p.ty = pNBOOT → bits p.w2.val 63 56 = 1 → bit (s.reg rNBCTL) 0 = false → did s))

/-- R365, R366, R367, R371, R374, R375, R386, R393, R394, R396, R398: what the fabric unit does with time and on its
registers: DISC every 256 bouts, the election after 16, refreshes and lapses, FNAK RESEND and packets sent again,
cache expiry and FLUSH, the transaction timeout, exports by request, EPOCH, lease passes and the sweep of the export
table. -/
def Obligations.FabricTime : Prop :=
  ∀ (s t : State) (node oseq : BitVec 16) (l : Fin 6) (vc : Fin 2) (ix : Fin 131072) (r : RegSrc) (x : Who) (w : Fin 2) (v : Val),
    let wd : Bool := w == 1
    let o := gcBase w.val
    let up : Prop := s.tripped = false
    let keep (z : State) : Prop := z.mem = s.mem ∧ z.banks = s.banks ∧ z.cores = s.cores
    let idle (i : Instr) : Prop := exec i s = .next s
    ((s.discovers = false ∨ s.fab.lastDisc < 256 ∨ s.tripped = true) → idle .discPeriodic) ∧
    (up → s.discovers = true → 256 ≤ s.fab.lastDisc →
      ∃ z, exec .discPeriodic s = .next z ∧ keep z ∧ z.fab.lastDisc = 0 ∧ z.reeve = s.reeve) ∧
    ((s.tripped = true ∨ s.discovers = false ∨ s.fab.bestSelf = false ∨ s.fab.elect < 16 ∨ s.isRoot = true) →
      idle .rootElection) ∧
    (up → s.discovers = true → s.fab.bestSelf = true → 16 ≤ s.fab.elect → s.isRoot = false →
      let n := if s.fabUp = true ∨ bit (s.reg rFABCTL) 0 = true then s.nodeNo else 0
      ∃ z, exec .rootElection s = .next z ∧ keep z ∧ z.isRoot = true ∧ z.fabUp = true ∧ z.nodeNo = n ∧
        z.regF rFABSTAT 31 16 = n ∧ z.reg rFABROOT = s.reg rFABCHIP ∧ (z.addrOf n).held = true ∧
        (z.addrOf n).chip = s.reg rFABCHIP ∧ (s.fabUp = true → z.reeve = s.reeve)) ∧
    ((s.fab.joinAge ≠ 0 ∨ s.tripped = true) → idle .joinRefresh) ∧
    (up → s.fab.joinAge = 0 → s.fabUp = false → s.parent = none → idle .joinRefresh) ∧
    (up → s.fab.joinAge = 0 → s.fabUp = true → s.isRoot = true → ∃ z, exec .joinRefresh s = .next z ∧ keep z ∧
      z.fab.joinAge = 4096 ∧ (z.addrOf s.nodeNo).held = true ∧ (z.addrOf s.nodeNo).age = 0 ∧
      (z.addrOf s.nodeNo).chip = s.reg rFABCHIP) ∧
    (up → s.fab.joinAge = 0 → s.fabUp = true → s.isRoot = false →
      ∃ z, exec .joinRefresh s = .next z ∧ z.mem = s.mem ∧
        (s.fab.rnodeOld = false ∨ s.parent = none → z.fab.joinAge = 4096) ∧
        (∀ y, s.fab.rnodeOld = true → s.parent = some y → z.fab.joinAge = if y.2.dist = 0 then 4096 else 16)) ∧
    (let a := s.addrOf node.toNat
     (s.isRoot = true → a.held = true → 16384 ≤ a.age → ∃ z, exec (.nodeExpiry node) s = .next z ∧ keep z ∧
       z.regs = s.regs ∧ (z.addrOf node.toNat).held = false ∧ z.addrFree node.toNat = false ∧
       ∀ n, n ≠ node.toNat → z.addrOf n = s.addrOf n) ∧
     ((s.isRoot = false ∨ a.held = false ∨ a.age < 16384) → idle (.nodeExpiry node))) ∧
    (let j := Tbl.get none s.fab.joins l.val
     (j = none → idle (.joinRecordLapse l)) ∧
     (∀ y, j = some y → (y.2 < 64 → idle (.joinRecordLapse l)) ∧
       (64 ≤ y.2 → ∃ z, exec (.joinRecordLapse l) s = .next z ∧ keep z ∧ Tbl.get none z.fab.joins l.val = none))) ∧
    (let e := s.srcOrd node.toNat
     let m : Bool := vc.val == 1
     let held := if m then e.heldMsg else e.heldReq
     let gap := if m then e.gapMsg else e.gapReq
     ((held = [] ∨ gap < 64 ∨ s.tripped = true) → idle (.reorderTimeout node vc)) ∧
     (∀ h q, held = h :: q → 64 ≤ gap → up →
       ∃ z, exec (.reorderTimeout node vc) s = .next z ∧ z.mem = s.mem ∧ z.reg rFABRSND = s.reg rFABRSND + 1 ∧
         (if m then (z.srcOrd node.toNat).heldMsg else (z.srcOrd node.toNat).heldReq) = held ∧
         (if m then (z.srcOrd node.toNat).gapMsg else (z.srcOrd node.toNat).gapReq) = 0)) ∧
    (((∀ y ∈ s.fab.resend, ¬ (y.1 = node.toNat ∧ y.2.1 = 2 * vc.val ∧ y.2.2.1 = oseq ∧ y.2.2.2 ≤ s.cycle)) ∨
        s.tripped = true) → idle (.resend node vc oseq)) ∧
    (∀ due q, s.fab.resend = (node.toNat, 2 * vc.val, oseq, due) :: q → due ≤ s.cycle → up →
      (∀ y ∈ s.fab.ott, y.2.busy = false) → ∃ z, exec (.resend node vc oseq) s = .next z ∧
       keep z ∧ z.regs = s.regs ∧ z.fab.resend = q) ∧
    (∃ z, exec (.routeCacheExpiry node) s = .next z ∧ keep z ∧ z.regs = s.regs ∧
      z.fab.cache = s.fab.cache.filter fun y => !(y.1 == node.toNat && decide (2 ≤ y.2.2))) ∧
    (s.whoOf r = none →
      idle (.flushWrite r v) ∧ idle (.expreqWrite r w v) ∧ idle (.epochwGo r w v)) ∧
    (s.whoOf r = some x → x.reeve = false → idle (.flushWrite r v)) ∧
    (s.whoOf r = some x → x.reeve = true → ∃ z, exec (.flushWrite r v) s = .next z ∧ keep z ∧ z.regs = s.regs ∧
      (bit v 0 = true → z.fab.cache = []) ∧ (bit v 0 = false → z = s)) ∧
    (s.whoOf r = some x → x.reeve = false → x.w ≠ wd →
      exec (.expreqWrite r w v) s = .next (s.freezeCore x.c x.b 0x05 (v64 (o + 0x80))) ∧
      exec (.epochwGo r w v) s = .next (s.freezeCore x.c x.b 0x05 (v64 (o + 0x90)))) ∧
    (s.whoOf r = some x → x.reeve = false → x.w = wd → x.sup = false →
      idle (.expreqWrite r w v) ∧ idle (.epochwGo r w v)) ∧
    (s.whoOf r = some x → (x.reeve = true ∨ (x.w = wd ∧ x.sup = true)) →
      let p : Word := ⟨BitVec.ofNat 8 (bits v 55 48), v64 (bits v 47 0)⟩
      let res (z : State) : Val := if x.reeve = true then z.reg (o + 0x88) else (z.bank x.c x.b).expres
      ((s.isPtr p.type = false ∨ ptrRule p.val = false) → ∃ z, exec (.expreqWrite r w v) s = .next z ∧ z.mem = s.mem ∧ res z = 0 ∧
        z.regF (o + 0x68) 51 32 = s.regF (o + 0x68) 51 32) ∧
      (s.isPtr p.type = true → ptrRule p.val = true → ∀ y, runExport s (s.inService (expHead s wd % 12)) wd p = (y, t) →
        ∃ z, exec (.expreqWrite r w v) s = .next z ∧ z.mem = t.mem ∧ res z = y ∧
          z.regF (o + 0x68) 51 32 = t.regF (o + 0x68) 51 32) ∧
      (bit v 0 = false → idle (.epochwGo r w v)) ∧
      (bit v 0 = true → ∃ z, exec (.epochwGo r w v) s = .next z ∧ z.mem = s.mem ∧
        Tbl.get 0 z.fab.epochNo w.val = Tbl.get 0 s.fab.epochNo w.val + 1)) ∧
    (∀ k a, expEn s wd = false → doExport k wd ⟨0x04, a⟩ s = .ok 0 s) ∧
    (let e := s.ott ix.val
     let due : Prop := e.busy = true ∧ e.packet.isSome = true ∧ s.regF (gcBase (wn e.world) + 0x60) 47 32 ≤ e.bouts
     (¬ due → idle (.transactionTimeout ix)) ∧
     (due → exec (.transactionTimeout ix) s = .next ((s.abandonTx ix.val e.node 13).kick e.node))) ∧
    (((s.lease wd).on = false ∨ s.tripped = true) → idle (.leasePass w)) ∧
    ((s.lease wd).on = true → up → s.lsCount wd ≤ (s.lease wd).pos → ∃ z, exec (.leasePass w) s = .next z ∧
      keep z ∧ z.regs = s.regs ∧ z.lease wd = {}) ∧
    ((expEn s wd = false ∨ s.tripped = true) → idle (.exportSweep w)) ∧
    (let y := s.sweep wd
     let n := expCount s wd
     let y' : Sweep := if y.bout = some s.bounds then y else { y with left := min 256 n, bout := some s.bounds }
     (expEn s wd = true → up → exec (.exportSweep w) s = .next ((s.setSweep wd y').sweepGo wd 256)) ∧
     (∀ f : Nat, (y.left = 0 ∨ n = 0) → s.sweepGo wd (f + 1) = s) ∧
     (∀ f : Nat, 0 < y.left → 0 < n →
       (s.sweepOne wd (y.pos % n) = (true, t) → s.sweepGo wd (f + 1) = t) ∧
       (s.sweepOne wd (y.pos % n) = (false, t) → s.sweepGo wd (f + 1) =
         (t.setSweep wd { y with pos := (y.pos + 1) % n, left := y.left - 1 }).sweepGo wd f)) ∧
     s.sweepOne wd 0 = (false, s) ∧
     (∀ (i : Nat) (e1 : Word), i ≠ 0 → wRead (s.inService (i % 12)) wd (exportAddr s wd i + 8) s = .ok e1 s →
       ((bit e1.val 63 = false ∨ expired s e1 = false) → s.sweepOne wd i = (false, s)) ∧
       (bit e1.val 63 = true → expired s e1 = true → freeExport (s.inService (i % 12)) wd i e1 s = .ok () t →
         s.sweepOne wd i = (false, t))))

/-- R402, R403, R404, R405, R410, R447, R470, R471: the I3C targets of the Reeve and the Bushel and the JTAG port:
what each command, transfer and CCC changes and returns; the Reeve's target answers only once it has started, the
Bushel's only while it has power; CMDDATA takes a packet byte by byte and gives a reply byte by byte. -/
def Obligations.I3CAndJtag : Prop :=
  ∀ (s : State) (bs : List Byte) (b : Byte) (n : Fin 4) (len : BitVec 16) (ibi : BitVec 8) (adr : BitVec 7) (df : Byte)
    (d : BitVec 10) (ir : Byte),
    let r := s.reeve
    let u := s.bsh
    let same (t : State) : Prop := t.mem = s.mem ∧ t.banks = s.banks ∧ t.cores = s.cores ∧ t.regs = s.regs ∧ t.fab = s.fab
    let does (i : Instr) (p : State → Prop) : Prop := ∃ t, exec i s = .next t ∧ same t ∧ p t
    let out (i : Instr) (l : List Byte) : Prop := does i fun t => t.reeve.i3cOut = l ∧ t.reeve.ports = r.ports
    let bout_ (i : Instr) (l : List Byte) : Prop := does i fun t => t.bsh.readOut = l ∧ t.reeve = r
    let ias := s.regF rGLBSTRAP 3 2
    (r.up = false → ∀ i, i ∈ [Instr.privateRead, .enec b, .disec b, .entas n, .setmwl len, .setmrl len ibi, .enthdr0,
      .rstact .reeve df, .setdasa .reeve adr, .setnewda .reeve adr, .entdaa .reeve adr, .getmwl, .getmrl, .getpid .reeve,
      .getbcr .reeve, .getdcr .reeve, .getstatus .reeve, .getmxds] → exec i s = .next s) ∧
    (u.on = false → ∀ i, i ∈ [Instr.rstact .bushel df, .setdasa .bushel adr, .setnewda .bushel adr, .entdaa .bushel adr,
      .getpid .bushel, .getbcr .bushel, .getdcr .bushel, .getstatus .bushel] → exec i s = .next s) ∧
    (r.up = false → s.reeve.inbox = [] → exec (.privateWrite bs) s = .next s) ∧
    (r.inbox = [] → bs.length ≤ r.mwl.toNat → exec (.privateWrite bs) s = .next (s.serveBytes .mgmt bs false)) ∧
    (r.up = true →
      ((s.port .mgmt).queue = [] → out .privateRead []) ∧
      (∀ y q, (s.port .mgmt).queue = y :: q → does .privateRead fun t => t.reeve.i3cOut = y.bytes.take r.mrl.toNat ∧
        (t.port .mgmt).queue = q ∧
        (∀ k, y.seq = some k → (t.port .mgmt).out = (s.port .mgmt).out.filter (· != k))) ∧
      does (.enec b) (fun t => t.reeve.enint = (r.enint || b.getLsbD 0)) ∧
      does (.disec b) (fun t => t.reeve.enint = (r.enint && !(b.getLsbD 0))) ∧
      does (.entas n) (fun t => t.reeve.enint = r.enint ∧ t.reeve.dyn = r.dyn ∧ t.reeve.mwl = r.mwl) ∧
      (16 ≤ len.toNat → does (.setmwl len) (fun t => t.reeve.mwl = len) ∧
        does (.setmrl len ibi) (fun t => t.reeve.mrl = len ∧ t.reeve.ibiLen = ibi)) ∧
      (len.toNat < 16 → does (.setmwl len) (fun t => t.reeve.mwl = r.mwl) ∧
        does (.setmrl len ibi) (fun t => t.reeve.mrl = r.mrl ∧ t.reeve.ibiLen = r.ibiLen)) ∧
      does .enthdr0 (fun t => t.reeve.hdr = true) ∧
      (1 < df.toNat → exec (.rstact .reeve df) s = .next s) ∧
      (df.toNat ≤ 1 → does (.rstact .reeve df) fun t => t.reeve.rstAct = df ∧ t.reeve.i3cOut = [] ∧ t.reeve.dyn = r.dyn ∧
        t.reeve.mwl = r.mwl ∧ t.reeve.ports = r.ports) ∧
      (r.dyn = none → does (.setdasa .reeve adr) (fun t => t.reeve.dyn = some adr) ∧
        does (.entdaa .reeve adr) (fun t => t.reeve.dyn = some adr) ∧ does (.setnewda .reeve adr) (fun t => t.reeve.dyn = none)) ∧
      (∀ a, r.dyn = some a → does (.setdasa .reeve adr) (fun t => t.reeve.dyn = some a) ∧
        does (.entdaa .reeve adr) (fun t => t.reeve.dyn = some a) ∧ does (.setnewda .reeve adr) (fun t => t.reeve.dyn = some adr)) ∧
      out .getmwl [BitVec.ofNat 8 (r.mwl.toNat / 256), BitVec.ofNat 8 r.mwl.toNat] ∧
      out .getmrl [BitVec.ofNat 8 (r.mrl.toNat / 256), BitVec.ofNat 8 r.mrl.toNat, r.ibiLen] ∧
      out (.getbcr .reeve) [0x26] ∧ out (.getdcr .reeve) [0] ∧ out .getmxds [0, 0] ∧
      out (.getpid .reeve) [0x19, 0x52, 0, 0x96, BitVec.ofNat 8 (16 * ias), 0xA1] ∧
      (∃ x, x.length = 3 ∧ out .getcaps (0x01 :: x)) ∧
      (does (.getstatus .reeve) fun t => t.reeve.protoErr = false ∧ t.reeve.i3cOut =
        [BitVec.ofNat 8 (min 255 (s.port .mgmt).queue.length), BitVec.ofNat 8 (32 * b2n r.protoErr + b2n (s.ibiCond != 0))])) ∧
    (r.up = true → u.on = true →
      does .rstdaa (fun t => t.reeve.dyn = none ∧ t.bsh.dyn = none) ∧
      does .setaasa (fun t => t.reeve.dyn = some (r.dyn.getD (BitVec.ofNat 7 (0x58 + ias))) ∧
        t.bsh.dyn = some (u.dyn.getD (BitVec.ofNat 7 (0x5C + u.as))))) ∧
    (u.on = true →
      (u.dyn = none → does (.setdasa .bushel adr) (fun t => t.bsh.dyn = some adr) ∧
        does (.entdaa .bushel adr) (fun t => t.bsh.dyn = some adr)) ∧
      (∀ a, u.dyn = some a → does (.setdasa .bushel adr) (fun t => t.bsh.dyn = some a) ∧
        does (.setnewda .bushel adr) (fun t => t.bsh.dyn = some adr)) ∧
      (df.toNat ≤ 1 → does (.rstact .bushel df) fun t => t.bsh.rdAddr = 0x00F8 ∧ t.bsh.rdLen = 536 ∧ t.bsh.protoErr = false ∧
        t.bsh.dyn = u.dyn ∧ t.bsh.regs = u.regs) ∧
      (u.as < 16 → bout_ (.getpid .bushel) [0x19, 0x52, 0, 0xB5, BitVec.ofNat 8 (16 * u.as), 0xA1]) ∧
      bout_ (.getbcr .bushel) [0] ∧ bout_ (.getdcr .bushel) [0] ∧
      bout_ (.getstatus .bushel) [0, BitVec.ofNat 8 (32 * b2n u.protoErr)]) ∧
    (let j := s.jtag
     let y := s.port .debug
     does .testLogicReset (fun t => t.jtag.ir = 0x01 ∧ t.jtag.dr = 0x100969CB) ∧
     does (.instructionRegisterUpdate ir) (fun t => t.jtag.ir =
       (if ir = 0x01 ∨ ir = 0x02 ∨ ir = 0x03 ∨ (ir = 0x20 ∧ bit (s.reg rGLBSTRAP) 4 = true) then ir else 0xFF) ∧
       (ir = 0x01 → t.jtag.dr = 0x100969CB)) ∧
     (j.ir ≠ 0x20 → exec (.cmddataUpdate d) s = .next s ∧ exec .cmddataCapture s = .next s) ∧
     (j.ir = 0x20 →
       (d.getLsbD 9 = false → exec (.cmddataUpdate d) s = .next s) ∧
       (d.getLsbD 9 = true → d.getLsbD 8 = false → does (.cmddataUpdate d) fun t => t.jtag.rx = j.rx ++ [d.setWidth 8] ∧
         t.jtag.dr = j.dr) ∧
       (d.getLsbD 9 = true → d.getLsbD 8 = true → bit (s.reg rGLBSTRAP) 4 = true → j.rx.length < 1032 →
         exec (.cmddataUpdate d) s =
           .next ({ s with jtag := { j with rx := [] } }.serveBytes .debug (j.rx ++ [d.setWidth 8]) false)) ∧
       (j.cur = none → y.queue = [] → does .cmddataCapture fun t => t.jtag.dr = 0) ∧
       (∀ (a : Reply) (q : List Reply) (e : Byte) (l : List Byte), j.cur = none → y.queue = a :: q → a.bytes = e :: l → l ≠ [] →
         does .cmddataCapture fun t => t.jtag.dr = BitVec.ofNat 32 (0x200 + e.toNat) ∧ t.jtag.tx = l ∧ t.jtag.cur = some a ∧
           (t.port .debug).queue = y.queue) ∧
       (∀ (a : Reply) (q : List Reply) (e : Byte), j.cur = some a → j.tx = [e] → y.queue = a :: q →
         does .cmddataCapture fun t => t.jtag.dr = BitVec.ofNat 32 (0x300 + e.toNat) ∧ t.jtag.tx = [] ∧ t.jtag.cur = none ∧
           (t.port .debug).queue = q)))

/-- R416, R429, R430, R431, R433, R434, R435, R437, R438, R462: the mailboxes and the host data port. MBGO submits the
command of MBCMD once, MBDONE takes the reply; a request of BAR2 is checked against the windows, counted and moves
packed granules; a doorbell reads words 1 to L - 1 and sends one message, whose answer HOST_CHANNEL_ANSWER delivers; a
slot release advances RD; resets of the port and its link. -/
def Obligations.MailboxAndHostPort : Prop :=
  ∀ (s : State) (r : RegSrc) (x : Who) (w : Fin 2) (v : Val) (off : BitVec 36) (n : Nat) (bs : List Byte) (rid : BitVec 16)
    (m : Fin 4096) (ch : Fin 32) (up : Bool),
    let wd : Bool := w == 1
    let mb := mailBase w.val
    let idle (i : Instr) : Prop := exec i s = .next s
    let keep (z : State) : Prop := z.mem = s.mem ∧ z.banks = s.banks ∧ z.cores = s.cores
    let live : Prop := s.hostUp = true ∧ s.hostFrozen = false
    let mayGo : Prop := bit v 0 = true ∧ bit (s.reg mb) 0 = false ∧ bit (s.reg mb) 1 = false
    let cmd := (List.range 129).flatMap fun k => leBytes 8 (s.reg (mb + 0x1000 + 8 * k)).toNat
    let hcmd := (List.range 129).flatMap fun k => leBytes 8 (Tbl.get (0 : Val) s.host.mbcmd k).toNat
    (r ≠ .host → s.whoOf r = none → idle (.mbgoWrite r w v) ∧ idle (.mbdoneWrite r w v)) ∧
    (s.whoOf r = some x → x.reeve = false → x.w ≠ wd →
      exec (.mbgoWrite r w v) s = .next (s.serveNew (s.freezeCore x.c x.b 0x05 (v64 (mb + 0x10)))) ∧
      exec (.mbdoneWrite r w v) s = .next (s.freezeCore x.c x.b 0x05 (v64 (mb + 0x18)))) ∧
    (s.whoOf r = some x → x.reeve = false → x.w = wd → x.sup = false →
      idle (.mbgoWrite r w v) ∧ idle (.mbdoneWrite r w v)) ∧
    (s.whoOf r = some x → (x.reeve = true ∨ (x.w = wd ∧ x.sup = true)) →
      (¬ mayGo → idle (.mbgoWrite r w v)) ∧
      (mayGo → exec (.mbgoWrite r w v) s = .next ((s.setReg mb (setBits (s.reg mb) 0 0 1)).serveBytes (.core w) cmd false)) ∧
      ((bit v 0 = false ∨ bit (s.reg mb) 1 = false) → idle (.mbdoneWrite r w v)) ∧
      (bit v 0 = true → bit (s.reg mb) 1 = true → ∃ z, exec (.mbdoneWrite r w v) s = .next z ∧ z.mem = s.mem ∧
        (∀ p, s.port (.core w) = p → p.queue.length ≤ 1 → bit (z.reg mb) 1 = false ∧ (z.port (.core w)).queue = []) ∧
        (∀ y q, (s.port (.core w)).queue = y :: q → (z.port (.core w)).queue = q ∧
          (q ≠ [] → bit (z.reg mb) 1 = true)))) ∧
    (let go : Prop := bit v 0 = true ∧ s.host.cmdb = false ∧ s.host.rplv = false ∧ s.hostFrozen = false
     let fin : Prop := bit v 0 = true ∧ s.host.rplv = true ∧ s.hostFrozen = false
     (¬ go → idle (.mbgoWrite .host w v)) ∧
     (go → exec (.mbgoWrite .host w v) s =
       .next (({ s with host := { s.host with cmdb := true } } : State).serveBytes .host hcmd false)) ∧
     (¬ fin → idle (.mbdoneWrite .host w v)) ∧
     (fin → ∃ z, exec (.mbdoneWrite .host w v) s = .next z ∧ keep z ∧ z.regs = s.regs ∧
       ((s.port .host).queue.length ≤ 1 → z.host.rplv = false) ∧
       (∀ y q, (s.port .host).queue = y :: q → (z.port .host).queue = q ∧ (q ≠ [] → z.host.rplv = true)))) ∧
    (¬ live → idle (.hostBar2Write off bs rid) ∧ idle (.hostDoorbell m v rid) ∧ idle (.slotRelease m v)) ∧
    (s.hostUp = false → idle (.hostBar2Read off n rid)) ∧
    (s.hostUp = true → s.hostFrozen = true →
      ∃ z, exec (.hostBar2Read off n rid) s = .next z ∧ keep z ∧ z.regs = s.regs ∧ z.host.readOut = none) ∧
    (live →
      (∀ o k, s.winBad off.toNat bs.length 0 = some (o, k) →
        exec (.hostBar2Write off bs rid) s = .next (s.hostViolation o k rid 0x60)) ∧
      (s.winBad off.toNat bs.length 0 = none →
        let u := s.incF (modCtr 3) 63 0 bs.length
        ∃ z, exec (.hostBar2Write off bs rid) s = .next z ∧
        (∀ k pa, s.winAt off.toNat = some k → s.winPa k off.toNat = pa → off.toNat % 128 = 0 → bs.length = 72 →
          (u.mcRead pa false).2 = u →
          let tagged : Prop := ∀ i, i < 8 → u.tagOk (bit (s.reg (hostWin k + 0x18)) 3) (bs.getD (64 + i) 0) = true
          let poison := (u.mcRead pa false).1.poison
          (tagged → poison = false → z.mem = s.mem.putLine (s.store pa / 64) ⟨unpackWords 8 bs, false⟩ ∧ z.regs = u.regs) ∧
          ((¬ tagged ∨ poison = true) → keep z ∧ z.reg rHBADTAG = s.reg rHBADTAG + 1))) ∧
      (∀ o k, s.winBad off.toNat n 1 = some (o, k) →
        ∃ z, exec (.hostBar2Read off n rid) s = .next z ∧ z.host.readOut = none ∧
          z.regs = (s.hostViolation o k rid 0x20).regs) ∧
      (s.winBad off.toNat n 1 = none →
        let u := s.incF (modCtr 4) 63 0 n
        ∃ z y, exec (.hostBar2Read off n rid) s = .next z ∧
        z.host.readOut = some y ∧ y.length = n ∧
        (∀ k, s.winAt off.toNat = some k → 0 < n → (u.mcRead (s.winPa k off.toNat) false).1.poison = true →
          z.host.readEp = true) ∧
        (∀ k, s.winAt off.toNat = some k → n = 1 →
          y = [(packWords (u.mcRead (s.winPa k off.toNat) false).1.words).getD (off.toNat % 128) 0])) ∧
      (let c := bits v 60 56
       let o := bits v 28 0 * 128
       let len := bits v 47 42
       let bad : Prop := bits v 63 61 ≠ 0 ∨ bits v 41 29 ≠ 0 ∨ (s.chan c).busy = true
       let last := o + 128 * (len / 8)
       (bad → ∃ z, exec (.hostDoorbell m v rid) s = .next z ∧ keep z ∧ z.host = s.host ∧ z.reg rHDBIGN = s.reg rHDBIGN + 1) ∧
       (¬ bad → s.winAt o = none → exec (.hostDoorbell m v rid) s = .next (s.hostViolation o none rid 0x60)) ∧
       (¬ bad → ∀ k, s.winAt o = some k →
         (bit (s.reg (hostWin k + 0x18)) 1 = false →
           exec (.hostDoorbell m v rid) s = .next (s.hostViolation o (some k) rid 0x60)) ∧
         (bit (s.reg (hostWin k + 0x18)) 1 = true → s.winAt last ≠ some k →
           exec (.hostDoorbell m v rid) s = .next (s.hostViolation last (s.winAt last) rid 0x60)) ∧
         (bit (s.reg (hostWin k + 0x18)) 1 = true → s.winAt last = some k →
           let d := s.doorWords (s.winPa k o + 8) len
           exec (.hostDoorbell m v rid) s =
             .next (d.2.2.doorSend m c (bits v 55 48) d.1 d.2.1 (bit (s.reg (hostWin k + 0x18)) 2))))) ∧
      (∀ (ws : List Word) (bad : Bool) (kind : Nat),
        let y := s.chan ch.val
        let z := s.doorSend m ch.val kind ws bad wd
        let local_ : Prop := (ws.any fun a => s.keptLocal a && !(s.reservedType a.type)) = true
        let wrong : Prop := bad = true ∨ (ws.any fun a => s.reservedType a.type || s.malformed a) = true
        (local_ → z = s.setChan ch.val { y with busy := true, v := false, answer := some 0x0010000A }) ∧
        (¬ local_ → wrong → ∃ a : BitVec 4, z.mem = s.mem ∧ z.regs = s.regs ∧
          z.chan ch.val = { y with busy := true, v := false, answer := some (0x00100000 + a.setWidth 32) }) ∧
        (¬ local_ → ¬ wrong →
          let y' : Chan := { y with busy := true, v := false, answer := none, seq := y.next, next := y.next + 1 }
          let h := State.msgHdr s.srcNode ch.val y.next (ws.length + 1) kind
          z = (s.setChan ch.val y').binArrive (Flight.mk m s.srcNode ch.val true y.next (h :: ws) wd (.chan ch.val) false))) ∧
      (let ok : Prop := s.binCore m.val = 0x7F ∧ 1 ≤ v.toNat ∧ v.toNat ≤ s.binUsed m.val
       (ok → ∃ z, exec (.slotRelease m v) s = .next z ∧ keep z ∧
         z.regF (binBase m.val + 0x18) 63 32 = (s.binRd m.val + v.toNat) % 2 ^ 32 ∧
         z.regF (binBase m.val + 0x18) 31 0 = s.regF (binBase m.val + 0x18) 31 0) ∧
       (¬ ok → ∃ z, exec (.slotRelease m v) s = .next z ∧ keep z ∧ z.reg rHDBIGN = s.reg rHDBIGN + 1 ∧
         ∀ o, o ≠ rHDBIGN → z.reg o = s.reg o))) ∧
    ((s.chan ch.val).answer = none → idle (.hostChannelAnswer ch)) ∧
    (∀ a, (s.chan ch.val).answer = some a → ∃ z, exec (.hostChannelAnswer ch) s = .next z ∧ keep z ∧ z.regs = s.regs ∧
      z.chan ch.val = { (s.chan ch.val) with busy := false, v := true, result := a, answer := none } ∧
      (s.hostFrozen = true → z.host.vectors = s.host.vectors) ∧
      (s.hostFrozen = false → bit (Tbl.get 1 s.host.msix ch.val) 0 = false →
        z.host.vectors = s.host.vectors ++ [ch.val])) ∧
    (∃ z, exec .functionLevelReset s = .next z ∧ keep z ∧ z.regs = s.regs ∧ z.host.hnote = [] ∧ z.host.msix = [] ∧
      z.host.mbcmd = [] ∧ z.host.cmdb = false ∧ z.host.rplv = false ∧
      ∃ y, exec .perst s = .next y ∧ keep y ∧ y.host = z.host ∧ bit (y.reg rHPSTAT) 2 = false ∧
        ∀ o, o ≠ rHPSTAT → y.reg o = s.reg o) ∧
    (∀ (k : Nat) (z : State), exec .functionLevelReset s = .next z →
      (z.chan k).busy = false ∧ (z.chan k).answer = none ∧
        ((s.chan k).next ≠ 0 → (z.chan k).next = (s.chan k).next)) ∧
    (s.running = false → idle (.pciExpressLinkChange up)) ∧
    (s.running = true → ∃ z, exec (.pciExpressLinkChange up) s = .next z ∧ keep z ∧ bit (z.reg rHPSTAT) 2 = up ∧
      ∀ o, o ≠ rHPSTAT → z.reg o = s.reg o)

/-- R401, R406, R407, R408, R409, R410, R412, R415, R416, R417, R435, R467: a command by any port. A port whose path
is closed, or that the Reeve does not hear, changes nothing; a wrong sequence number is BAD_SEQ, a duplicate gets the
reply kept, a command that the boot ROM does not serve is UNSUPPORTED, one the port may not issue is DENIED, 16
outstanding are BUSY; an accepted one takes its number, runs when no other does, and its reply is queued with the
status of its action; a Tripped module answers NOT_READY to all but five; SYNC is answered first. -/
def Obligations.ReeveProtocol : Prop :=
  ∀ (s t : State) (p : Port) (i : Instr) (op : Byte) (ps : List Byte) (q h1 h2 : BitVec 16) (b1 b2 b3 b4 b5 : Byte)
    (d1 : BitVec 32) (a1 : BitVec 40) (v1 v2 : Val) (w1 : Word) (vs : List Val) (ws : List Word) (bs : List Byte)
    (ds : List (BitVec 32)) (st : Byte) (data : List Byte),
    let rows : List (Instr × Byte × List Byte) := [(.nop p q, 0x00, []), (.evread p q h1 b1, 0x02, bv 2 h1 ++ [b1]),
      (.evack p q h1, 0x03, bv 2 h1), (.evmask p q h1, 0x04, bv 2 h1), (.ident p q, 0x10, []),
      (.status p q, 0x11, []), (.vlogrd p q b1 b2, 0x12, [b1, b2]), (.regrd p q d1 h1, 0x20, bv 4 d1 ++ bv 2 h1),
      (.regwr p q d1 vs, 0x21, bv 4 d1 ++ leBytes 2 vs.length ++ vs.flatMap fun v => bv 8 v),
      (.cfgset p q h1 v1, 0x22, bv 2 h1 ++ bv 8 v1), (.bankwld p q b1 b2 b3, 0x23, [b1, b2, b3]),
      (.fence p q b1 h1 b2, 0x24, [b1] ++ bv 2 h1 ++ [b2]), (.plotown p q h1 b1, 0x25, bv 2 h1 ++ [b1]),
      (.share p q b1 b2, 0x26, [b1, b2]),
      (.linkcls p q b1 b2 b3 b4 h1 h2, 0x27, [b1, b2, b3, b4] ++ bv 2 h1 ++ bv 2 h2),
      (.binwld p q h1 b1, 0x28, bv 2 h1 ++ [b1]),
      (.scrload p q b1 bs, 0x29, [b1] ++ leBytes 2 bs.length ++ bs), (.scrctlStart p q b1, 0x2A, [b1, 1]),
      (.scrctlStop p q b1, 0x2A, [b1, 2]), (.scrstat p q b1, 0x2B, [b1]),
      (.memrd p q a1 b1, 0x30, bv 5 a1 ++ [b1]),
      (.memwr p q a1 ws, 0x31, bv 5 a1 ++ leBytes 1 ws.length ++ packWords ws),
      (.memfill p q a1 d1 w1, 0x32, bv 5 a1 ++ bv 4 d1 ++ packWords [w1]),
      (.aload p q b1 h1 h2 vs, 0x33, [b1] ++ bv 2 h1 ++ bv 2 h2 ++ vs.flatMap fun v => bv 8 v),
      (.imgload p q d1 bs, 0x34, bv 4 d1 ++ bs), (.imgapplyPatch p q, 0x35, [0]), (.imgapplyFlash p q, 0x35, [1]),
      (.imgapplyRun p q, 0x35, [2]), (.crelease p q, 0x36, []),
      (.bankcmd p q b1 b2 b3 v1, 0x40, [b1, b2, b3] ++ bv 8 v1), (.freeze p q b1 h1, 0x41, [b1] ++ bv 2 h1),
      (.thaw p q b1 h1, 0x42, [b1] ++ bv 2 h1), (.reset p q b1 h1, 0x43, [b1] ++ bv 2 h1), (.warmrst p q, 0x44, []),
      (.doorbell p q b1 b2, 0x45, [b1, b2]), (.wnwctl p q b1 b2, 0x46, [b1, b2]), (.linkcmd p q b1 b2, 0x50, [b1, b2]),
      (.routeflush p q, 0x51, []), (.epochall p q b1, 0x52, [b1]), (.fabsend p q h1 bs, 0x53, bv 2 h1 ++ bs),
      (.bincmd p q h1 b1, 0x60, bv 2 h1 ++ [b1]), (.binstat p q h1, 0x61, bv 2 h1),
      (.binprog p q b1 h1 ds, 0x62, [b1] ++ bv 2 h1 ++ leBytes 2 ds.length ++ ds.flatMap fun x => bv 4 x),
      (.mtrrd p q d1 h1, 0x70, bv 4 d1 ++ bv 2 h1), (.halt p q b1, 0x80, [b1]), (.resume p q b1, 0x81, [b1]),
      (.step p q b1 h1 b2, 0x82, [b1] ++ bv 2 h1 ++ [b2]),
      (.brkset p q b1 b2 v1 v2, 0x83, [b1, b2] ++ bv 8 v1 ++ bv 8 v2), (.brkclr p q b1 b2, 0x84, [b1, b2]),
      (.staterd p q b1 b2 b3 b4 b5, 0x85, [b1, b2, b3, b4, b5]),
      (.statewr p q b1 b2 b3 b4 ws, 0x86, [b1, b2, b3, b4] ++ leBytes 1 ws.length ++ packWords ws),
      (.tracerd p q b1 h1 b2, 0x87, [b1] ++ bv 2 h1 ++ [b2])]
    let u : State := match p with
      | .host => { s with host := { s.host with cmdb := true } }
      | .core w => s.setReg (mailBase w.val) 1
      | .link l n => s.hearNode l n
      | _ => s
    let path : Prop := match p with
      | .mgmt => ps.length + 8 ≤ s.reeve.mwl.toNat
      | .debug => bit (s.reg rGLBSTRAP) 4 = true
      | .host => s.host.cmdb = false ∧ s.host.rplv = false ∧ s.hostFrozen = false
      | .core w => s.regF (mailBase w.val) 1 0 = 0
      | .link l _ => s.linkState l = 5 ∧ ps.length + 8 ≤ 512
    let shut : Prop := match p with
      | .mgmt => s.hears p = false
      | .debug => s.hears p = false ∨ bit (s.reg rGLBSTRAP) 4 = false
      | .host => s.host.cmdb = true ∨ s.host.rplv = true ∨ s.hostFrozen = true
      | .core w => s.regF (mailBase w.val) 1 0 ≠ 0
      | .link l _ => s.hears p = false ∨ s.linkState l ≠ 5
    let y := u.port p
    let x : RCmd := ⟨op, q, ps⟩
    let quiet : Prop := s.hears p = true ∧ s.reeve.inbox = [] ∧ ps.length ≤ 1024 ∧ path
    let firm : Prop := bit (s.reg rGLBBOOT) 0 = true
    let fresh : Prop := q = y.lastAcc + 1
    let may : Prop := u.rights p op.toNat ps = true
    let room : Prop := y.out.length < 16
    let alone : Prop := s.reeve.todo = [] ∧ s.reeve.exec = none
    let kept := y.kept ++ [(q, op, none)]
    let a := u.setPort p { y with lastAcc := q, out := y.out ++ [q], kept := kept.drop (kept.length - 16) }
    ((i, op, ps) ∈ rows →
      (shut → s.reeve.inbox = [] → exec i s = .next s) ∧
      (quiet →
        (q ≠ y.lastAcc + 1 →
          (∀ k o r, y.kept.find? (fun k => k.1 == q && k.2.1 == op) = some (k, o, some r) →
            exec i s = .next (u.queueReply p r none false)) ∧
          (∀ k o, y.kept.find? (fun k => k.1 == q && k.2.1 == op) = some (k, o, none) → exec i s = .next u) ∧
          (y.kept.find? (fun k => k.1 == q && k.2.1 == op) = none → exec i s = .next (u.reject p op q stBAD_SEQ))) ∧
        (fresh → ¬ firm → op.toNat ∉ State.bootOps → exec i s = .next (u.reject p op q stUNSUPPORTED)) ∧
        (fresh → (firm ∨ op.toNat ∈ State.bootOps) → ¬ may → exec i s = .next (u.reject p op q stDENIED)) ∧
        (fresh → firm → may → ¬ room → exec i s = .next (u.reject p op q stBUSY)) ∧
        (fresh → firm → may → room → alone → s.tripped = true → op.toNat ∉ State.tripOps →
          exec i s = .next (a.complete p op q stNOT_READY [])) ∧
        (fresh → (firm ∨ op.toNat ∈ State.bootOps) → may → room → alone → (s.tripped = false ∨ op.toNat ∈ State.tripOps) →
          a.runCmd p x = .done st data t → t.reeve.exec = none →
          (11 + data.length ≤ a.replyLimit p → exec i s = .next (t.complete p op q st data)) ∧
          (a.replyLimit p < 11 + data.length → exec i s = .next (a.complete p op q stBAD_PARAM []))) ∧
        (∀ p' q' c', fresh → firm → may → room → s.reeve.exec = some (.halt p' q' c') → (s.core c').halted = false →
          s.reeve.todo = [] →
          ∃ z, exec i s = .next z ∧ z.reeve.todo = [(p, op, q, ps)] ∧ z.mem = s.mem ∧ z.banks = s.banks))) ∧
    (p = .mgmt → u.rights p op.toNat ps = true) ∧
    (let y0 := s.port .mgmt
     (s.reeve.up = true → s.reeve.inbox = [] → 8 ≤ s.reeve.mwl.toNat →
       ∃ z, exec (.sync .mgmt q) s = .next z ∧ z.mem = s.mem ∧ z.banks = s.banks ∧ (z.port .mgmt).lastAcc = y0.lastAcc ∧
         (z.port .mgmt).dropped = 0 ∧ (z.port .mgmt).fresh = false ∧
         (z.port .mgmt).queue = ⟨s.replyPacket 0x01 q stOK (s.syncData y0), none⟩ :: y0.queue) ∧
     (let z := t.complete .mgmt op q st data
      let p := t.port .mgmt
      z.mem = t.mem ∧ z.banks = t.banks ∧ z.regs = t.regs ∧ (z.port .mgmt).lastDone = q ∧
       (q ∉ p.lost → (z.port .mgmt).queue = p.queue ++ [⟨t.replyPacket op q st data, some q⟩]) ∧
       (q ∈ p.lost → (z.port .mgmt).queue = p.queue ∧ (z.port .mgmt).lost = p.lost.erase q) ∧
       (z.port .mgmt).out = p.out) ∧
     (let z := s.reject .mgmt op q st
      z.mem = s.mem ∧ z.banks = s.banks ∧ z.regs = s.regs ∧ (z.port .mgmt).lastAcc = y0.lastAcc ∧
       (y0.queue.length < 32 → (z.port .mgmt).queue = y0.queue ++ [⟨s.replyPacket op q st [], none⟩]) ∧
       (32 ≤ y0.queue.length → (z.port .mgmt).queue = y0.queue ∧ (z.port .mgmt).dropped = y0.dropped + 1)))

/-- R45, R134, R164, R169, R220, R222, R227, R413, R417, R419, R420, R422, R425, R460: what the Reeve's reading,
configuration, memory, image and script commands do when it runs them: their data and their new state, and the
parameters and states they refuse. -/
def Obligations.ReeveCommands : Prop :=
  ∀ (s : State) (pt : Port) (q h1 h2 : BitVec 16) (b1 b2 b3 b4 : Byte) (d1 : BitVec 32) (a1 : BitVec 40) (v1 : Val) (w1 : Word)
    (bs ps : List Byte),
    let run (op : Byte) (ps : List Byte) : CmdRes := s.runCmd pt ⟨op, q, ps⟩
    let ok (op : Byte) (ps data : List Byte) (p : State → Prop) : Prop := ∃ t, run op ps = .done stOK data t ∧ p t
    let reads (op : Byte) (ps data : List Byte) : Prop := run op ps = .done stOK data s
    let bad (op : Byte) (ps : List Byte) : Prop := run op ps = .done stBAD_PARAM [] s
    let notYet (op : Byte) (ps : List Byte) : Prop := run op ps = .done stNOT_READY [] s
    let quiet (t : State) : Prop := t.mem = s.mem ∧ t.banks = s.banks ∧ t.cores = s.cores
    let c := b1.toNat
    let b : Fin 4 := Fin.ofNat 4 b2.toNat
    reads 0x00 [] [] ∧ (ps ≠ [] → bad 0x00 ps ∧ bad 0x10 ps ∧ bad 0x11 ps ∧ bad 0x36 ps) ∧
    ((b1 = 0 ∨ 31 < c) → bad 0x02 (bv 2 h1 ++ [b1])) ∧
    (b1 ≠ 0 → c ≤ 31 →
      let es := (s.reeve.log.filter fun e => !(newer16 h1 e.num)).take c
      reads 0x02 (bv 2 h1 ++ [b1]) (leBytes 2 ((es.head?.map (·.num)).getD s.reeve.nextEvt).toNat ++ [BitVec.ofNat 8 es.length] ++
        es.flatMap State.eventBytes)) ∧
    ok 0x03 (bv 2 h1) [] (fun t => quiet t ∧ t.regs = s.regs ∧ t.reeve.cursor = h1) ∧
    ok 0x04 (bv 2 h1) [] (fun t => quiet t ∧ t.regs = s.regs ∧ t.reeve.evmask = h1) ∧
    (∃ x, reads 0x10 [] (leBytes 4 (s.reg 0).toNat ++ leBytes 8 (s.reg rFABCHIP).toNat ++ x) ∧ x.length = 11) ∧
    (∃ x, reads 0x11 [] (leBytes 8 (s.reg rFRZC0).toNat ++ leBytes 4 (s.reg rFRZC1).toNat ++ leBytes 2 (s.reg rFRZP).toNat ++ x) ∧
      x.length = 13) ∧
    (c + b2.toNat ≤ 32 → ∃ x, reads 0x12 [b1, b2] x ∧ x.length = 32 * b2.toNat) ∧
    (32 < c + b2.toNat → bad 0x12 [b1, b2]) ∧
    (let a := d1.toNat
     let n := h1.toNat
     (1 ≤ n → n ≤ 127 → a % 8 = 0 → a + 8 * n ≤ 0x10000000 →
       reads 0x20 (bv 4 d1 ++ bv 2 h1) ((List.range n).flatMap fun i => leBytes 8 (s.regRead whoReeve (a + 8 * i)).toNat)) ∧
     ((n = 0 ∨ 127 < n ∨ a % 8 ≠ 0 ∨ 0x10000000 < a + 8 * n) → bad 0x20 (bv 4 d1 ++ bv 2 h1)) ∧
     (a % 8 = 0 → a + 8 ≤ 0x10000000 →
       ok 0x21 (bv 4 d1 ++ [1, 0] ++ bv 8 v1) [] (fun t => t = s.regWrite whoReeve a v1)) ∧
     ((a % 8 ≠ 0 ∨ 0x10000000 < a + 8) → bad 0x21 (bv 4 d1 ++ [1, 0] ++ bv 8 v1))) ∧
    ((bit (s.reg rCLOSED) 0 = true ∨ h1 = 0 ∨ 3 < h1.toNat) → bad 0x22 (bv 2 h1 ++ bv 8 v1)) ∧
    (bit (s.reg rCLOSED) 0 = false →
      (h1 = 1 → v1.toNat ≤ 16 → ok 0x22 (bv 2 h1 ++ bv 8 v1) [] (fun t => quiet t ∧ t.reg rCARVE = v1)) ∧
      (h1 = 1 → 16 < v1.toNat → bad 0x22 (bv 2 h1 ++ bv 8 v1)) ∧
      (h1 = 2 → v1.toNat ≤ 32 → ok 0x22 (bv 2 h1 ++ bv 8 v1) [] (fun t => quiet t ∧ t.reg rROCSZ = v1)) ∧
      (h1 = 3 → v1.toNat ≤ 3 → ok 0x22 (bv 2 h1 ++ bv 8 v1) [] (fun t => quiet t ∧ t.regs = s.regs ∧
        (s.regF rBTCTL 1 0 ≠ v1.toNat → t.fab.nextPeriod = some (v1.setWidth 2)) ∧
        (s.regF rBTCTL 1 0 = v1.toNat → t.fab.nextPeriod = none)))) ∧
    ((s.coreOk c = false ∨ 3 < b2.toNat ∨ 1 < b3.toNat) → bad 0x23 [b1, b2, b3]) ∧
    (s.coreOk c = true → b2.toNat ≤ 3 → b3.toNat ≤ 1 →
      ((s.bank c b).st ≠ 0 ∨ s.oddBound c = true → notYet 0x23 [b1, b2, b3]) ∧
      ((s.bank c b).st = 0 → s.oddBound c = false →
        ((s.bank c b).status.wld = (b3 == 1) → reads 0x23 [b1, b2, b3] []) ∧
        ((s.bank c b).status.wld ≠ (b3 == 1) → ok 0x23 [b1, b2, b3] [] (fun t => t.mem = s.mem ∧ t.regs = s.regs ∧
          (t.bank c b).status.wld = (b3 == 1) ∧ (t.bank c b).gr = [] ∧ (t.bank c b).st = 0 ∧
          (t.bank c b).pc = (s.bank c b).pc ∧ (∀ c' b', (c', b') ≠ (c, b) → t.bank c' b' = s.bank c' b'))))) ∧
    (2 < b2.toNat → bad 0x24 ([b1] ++ bv 2 h1 ++ [b2])) ∧
    (b2.toNat ≤ 2 → b1 = 0 → h1.toNat < 768 → ok 0x24 ([b1] ++ bv 2 h1 ++ [b2]) []
      (fun t => t.regF (rFENCED h1.toNat) 1 0 = b2.toNat ∧ t.banks = s.banks ∧
        (∀ y ∈ t.fab.roc, y.node.toNat ≠ s.srcNode) ∧
        ∀ n, n < 768 → n ≠ h1.toNat → t.reg (rFENCED n) = s.reg (rFENCED n))) ∧
    (b2.toNat ≤ 2 → b1 = 1 → h1.toNat < 64 → ok 0x24 ([b1] ++ bv 2 h1 ++ [b2]) []
      (fun t => t.regF (rFENCEB h1.toNat) 1 0 = b2.toNat)) ∧
    ((2 ≤ c ∨ b1 = 0 ∧ 768 ≤ h1.toNat ∨ b1 = 1 ∧ 64 ≤ h1.toNat) → bad 0x24 ([b1] ++ bv 2 h1 ++ [b2])) ∧
    ((32768 ≤ h1.toNat ∨ 1 < c ∨ s.plotState h1.toNat ≠ 0) → bad 0x25 (bv 2 h1 ++ [b1])) ∧
    (h1.toNat < 32768 → c ≤ 1 → s.plotState h1.toNat = 0 → ok 0x25 (bv 2 h1 ++ [b1]) []
      (fun t => quiet t ∧ bit (t.reg (rPLOT h1.toNat)) 8 = (b1 == 1) ∧ ∀ o, o ≠ rPLOT h1.toNat → t.reg o = s.reg o)) ∧
    ((15 < c ∨ 3 < b2.toNat) → bad 0x26 [b1, b2]) ∧
    (c ≤ 15 → b2.toNat ≤ 3 → (s.shareClose c).shareRuns c = false → ok 0x26 [b1, b2] []
      (fun t => t.mem = s.mem ∧ t.banks = s.banks ∧ shareOwner t c = b2.toNat ∧
        ∀ i < 4, bit (t.reg (rDENT (0x380 + 4 * c + i))) 31 = false)) ∧
    (c ≤ 15 → b2.toNat ≤ 3 → (s.shareClose c).shareRuns c = true → ∃ t, run 0x26 [b1, b2] = .wait t ∧ shareOwner t c = 0 ∧
      t.reeve.exec = some (.share pt q c b2.toNat)) ∧
    ((5 < c ∨ 3 < b2.toNat ∨ 1 < b3.toNat ∨ 1 < b4.toNat ∨ 4095 < h1.toNat ∨ 4095 < h2.toNat) →
      bad 0x27 ([b1, b2, b3, b4] ++ bv 2 h1 ++ bv 2 h2)) ∧
    (c ≤ 5 → b2.toNat ≤ 3 → b3.toNat ≤ 1 → b4.toNat ≤ 1 → h1.toNat ≤ 4095 → h2.toNat ≤ 4095 →
      ok 0x27 ([b1, b2, b3, b4] ++ bv 2 h1 ++ bv 2 h2) [] (fun t => quiet t ∧ t.regF (rLNKCLS c) 1 0 = b2.toNat ∧
        t.regF (rLNKCLS c) 4 4 = b3.toNat ∧ t.regF (rLNKCLS c) 3 3 = b4.toNat ∧ t.regF (rLNKCLS c) 19 8 = h1.toNat ∧
        t.regF (rLNKCLS c) 31 20 = h2.toNat ∧ t.regF (rLNKCLS c) 47 32 = s.regF (rLNKCLS c) 47 32 ∧ ∀ o, o ≠ rLNKCLS c → t.reg o = s.reg o)) ∧
    ((4095 < h1.toNat ∨ 1 < c) → bad 0x28 (bv 2 h1 ++ [b1])) ∧
    (h1.toNat ≤ 4095 → c ≤ 1 →
      (s.binState h1.toNat ≠ 0 → notYet 0x28 (bv 2 h1 ++ [b1])) ∧
      (s.binState h1.toNat = 0 → ok 0x28 (bv 2 h1 ++ [b1]) [] (fun t => quiet t ∧ t.binWld h1.toNat = (b1 == 1) ∧
        t.binState h1.toNat = 0))) ∧
    ((3 < c ∨ 512 < bs.length) → bs.length < 65536 → bad 0x29 ([b1] ++ leBytes 2 bs.length ++ bs)) ∧
    (c ≤ 3 → bs.length ≤ 512 →
      ((s.script c).on = true → notYet 0x29 ([b1] ++ leBytes 2 bs.length ++ bs)) ∧
      ((s.script c).on = false → ok 0x29 ([b1] ++ leBytes 2 bs.length ++ bs) [] (fun t => quiet t ∧ t.script c = {
        code := bs }))) ∧
    (3 < c → bad 0x2A [b1, 1] ∧ bad 0x2A [b1, 2] ∧ bad 0x2B [b1]) ∧
    (c ≤ 3 →
      ok 0x2A [b1, 1] [] (fun t => quiet t ∧ t.script c = { code := (s.script c).code, on := true }) ∧
      ((s.script c).on = true → ok 0x2A [b1, 2] [] (fun t => quiet t ∧ (t.script c).on = false ∧ (t.script c).fault = 0)) ∧
      ((s.script c).on = false → reads 0x2A [b1, 2] []) ∧
      (∃ x, reads 0x2B [b1] x ∧ x.length = 139)) ∧
    (let a := a1.toNat
     let n := b1.toNat
     ((n = 0 ∨ 113 < n ∨ s.memRange a (8 * n) = false) → bad 0x30 (bv 5 a1 ++ [b1])) ∧
     (1 ≤ n → n ≤ 113 → s.memRange a (8 * n) = true →
       (s.memReady = false → notYet 0x30 (bv 5 a1 ++ [b1])) ∧
       (s.memReady = true → ok 0x30 (bv 5 a1 ++ [b1]) (packWords (s.memRead a n).1) (fun t => t.mem.vals = s.mem.vals ∧
         t.mem.tags = s.mem.tags ∧ t.banks = s.banks))) ∧
     ((s.memRange a 8 = false ∨ s.partPoison a 8 = true) → bad 0x31 (bv 5 a1 ++ [1] ++ packWords [w1])) ∧
     (s.memRange a 8 = true → s.partPoison a 8 = false →
       (s.memReady = false → notYet 0x31 (bv 5 a1 ++ [1] ++ packWords [w1])) ∧
       (s.memReady = true → ok 0x31 (bv 5 a1 ++ [1] ++ packWords [w1]) [] (fun t => t.mem.word (s.store a) = w1 ∧
         ∀ j, j % 8 = 0 → j ≠ s.store a → t.mem.word j = s.mem.word j))) ∧
     (a % 8 = 0 → reads 0x32 (bv 5 a1 ++ [0, 0, 0, 0] ++ packWords [w1]) []) ∧
     (a % 8 ≠ 0 → bad 0x32 (bv 5 a1 ++ [0, 0, 0, 0] ++ packWords [w1])) ∧
     (s.memRange a 64 = false → bad 0x32 (bv 5 a1 ++ [1, 0, 0, 0] ++ packWords [w1])) ∧
     (s.memRange a 64 = true → s.memReady = false → notYet 0x32 (bv 5 a1 ++ [1, 0, 0, 0] ++ packWords [w1])) ∧
     (s.memRange a 64 = true → s.memReady = true → a % 64 = 0 → s.store a % 64 = 0 →
       ok 0x32 (bv 5 a1 ++ [1, 0, 0, 0] ++ packWords [w1]) [] (fun t => t.mem.poisoned (s.store a / 64) = false ∧
         ∀ i < 8, t.mem.word (s.store a + 8 * i) = w1))) ∧
    (3 < c → bad 0x33 ([b1] ++ bv 2 h1 ++ [1, 0] ++ bv 8 v1)) ∧
    (c = 0 ∨ c = 2 ∨ c = 3 →
      ((∀ j, targetShare c h1.toNat = some j → loadOk s (shareOwner s j) c h1.toNat [v1] = false) →
        run 0x33 ([b1] ++ bv 2 h1 ++ [1, 0] ++ bv 8 v1) = .done stBAD_PARAM (leBytes 2 h1.toNat) s) ∧
      (∀ j, targetShare c h1.toNat = some j → loadOk s (shareOwner s j) c h1.toNat [v1] = true →
        ok 0x33 ([b1] ++ bv 2 h1 ++ [1, 0] ++ bv 8 v1) [] (fun t => quiet t ∧ t = s.csWrite c h1.toNat [v1]))) ∧
    ((bs = [] ∨ 1018 < bs.length ∨ 262144 < d1.toNat + bs.length) → bad 0x34 (bv 4 d1 ++ bs)) ∧
    (bs ≠ [] → bs.length ≤ 1018 → d1.toNat + bs.length ≤ 262144 → ok 0x34 (bv 4 d1 ++ bs) []
      (fun t => quiet t ∧ t.regs = s.regs ∧ t.staged d1.toNat bs.length = bs)) ∧
    (bit (s.reg rGLBBOOT) 3 = true → notYet 0x35 [0]) ∧ (s.reeve.fwWait = false → notYet 0x35 [2]) ∧
    (2 < b1.toNat → bad 0x35 [b1]) ∧
    (s.stagedImage = none → bad 0x35 [1] ∧ (bit (s.reg rGLBBOOT) 3 = false → bad 0x35 [0]) ∧
      (s.reeve.fwWait = true → bad 0x35 [2])) ∧
    (∀ im, s.stagedImage = some im →
      (im.kind = 1 → Config.flashPresent = true → Config.flashVerify im.bytes = true →
        ok 0x35 [1] (leBytes 2 im.level) (fun t => quiet t ∧ t.flash = some im.bytes)) ∧
      ((im.kind ≠ 1 ∨ Config.flashPresent = false) → bad 0x35 [1]) ∧
      (s.reeve.fwWait = true → im.kind = 1 → ok 0x35 [2] (leBytes 2 im.level) (fun t => quiet t ∧
        bit (t.reg rGLBBOOT) 0 = true ∧ t.reeve.fwWait = false ∧ t.reeve.fwImage = im.bytes)) ∧
      (s.reeve.fwWait = true → im.kind ≠ 1 → bad 0x35 [2]) ∧
      (bit (s.reg rGLBBOOT) 3 = false → (im.kind ≠ 2 ∨ (bit (s.reg rCSPATCH) 16 = true ∧ im.level ≤ s.regF rCSPATCH 15 0)) →
        bad 0x35 [0]) ∧
      (bit (s.reg rGLBBOOT) 3 = false → im.kind = 2 → im.body = [] → im.level < 65536 →
        (bit (s.reg rCSPATCH) 16 = false ∨ s.regF rCSPATCH 15 0 < im.level) →
        ok 0x35 [0] (leBytes 2 im.level) (fun t => t.mem = s.mem ∧ t.banks = s.banks ∧ bit (t.reg rCSPATCH) 16 = true ∧
          t.regF rCSPATCH 15 0 = im.level))) ∧
    (s.regF rGLBBOOT 2 0 ≠ 7 → notYet 0x36 []) ∧
    (s.regF rGLBBOOT 2 0 = 7 → bit (s.reg rGLBBOOT) 3 = true → reads 0x36 [] []) ∧
    (s.regF rGLBBOOT 2 0 = 7 → bit (s.reg rGLBBOOT) 3 = false → ok 0x36 [] [] (fun t => t.mem = s.mem ∧
      t.banks = s.banks ∧ bit (t.reg rGLBBOOT) 3 = true ∧ bit (t.reg rCLOSED) 0 = true ∧
      ∀ c : Fin 96, s.coreEnabled c = true → (t.core c).dloaded = true))

/-- R190, R193, R340, R371, R398, R417, R423, R424, R462, R472, R473, R474: what the Reeve's commands to cores, links,
ports, bins and engines and its debug commands do when it runs them. -/
def Obligations.ReeveTargets : Prop :=
  ∀ (s : State) (pt : Port) (q h1 : BitVec 16) (b1 b2 b3 b4 : Byte) (d1 : BitVec 32) (v1 v2 : Val) (w1 : Word) (bs ps : List Byte),
    let run (op : Byte) (ps : List Byte) : CmdRes := s.runCmd pt ⟨op, q, ps⟩
    let ok (op : Byte) (ps data : List Byte) (p : State → Prop) : Prop := ∃ t, run op ps = .done stOK data t ∧ p t
    let reads (op : Byte) (ps data : List Byte) : Prop := run op ps = .done stOK data s
    let bad (op : Byte) (ps : List Byte) : Prop := run op ps = .done stBAD_PARAM [] s
    let notYet (op : Byte) (ps : List Byte) : Prop := run op ps = .done stNOT_READY [] s
    let cold (op : Byte) (ps : List Byte) : Prop := run op ps = .done stFROZEN [] s
    let c := b1.toNat
    let b : Fin 4 := Fin.ofNat 4 b2.toNat
    let ix := h1.toNat
    let x := s.core c
    let bk := s.bank c b
    let frozenOrHalted : Prop := x.frozen = true ∨ s.pairMode (c / 2) = 3
    let split : Prop := s.pairMode (c / 2) = 0
    let pk := [b1, b2, b3] ++ bv 8 v1
    let logged (t : State) (code : Nat) : Prop := s.reeve.up = true →
      t.reeve.nextEvt = s.reeve.nextEvt + 1 ∧ ∃ e ∈ t.reeve.log, e.cls = 2 ∧ e.code = code ∧ e.index = ix ∧ e.num = s.reeve.nextEvt
    ((s.coreOk c = false ∨ 3 < b2.toNat ∨ 7 < b3.toNat ∨ bits v1 63 48 ≠ 0 ∨ bits v1 1 0 ≠ 0) → bad 0x40 pk) ∧
    (s.coreOk c = true → b2.toNat ≤ 3 → b3.toNat ≤ 7 → bits v1 63 48 = 0 → bits v1 1 0 = 0 →
      (frozenOrHalted → cold 0x40 pk) ∧
      (¬ frozenOrHalted → (s.oddBound c = true ∨ (b3 = 1 ∧ bit (s.reg rGLBBOOT) 3 = false)) → notYet 0x40 pk) ∧
      (¬ frozenOrHalted → s.oddBound c = false → (b3 = 1 → bit (s.reg rGLBBOOT) 3 = true) →
        let u := (if v1 ≠ 0 then (s.powerRestore c).bpcWrite c b v1 else s.powerRestore c).bankCmd c b b3.toNat
        ((u.bank c b).rej = true → run 0x40 pk = .done stBAD_PARAM [] u) ∧
        ((u.bank c b).rej = false → run 0x40 pk = .done stOK [] u))) ∧
    ((3 < c ∨ c = 0 ∧ s.coreOk ix = false ∨ c = 1 ∧ 6 ≤ ix ∨ c = 2 ∧ ix ≠ 0 ∨ c = 3 ∧ 4096 ≤ ix) →
      bad 0x41 ([b1] ++ bv 2 h1)) ∧
    (c = 0 → s.coreOk ix = true → s.pairMode (ix / 2) = 0 → (s.core ix).frozen = false →
      ok 0x41 ([b1] ++ bv 2 h1) [] (fun t => (t.core ix).frozen = true ∧ t.mem = s.mem ∧ logged t 1 ∧
        ∀ k : Fin 4, (t.bank ix k).st = 5 ∧ (t.bank ix k).prev = (s.bank ix k).st ∧ (t.bank ix k).pc = (s.bank ix k).pc)) ∧
    (c = 1 → ix < 6 → ok 0x41 ([b1] ++ bv 2 h1) [] (fun t => bit (t.reg rFRZP) ix = true ∧ t.mem = s.mem ∧ logged t 1 ∧
      ∀ y ∈ t.fab.cache, y.2.1 ≠ ix)) ∧
    (c = 2 → ix = 0 → ok 0x41 ([b1] ++ bv 2 h1) [] (fun t => bit (t.reg rFRZP) 8 = true ∧ t.mem = s.mem ∧ logged t 1)) ∧
    (c = 3 → ix < 4096 → ok 0x41 ([b1] ++ bv 2 h1) [] (fun t => t.binState ix = 4 ∧ t.regF (binBase ix) 23 20 = 1 ∧
      t.mem = s.mem ∧ logged t 1)) ∧
    (c = 0 → s.coreOk ix = true → s.pairMode (ix / 2) = 0 →
      ((s.core ix).frozen = true → (s.core ix).frzWhy = vESCFAULT → bad 0x42 ([b1] ++ bv 2 h1)) ∧
      ((s.core ix).frozen = true → (s.core ix).frzWhy ≠ vESCFAULT →
        ok 0x42 ([b1] ++ bv 2 h1) [] (fun t => (t.core ix).frozen = false ∧ t.mem = s.mem ∧ logged t 2 ∧
          ∀ k : Fin 4, (t.bank ix k).st = (s.bank ix k).prev)) ∧
      ((s.core ix).frozen = false → (s.core ix).pg = false → ok 0x42 ([b1] ++ bv 2 h1) [] (fun t => t.banks = s.banks ∧ t.cores = s.cores ∧
        t.mem = s.mem ∧ logged t 2))) ∧
    (c = 3 → ix < 4096 → s.binState ix = 4 →
      (s.regF (binBase ix) 23 20 ≠ 1 → bad 0x42 ([b1] ++ bv 2 h1)) ∧
      (s.regF (binBase ix) 23 20 = 1 → ok 0x42 ([b1] ++ bv 2 h1) [] (fun t => t.binState ix = 1 ∧ logged t 2))) ∧
    (c = 2 → ix = 0 → ok 0x42 ([b1] ++ bv 2 h1) [] (fun t => bit (t.reg rFRZP) 8 = false ∧ t.mem = s.mem ∧ logged t 2)) ∧
    (c = 3 → ix < 4096 → run 0x43 ([b1] ++ bv 2 h1) = .done stOK [] ((s.resetBinCmd ix).logEvent 2 3 ix 2 0 0)) ∧
    (c = 3 → ix < 4096 → (∀ f ∈ s.bins.flight, f.bin ≠ ix) → ok 0x43 ([b1] ++ bv 2 h1) [] (fun t => t.binState ix = 0 ∧
      t.reg (binBase ix + 0x18) = 0 ∧ t.mem = s.mem ∧ (∀ k < 12, ∀ e ∈ t.srcs k, e.bin ≠ ix) ∧ logged t 3)) ∧
    (c = 2 → ix = 0 → ok 0x43 ([b1] ++ bv 2 h1) [] (fun t => t.host.hnote = [] ∧ t.host.msix = [] ∧ t.host.cmdb = false ∧
      t.host.rplv = false ∧ t.mem = s.mem ∧ logged t 3)) ∧
    (c = 0 → s.coreOk ix = false → bad 0x43 ([b1] ++ bv 2 h1)) ∧
    (c = 0 → s.coreOk ix = true → run 0x43 ([b1] ++ bv 2 h1) =
      .done stOK [] ((s.coreReset ix).logEvent 2 3 ix 2 0 0)) ∧
    (run 0x44 [] = .done stOK [] s.warmReset ∧ (ps ≠ [] → bad 0x44 ps ∧ bad 0x51 ps)) ∧
    ((s.coreOk c = false ∨ 1 < b2.toNat) → bad 0x45 [b1, b2]) ∧
    (s.coreOk c = true → b2.toNat ≤ 1 →
      (frozenOrHalted → cold 0x45 [b1, b2]) ∧ (¬ frozenOrHalted → s.oddBound c = true → notYet 0x45 [b1, b2]) ∧
      (¬ frozenOrHalted → split → x.pg = false → ok 0x45 [b1, b2] [] (fun t => t.mem = s.mem ∧ t.banks = s.banks ∧
        bit (t.reg (worldRegs c b2.toNat + 8)) 0 = true)) ∧
      (¬ frozenOrHalted → s.oddBound c = false → run 0x45 [b1, b2] =
        .done stOK [] ((s.powerRestore c).deliver c (.ipend (b2 == 1) 0)))) ∧
    ((11 < c ∨ 1 < b2.toNat) → bad 0x46 [b1, b2]) ∧
    (c ≤ 11 → b2 = 1 → ok 0x46 [b1, b2] [] (fun t => t.mem = s.mem ∧ t.banks = s.banks ∧ bit (t.reg (wnwBase c)) 0 = true)) ∧
    ((5 < c ∨ b2 = 0 ∨ 4 < b2.toNat) → bad 0x50 [b1, b2]) ∧
    (c ≤ 5 → b2 ≠ 0 → b2.toNat ≤ 4 → run 0x50 [b1, b2] =
      .done (if (s.linkCmd c b2.toNat).2 then stBAD_PARAM else stOK) [] (s.linkCmdReg c b2.toNat)) ∧
    ok 0x51 [] [] (fun t => t.fab.cache = [] ∧ t.mem = s.mem ∧ t.regs = s.regs ∧ t.banks = s.banks) ∧
    (1 < c → bad 0x52 [b1]) ∧
    (c ≤ 1 → ok 0x52 [b1] [] (fun t => Tbl.get 0 t.fab.epochNo c = Tbl.get 0 s.fab.epochNo c + 1 ∧ t.mem = s.mem)) ∧
    (512 < bs.length → bad 0x53 (bv 2 h1 ++ bs)) ∧
    (bs.length ≤ 512 → (s.fabUp = false ∨ ix = s.nodeNo) → notYet 0x53 (bv 2 h1 ++ bs)) ∧
    (bs.length ≤ 512 → s.fabUp = true → ix ≠ s.nodeNo → ∃ t, run 0x53 (bv 2 h1 ++ bs) = .wait t ∧ t.mem = s.mem ∧
      t.reeve.fabsend = s.reeve.fabsend ++ [{ port := pt, seq := q, node := h1 }]) ∧
    ((4095 < ix ∨ b1 = 0 ∨ 5 < c) → bad 0x60 (bv 2 h1 ++ [b1])) ∧
    (ix ≤ 4095 → b1 ≠ 0 → c ≤ 5 → run 0x60 (bv 2 h1 ++ [b1]) =
      .done (if (s.binCmd ix c).2 then stBAD_PARAM else stOK) [] (s.binCmdReg ix c)) ∧
    (4095 < ix → bad 0x61 (bv 2 h1)) ∧
    (ix ≤ 4095 → reads 0x61 (bv 2 h1) ((List.range 8).flatMap fun i => leBytes 8 (s.regRead whoReeve (binBase ix + 8 * i)).toNat)) ∧
    ((11 < c ∨ 4096 ≤ ix) → bad 0x62 ([b1] ++ bv 2 h1 ++ [1, 0] ++ bv 4 d1)) ∧
    (c ≤ 11 → ix < 4096 → ok 0x62 ([b1] ++ bv 2 h1 ++ [1, 0] ++ bv 4 d1) []
      (fun t => t = s.setReg (engBase c + 0x8000 + 8 * ix) (d1.setWidth 64))) ∧
    (1 ≤ ix → ix ≤ 127 → d1.toNat % 8 = 0 → d1.toNat + 8 * ix ≤ 0x800000 →
      reads 0x70 (bv 4 d1 ++ bv 2 h1)
        ((List.range ix).flatMap fun i => leBytes 8 (s.regRead whoReeve (0x0F800000 + d1.toNat + 8 * i)).toNat)) ∧
    ((ix = 0 ∨ 127 < ix ∨ d1.toNat % 8 ≠ 0) → bad 0x70 (bv 4 d1 ++ bv 2 h1)) ∧
    (s.coreOk c = false → bad 0x80 [b1] ∧ bad 0x81 [b1]) ∧
    (s.coreOk c = true → x.pg = true → notYet 0x80 [b1] ∧ notYet 0x81 [b1]) ∧
    (s.coreOk c = true → x.pg = false → x.frozen = true → cold 0x80 [b1] ∧ cold 0x81 [b1]) ∧
    (s.coreOk c = true → x.pg = false → x.frozen = false → split →
      (x.halted = true → reads 0x80 [b1] []) ∧
      (x.halted = false → x.run = none → x.inEsc = false → ok 0x80 [b1] [] (fun t => (t.core c).halted = true ∧
        (t.core c).stopReq = false ∧ t.mem = s.mem ∧ bit (t.reg (dbgBase c)) 0 = true ∧ t.regF (dbgBase c) 6 4 = 1)) ∧
      (x.halted = false → x.run ≠ none → ∃ t, run 0x80 [b1] = .wait t ∧ (t.core c).stopReq = true ∧
        t.reeve.exec = some (.halt pt q c) ∧ t.mem = s.mem ∧ t.banks = s.banks) ∧
      (x.halted = false → notYet 0x81 [b1] ∧ (h1 ≠ 0 → notYet 0x82 ([b1] ++ bv 2 h1 ++ [b2]))) ∧
      (h1 = 0 → bad 0x82 ([b1] ++ bv 2 h1 ++ [b2])) ∧
      (x.halted = true →
        ok 0x81 [b1] [] (fun t => (t.core c).halted = false ∧ (t.core c).stepLeft = 0 ∧ t.regF (dbgBase c) 1 0 = 0 ∧
          t.mem = s.mem ∧ ∀ k : Fin 4, (t.bank c k).exempt = true ∧ (t.bank c k).pc = (s.bank c k).pc) ∧
        (h1 ≠ 0 → ok 0x82 ([b1] ++ bv 2 h1 ++ [b2]) [] (fun t => (t.core c).halted = false ∧ (t.core c).stepLeft = ix ∧
          (t.core c).stepHold = b2.getLsbD 0 ∧ t.regF (dbgBase c) 1 0 = 2 ∧ t.mem = s.mem))) ∧
      (b2.toNat < 4 → ok 0x83 ([b1, b2] ++ bv 8 v1 ++ bv 8 v2) [] (fun t =>
        t.reg (dbgBase c + 0x100 + 8 * b2.toNat) = v1 &&& v64 (rwMask (dbgBase c + 0x100 + 8 * b2.toNat)) ∧ t.mem = s.mem ∧
        t.banks = s.banks)) ∧
      (5 < b2.toNat → bad 0x83 ([b1, b2] ++ bv 8 v1 ++ bv 8 v2)) ∧
      ((b2 = 4 ∨ b2 = 5) → (bits v2 5 0 < 3 ∨ 47 < bits v2 5 0) → bad 0x83 ([b1, b2] ++ bv 8 v1 ++ bv 8 v2)) ∧
      ((b2 = 4 ∨ b2 = 5) → 3 ≤ bits v2 5 0 → bits v2 5 0 ≤ 47 → ok 0x83 ([b1, b2] ++ bv 8 v1 ++ bv 8 v2) [] (fun t =>
        let o := dbgBase c + 0x140 + 16 * (b2.toNat - 4)
        t.reg o = v1 &&& v64 (rwMask o) ∧ t.reg (o + 8) = v2 &&& v64 (rwMask (o + 8)))) ∧
      (5 < b2.toNat → b2 ≠ 0xFF → bad 0x84 [b1, b2]) ∧
      (b2.toNat < 4 → ok 0x84 [b1, b2] [] (fun t => t.reg (dbgBase c + 0x100 + 8 * b2.toNat) = 0)) ∧
      (ok 0x84 [b1, 0xFF] [] (fun t => ∀ i < 4, t.reg (dbgBase c + 0x100 + 8 * i) = 0)) ∧
      (x.halted = false → b2.toNat ≤ 3 → b4.toNat < 16 → notYet 0x85 [b1, b2, 2, b4, 1]) ∧
      (x.halted = true → b2.toNat ≤ 3 →
        (b4.toNat < 136 → reads 0x85 [b1, b2, 0, b4, 1] (packWords [Tbl.get nilWord bk.gr b4.toNat]) ∧
          ok 0x86 ([b1, b2, 0, b4, 1] ++ packWords [w1]) [] (fun t => Tbl.get nilWord (t.bank c b).gr b4.toNat = w1 ∧
            t.mem = s.mem ∧ (t.bank c b).pc = bk.pc)) ∧
        (b4.toNat < 16 → reads 0x85 [b1, b2, 2, b4, 1] (packWords [Tbl.get nilWord x.esc b4.toNat]) ∧
          ok 0x86 ([b1, b2, 2, b4, 1] ++ packWords [w1]) [] (fun t => Tbl.get nilWord (t.core c).esc b4.toNat = w1 ∧
            t.banks = s.banks)) ∧
        (srAssigned b4.toNat = true → b4 ≠ 0x19 →
          reads 0x85 [b1, b2, 1, b4, 1] (packWords [⟨srTag b4.toNat, s.srVal c b b4.toNat⟩]) ∧
          run 0x86 ([b1, b2, 1, b4, 1] ++ packWords [w1]) = .done stOK [] (s.srWrite c b true b4.toNat w1.val)) ∧
        (srAssigned b4.toNat = false → bad 0x85 [b1, b2, 1, b4, 1] ∧ bad 0x86 ([b1, b2, 1, b4, 1] ++ packWords [w1])) ∧
        (136 ≤ b4.toNat → bad 0x85 [b1, b2, 0, b4, 1]))) ∧
    ((11 < c ∨ b2 = 0 ∨ 127 < b2.toNat ∨ 4096 < ix + b2.toNat) → bad 0x87 ([b1] ++ bv 2 h1 ++ [b2])) ∧
    (c ≤ 11 → b2 ≠ 0 → b2.toNat ≤ 127 → ix + b2.toNat ≤ 4096 →
      reads 0x87 ([b1] ++ bv 2 h1 ++ [b2])
        ((List.range b2.toNat).flatMap fun i => leBytes 8 (s.regRead whoReeve (traceBase c + 0x8000 + 8 * ix + 8 * i)).toNat))

/-- R414, R424, R425, R426, R472, R473, R480: script instructions and their waits and budget; a STEP that has counted
out, a halt taken at a boundary, a HALT or FABSEND that gives up; an event counter that overflows. -/
def Obligations.ScriptsAndDebugEvents : Prop :=
  ∀ (s : State) (n : Fin 4) (c : Fin 96) (k : Fin 8) (i : List Byte) (q : BitVec 16),
    let x := s.script n
    let op := par i 0 1
    let rd := par i 1 1
    let a := Tbl.get (0 : Val) x.regs (par i 2 1)
    let b := Tbl.get (0 : Val) x.regs (par i 3 1)
    let imm := sext 32 (par i 4 4)
    let at_ := (a + i64 imm).toNat
    let named : Prop := rd ≤ 15 ∧ par i 2 1 ≤ 15 ∧ par i 3 1 ≤ 15
    let puts (v : Val) : Prop :=
      s.scriptStep n = (.go, s.setScript n { x with regs := Tbl.set (0 : Val) x.regs rd v, pc := x.pc + 1 })
    let stops (f : Nat) : Prop := s.scriptStep n = (.stop, s.scriptStop n f)
    let next : Script := { x with pc := x.pc + 1 }
    let jumps (t : Bool) : Prop :=
      (t = false → s.scriptStep n = (.go, s.setScript n next)) ∧
      (t = true → (imm < 0 ∨ (x.code.length / 8 : Nat) ≤ imm) → stops 2) ∧
      (t = true → 0 ≤ imm → imm < (x.code.length / 8 : Nat) → s.scriptStep n = (.go, s.setScript n { x with pc := imm.toNat }))
    let ok : Prop := at_ % 8 = 0 ∧ at_ ≤ 0x0FFFFFF8
    (State.scriptInsn x = none → stops 2) ∧
    (State.scriptInsn x = some i → scriptOp op = false → stops 1) ∧
    (State.scriptInsn x = some i → named →
      (op = 0x01 → puts (i64 imm)) ∧ (op = 0x02 → puts (v64 (bits (Tbl.get (0 : Val) x.regs rd) 31 0) + i64 (imm * 2 ^ 32))) ∧
      (op = 0x03 → puts (a + b)) ∧ (op = 0x04 → puts (a - b)) ∧ (op = 0x05 → puts (a &&& b)) ∧ (op = 0x06 → puts (a ||| b)) ∧
      (op = 0x07 → puts (a ^^^ b)) ∧ (op = 0x08 → puts (a >>> (par i 4 1 % 64))) ∧ (op = 0x09 → puts (a <<< (par i 4 1 % 64))) ∧
      (op = 0x10 → ok → puts (s.regRead whoReeve at_)) ∧ (op = 0x10 ∨ op = 0x11 → ¬ ok → stops 3) ∧
      (op = 0x11 → ok → s.scriptStep n = (.go, (s.setScript n next).regWrite whoReeve at_ b)) ∧
      (op = 0x18 → jumps (a == b)) ∧ (op = 0x19 → jumps (a != b)) ∧ (op = 0x1A → jumps (decide (a.toNat < b.toNat))) ∧
      (op = 0x20 → s.scriptStep n = (.yield, s.setScript n { x with pc := x.pc + 1, cut := 0 })) ∧
      (op = 0x21 → s.scriptStep n = (.yield, s.setScript n { x with pc := x.pc + 1, cut := 0, wait := imm.toNat + 1 })) ∧
      (op = 0x22 → s.scriptStep n = (.go, (s.setScript n next).logEvent 0 3 n 2 a 0)) ∧ (op = 0x23 → stops 0)) ∧
    ((x.on = true ∧ x.wait = 1) → exec (.scriptWaitExpiry n) s = .next (s.setScript n { x with wait := 0 })) ∧
    (¬ (x.on = true ∧ x.wait = 1) → exec (.scriptWaitExpiry n) s = .next s) ∧
    ((x.on = false ∨ x.cut < 64) → exec (.scriptBudgetFault n) s = .next s) ∧
    (x.on = true → 64 ≤ x.cut → ∃ t, exec (.scriptBudgetFault n) s = .next t ∧ (t.script n).on = false ∧
      (t.script n).fault = 5 ∧ (t.script n).pc = x.pc ∧ t.mem = s.mem ∧ t.banks = s.banks ∧ t.regs = s.regs) ∧
    (let y := s.core c
     let ctl := dbgBase c
     let idle_ : Prop := s.reeve.exec = none ∧ s.reeve.todo = []
     let halts (t : State) (why : Nat) : Prop := (t.core c).halted = true ∧ (t.core c).stopReq = false ∧ t.mem = s.mem ∧
       t.regF ctl 6 4 = why ∧ bit (t.reg ctl) 0 = true ∧ ∀ j : Fin 4, (t.bank c j).pc = (s.bank c j).pc ∧ (t.bank c j).resv = none
     ((bit (s.reg ctl) 1 = false ∨ y.stepLeft ≠ 0 ∨ y.inEsc = true) → exec (.stepComplete c) s = .next s) ∧
     (bit (s.reg ctl) 1 = true → y.stepLeft = 0 → y.inEsc = false → s.pairMode (c.val / 2) = 0 → idle_ →
       ∃ t, exec (.stepComplete c) s = .next t ∧ halts t 2) ∧
     ((y.stopReq = false ∨ y.halted = true ∨ y.inEsc = true ∨ y.frozen = true) → exec (.debugHaltTaken c) s = .next s) ∧
     (y.stopReq = true → y.halted = false → y.inEsc = false → y.frozen = false → s.pairMode (c.val / 2) = 0 → idle_ →
       ∃ t, exec (.debugHaltTaken c) s = .next t ∧ halts t 1) ∧
     ((∀ p' q' d', s.reeve.exec ≠ some (.halt p' q' d')) → exec (.haltTimeout c) s = .next s) ∧
     (s.reeve.exec = some (.halt .mgmt q c.val) → s.pairMode (c.val / 2) = 0 → y.halted = false → s.reeve.todo = [] →
       ∃ t, exec (.haltTimeout c) s = .next t ∧ (t.core c).stopReq = false ∧ t.reeve.exec = none ∧ t.mem = s.mem ∧
         t.banks = s.banks ∧ (t.port .mgmt).lastDone = q)) ∧
    (s.reeve.fabsend = [] → exec .fabsendTimeout s = .next s) ∧
    (∀ f r, s.reeve.fabsend = f :: r → f.port = .mgmt → (s.port .mgmt).lost.contains f.seq = false → ∃ t, exec .fabsendTimeout s = .next t ∧ t.reeve.fabsend = r ∧
      (t.port .mgmt).lastDone = f.seq ∧ (t.port .mgmt).queue.length = (s.port .mgmt).queue.length + 1 ∧ t.mem = s.mem) ∧
    (let o := dbgBase c + 0x200 + 8 * k.val
     let full : Prop := bit (s.reg o) 12 = true ∧ s.regF (o + 0x40) 47 0 = 2 ^ 48 - 1 ∧ s.oddBound c = false
     (¬ full → exec (.counterOverflow c k) s = .next s) ∧
     (full → ∃ t, exec (.counterOverflow c k) s = .next t ∧ t.regF (o + 0x40) 47 0 = 0 ∧ t.mem = s.mem ∧ t.banks = s.banks))

/-- R440, R444, R445, R446, R448, R449, R450, R451, R452: what each command of the Bushel does: time in ticks, a
sample's power, a frame accepted or lost, the parts of a span's energy, TAMPER and DET, staging, PROGRAM, ARM and SEAL
with their audit entries, its private transfers, the loss of its supply and its power-up. -/
def Obligations.BushelCommands : Prop :=
  ∀ (s : State) (dt n : Nat) (x : BshSample) (bs : List Byte) (off : BitVec 16) (v : Val) (tamper : Bool) (e : Int)
    (xs : Option State.Counts),
    let k := s.bsh
    let idle (i : Instr) : Prop := exec i s = .next s
    let keep (z : State) : Prop := z.mem = s.mem ∧ z.banks = s.banks ∧ z.cores = s.cores ∧ z.fab = s.fab
    let only (z : State) : Prop := keep z ∧ z.regs = s.regs ∧ z.reeve = s.reeve ∧ z.free = s.free
    let total := k.regF 0x60 31 0
    let logged (z : State) (m code data : Nat) : Prop :=
      bits (z.bsh.reg (0x1000 + 16 * ((total + m) % 1024) + 8)) 63 56 = code ∧
      bits (z.bsh.reg (0x1000 + 16 * ((total + m) % 1024) + 8)) 31 0 = data ∧
      z.bsh.reg (0x1000 + 16 * ((total + m) % 1024)) = k.reg 0x40 ∧ z.bsh.regF 0x60 31 0 = (total + m + 1) % 2 ^ 32
    let tried (z : State) : Prop := z.bsh.regF 0x30 15 0 = min 0xFFFF (k.regF 0x30 15 0 + 1)
    let shut : Prop := k.isSealed = true
    (k.on = false → idle (.converterSample dt x) ∧ idle (.detClose dt) ∧ idle .tamperClear ∧ idle (.stagedParameterWrite off v) ∧
      idle .program ∧ idle .arm ∧ idle .seal ∧ idle (.bushelPrivateWrite bs) ∧ idle (.bushelPrivateRead n) ∧
      (∃ z, exec .tamperFall s = .next z ∧ only z ∧ z.bsh = k ∧ z.pins.tamperN = false) ∧
      (∃ z, exec .vddBshLoss s = .next z ∧ only z ∧ z.bsh = k ∧ z.pins.vddBsh = false) ∧
      (∃ z, exec (.countFrameReceive dt bs) s = .next z ∧ only z ∧ z.bsh = k) ∧
      (∃ z, exec (.bushelPowerUp tamper) s = .next z ∧ only z ∧ z.bsh.on = true ∧ z.pins.vddBsh = true ∧
        z.pins.tamperN = !tamper ∧ z.bsh.regF 0x38 15 0 = min 0xFFFF (k.regF 0x38 15 0 + 1) ∧
        bits (z.bsh.reg (0x1000 + 16 * (total % 1024) + 8)) 63 56 = 0x01 ∧
        bits (z.bsh.reg (0x1000 + 16 * (total % 1024) + 8)) 31 0 = min 0xFFFF (k.regF 0x38 15 0 + 1) ∧
        (tamper = false → z.bsh.regF 0x60 31 0 = (total + 1) % 2 ^ 32) ∧
        (tamper = true → total + 1 < 2 ^ 32 → logged z 1 0x05 0 ∧ bit (z.bsh.reg 0x28) 13 = true) ∧
        (∀ i, k.pendRec = some i → i < 16 → bit (z.bsh.reg 0x28) 14 = true ∧ z.bsh.regF 0x28 3 0 = i))) ∧
    (k.on = true → idle (.bushelPowerUp tamper) ∧
      (∃ z, exec (.converterSample dt x) s = .next z ∧ keep z ∧ z.regs = s.regs ∧
        let b := (s.bshPass dt).bsh
        let pw (r : Nat) (y : BitVec 24 × BitVec 24) : Int :=
          ((b.param r).toNat % 2 ^ 32 : Nat) * (y.1.toInt - sext 32 (b.param (r + 1)).toNat) *
            (((b.param (r + 2)).toNat % 2 ^ 32 : Nat) * ((y.2.toNat : Int) - sext 32 (b.param (r + 3)).toNat))
        z.bsh.coreP = pw 0 (x.rails.getD 0 (0, 0)) ∧ z.bsh.memP = pw 4 (x.rails.getD 1 (0, 0)) ∧
        (k.span < 4096 → z.bsh.reg 0x40 = k.reg 0x40 + v64 dt ∧ z.bsh.span < 4096)) ∧
      (∃ z, exec (.detClose dt) s = .next z ∧ keep z ∧ z.regs = s.regs ∧
        (k.span < 4096 → z.bsh.reg 0x40 = k.reg 0x40 + v64 dt ∧ z.bsh.span < 4096 ∧
          (4096 ≤ k.span + dt → bit (z.bsh.reg 0x28) 12 = true) ∧
          (k.span + dt < 4096 → z.bsh.span = k.span + dt ∧ z.bsh.reg 0x100 = k.reg 0x100))) ∧
      (∃ z, exec (.countFrameReceive dt bs) s = .next z ∧ keep z ∧ z.regs = s.regs ∧ z.bsh.segs = [] ∧
        (readFrame bs = none → z.bsh.regF 0x48 63 32 = (k.regF 0x48 63 32 + 1) % 2 ^ 32 ∧
          z.bsh.regF 0x48 31 0 = k.regF 0x48 31 0 ∧ z.bsh.reg 0xF8 = k.reg 0xF8) ∧
        (∀ b p ys, readFrame bs = some (b, p, ys) → z.bsh.regF 0x48 31 0 = (k.regF 0x48 31 0 + 1) % 2 ^ 32 ∧
          z.bsh.regF 0x48 63 32 = k.regF 0x48 63 32 ∧ z.bsh.reg 0xF8 = b ∧ bit (z.bsh.reg 0x28) 12 = false)) ∧
      (∃ z, exec .tamperFall s = .next z ∧ only z ∧ z.pins.tamperN = false ∧ bit (z.bsh.reg 0x28) 13 = true ∧
        logged z 0 0x05 0) ∧
      (bit (k.reg 0x28) 13 = false → idle .tamperClear) ∧
      (bit (k.reg 0x28) 13 = true → ∃ z, exec .tamperClear s = .next z ∧ only z ∧ bit (z.bsh.reg 0x28) 13 = false ∧
        logged z 0 0x06 0) ∧
      (let o := off.toNat
       let staged : Prop := 0x80 ≤ o ∧ o < 0xE0 ∧ o % 8 = 0
       (¬ staged → idle (.stagedParameterWrite off v)) ∧
       (staged → ∃ z, exec (.stagedParameterWrite off v) s = .next z ∧ only z ∧ tried z ∧
         (shut → z.bsh.reg o = k.reg o ∧ logged z 0 0x04 o) ∧
         (¬ shut → z.bsh.reg o = v64 (if o < 0xC0 then bits v 31 0 else bits v 15 0) ∧ logged z 0 0x0A o))) ∧
      (∃ z, exec .program s = .next z ∧ only z ∧ tried z ∧
        (shut → z.bsh.otp = k.otp ∧ z.bsh.pendRec = k.pendRec ∧ logged z 0 0x04 0xE0) ∧
        (¬ shut → 8 ≤ k.regF 0x28 7 4 → z.bsh.otp = k.otp ∧ z.bsh.pendRec = k.pendRec ∧ z.bsh.regF 0x60 31 0 = total) ∧
        (¬ shut → k.regF 0x28 7 4 < 8 → z.bsh.otp = k.otp ++ [(List.range 12).map fun i => k.reg (0x80 + 8 * i)] ∧
          z.bsh.pendRec = some (k.regF 0x28 7 4) ∧ z.bsh.regF 0x28 7 4 = k.regF 0x28 7 4 + 1 ∧
          logged z 0 0x02 (k.regF 0x28 7 4))) ∧
      (∃ z, exec .arm s = .next z ∧ only z ∧ tried z ∧ (shut → z.bsh.armed = k.armed ∧ logged z 0 0x04 0xE0) ∧
        (¬ shut → z.bsh.armed = some (k.reg 0x40).toNat ∧ z.bsh.regF 0x60 31 0 = total)) ∧
      (∃ z, exec .seal s = .next z ∧ only z ∧ tried z ∧ (shut → z.bsh.isSealed = true ∧ logged z 0 0x04 0xE0) ∧
        (¬ shut → ∀ t, k.armed = some t → (k.reg 0x40).toNat ≤ t + 12000000 → bit (k.reg 0x28) 14 = true →
          z.bsh.isSealed = true ∧ logged z 0 0x03 (k.regF 0x28 3 0)) ∧
        (¬ shut → (k.armed = none ∨ (∃ t, k.armed = some t ∧ t + 12000000 < (k.reg 0x40).toNat) ∨ bit (k.reg 0x28) 14 = false) →
          z.bsh.isSealed = false ∧ z.bsh.regF 0x60 31 0 = total)) ∧
      (let a := par bs 0 2
       let len := par bs 2 2
       let m := bs.length - 6
       let good : Prop := 6 ≤ bs.length ∧ par bs (bs.length - 2) 2 = (crc16 0xFFFF (bs.take (bs.length - 2))).toNat
       let range : Prop := good ∧ m = 0 ∧ 1 ≤ len ∧ len ≤ 1024
       let data : Prop := good ∧ m ≠ 0 ∧ a % 8 = 0 ∧ m % 8 = 0 ∧ len = m
       (range → exec (.bushelPrivateWrite bs) s = .next { s with bsh := { k with
         rdAddr := BitVec.ofNat 16 a, rdLen := BitVec.ofNat 16 len, rdSet := true } }) ∧
       (data → exec (.bushelPrivateWrite bs) s =
         .next ((List.range (m / 8)).foldl (fun s i => s.bshWrite (a + 8 * i) (v64 (par bs (4 + 8 * i) 8))) s)) ∧
       (¬ range → ¬ data → exec (.bushelPrivateWrite bs) s = .next { s with bsh := { k with protoErr := true } })) ∧
      (let a := k.rdAddr.toNat
       let len := k.rdLen.toNat
       let ys := (List.range len).map fun i => s.bshByte (a + i)
       ∃ z, exec (.bushelPrivateRead n) s = .next z ∧ keep z ∧ z.free = s.free ∧ z.bsh.readOut.length = n ∧
         z.bsh.readOut = (ys ++ leBytes 2 (crc16 0xFFFF (leBytes 2 a ++ leBytes 2 len ++ ys)).toNat ++
           List.replicate (n - (len + 2)) 0xFF).take n ∧
         ((s.reeve.up = false ∨ k.rdSet = false ∨ n < len + 2) → z.regs = s.regs) ∧
         (s.reeve.up = true → k.rdSet = true → len + 2 ≤ n → len ≤ 1024 →
           z.reg rMIRBOUT = s.bout ∧ z.reg rMIRRNG = v64 (len * 2 ^ 16 + a))) ∧
      (∃ z, exec .vddBshLoss s = .next z ∧ only z ∧ z.bsh.on = false ∧ z.pins.vddBsh = false ∧ z.bsh.otp = k.otp ∧
        z.bsh.frac = [] ∧ (∀ o, o = 0x30 ∨ o = 0x38 ∨ o = 0x60 ∨ 0x1000 ≤ o → z.bsh.reg o = k.reg o) ∧
        (∀ j, j < 66 → z.bsh.reg (0x100 + 8 * j) = 0) ∧ z.bsh.reg 0x40 = 0 ∧ z.bsh.reg 0x48 = 0 ∧
        z.bsh.regF 0x28 15 14 = k.regF 0x28 15 14 ∧ z.bsh.regF 0x28 7 0 = k.regF 0x28 7 0 ∧
        z.bsh.regF 0x28 13 11 = 2)) ∧
    ((State.divide k 8 xs e).foldl (fun (t : Int) y => t + y.2) 0 = e ∧ State.divide k 8 none e = [(64, e)]) ∧
    (∀ j m, let o := 0x100 + 8 * j
      let y := min (2 ^ 64 - 1) ((k.reg o).toNat + m)
      j < 66 → (k.addAccount j m).reg o = v64 y ∧ (∀ i, i < 66 → i ≠ j → (k.addAccount j m).reg (0x100 + 8 * i) = k.reg (0x100 + 8 * i)) ∧
        (y = 2 ^ 64 - 1 → bit ((k.addAccount j m).reg (if j < 64 then 0x50 else 0x58)) (j % 64) = true))

/-- R45, R401, R457, R458, R459, R461, R463, R466, R467, R488: the straps and resets of the pins, the boot steps, and
the temperature sensors: what each row leaves, and when it does nothing. -/
def Obligations.PowerBootAndThermal : Prop :=
  ∀ (s : State) (boot ias : Fin 4) (dbg : Bool) (chok : BitVec 16) (ts : List (Option (BitVec 16))) (n : Fin 13),
    let idle (i : Instr) : Prop := exec i s = .next s
    let same (z : State) : Prop := z.mem = s.mem ∧ z.banks = s.banks ∧ z.cores = s.cores ∧ z.fab = s.fab ∧ z.bsh.regs = s.bsh.regs
    let step1 (i : Instr) (o : Nat) (b : Nat) : Prop := ∃ z, exec i s = .next z ∧ same z ∧ bit (z.reg o) b = true ∧
      ∀ j, j ≠ o → z.reg j = s.reg j
    let cold (i : Instr) (kind : Nat) (p : State → Prop) : Prop := ∃ z, exec i s = .next z ∧ p z ∧
      (∀ o, o ≠ rRSTCAUSE → z.reg o = State.reset.reg o) ∧ z.regF rRSTCAUSE 2 0 = kind ∧ z.mem = State.reset.mem ∧
      z.banks = [] ∧ z.cores = [] ∧ z.fab = State.reset.fab ∧ z.bins = State.reset.bins ∧ z.gc = State.reset.gc ∧
      z.reeve = State.reset.reeve ∧ z.host = State.reset.host ∧ z.bsh = s.bsh ∧ z.flash = s.flash ∧ z.tripped = false ∧
      z.pins.faultN = true ∧ z.pins.alertN = true ∧ z.pins.boutout = 0 ∧
      z.pins.thermtripN = (s.pins.thermtripN || !s.tooHot) ∧ z.pins.tamperN = s.pins.tamperN
    let rs := s.validReadings ts
    let held : Prop := s.pins.resetN = false ∨ s.pins.railBad = true ∨ s.hotHold = true
    let flashed := readImage (s.flash.getD (if Config.flashPresent then Config.flashImage else []))
    let mayRun : Prop := s.reeve.up = true ∧ s.regF rGLBSTRAP 1 0 = 1 ∧ s.reeve.fwWait = false ∧ bit (s.reg rGLBBOOT) 0 = false
    (s.pins.resetN = true → idle (.resetNRise boot ias dbg)) ∧
    (s.pins.resetN = false → ∃ z, exec (.resetNRise boot ias dbg) s = .next z ∧ same z ∧ z.pins.resetN = true ∧
      bits (z.reg rGLBSTRAP) 1 0 = boot.val ∧ bits (z.reg rGLBSTRAP) 3 2 = ias.val ∧ bit (z.reg rGLBSTRAP) 4 = dbg ∧
      z.hotHold = s.tooHot ∧ z.bsh.as = ias.val ∧ (s.tooHot = false → z.pins.thermtripN = true) ∧
      ∀ o, o ≠ rGLBSTRAP → o ≠ rPWRSTAT → z.reg o = s.reg o) ∧
    (s.pins.resetN = false → idle .resetNFall ∧ idle .pwrgoodFall ∧ idle .railFault) ∧
    (s.pins.resetN = true → s.pins.railBad = false →
      cold .resetNFall 2 (fun z => z.pins.resetN = false ∧ z.pins.railBad = false) ∧
      cold .pwrgoodFall 3 (fun z => z.pins.resetN = true ∧ z.pins.railBad = true ∧ z.running = false) ∧
      cold .railFault 4 (fun z => z.pins.resetN = true ∧ z.pins.railBad = true ∧ z.running = false)) ∧
    (s.pins.resetN = true → s.pins.railBad = true → idle .pwrgoodFall ∧ idle .railFault ∧
      cold .resetNFall (s.regF rRSTCAUSE 2 0) (fun z => z.pins.resetN = false ∧ z.pins.railBad = false)) ∧
    ((s.running = false ∨ s.reeve.up = true) → idle .reeveBootRomStart) ∧
    (s.running = true → s.reeve.up = false → ∃ z, exec .reeveBootRomStart s = .next z ∧ z.mem = s.mem ∧ z.banks = s.banks ∧
      z.reeve.up = true ∧ z.reeve.fwWait = (s.regF rGLBSTRAP 1 0 != 1) ∧
      (s.regF rGLBSTRAP 1 0 ≠ 2 → z.regs = s.regs ∧ z.reeve.nextEvt = s.reeve.nextEvt + 1 ∧
        z.reeve.log.getLast? = some ⟨s.reeve.nextEvt, 0, 1, s.bout, 0, 2, 0, 0⟩) ∧
      (s.regF rGLBSTRAP 1 0 = 2 → ∀ l, l < 6 → s.linkState l = 0 → z.linkState l = 1)) ∧
    (s.reeve.up = false → idle .microcodeLoadComplete) ∧ (s.reeve.up = true → step1 .microcodeLoadComplete rGLBBOOT 1) ∧
    ((s.running = false ∨ bit (s.reg rMCSTAT) 16 = true) → idle (.memoryTrainingComplete chok)) ∧
    (s.running = true → bit (s.reg rMCSTAT) 16 = false → ∃ z, exec (.memoryTrainingComplete chok) s = .next z ∧ same z ∧
      bit (z.reg rMCSTAT) 16 = true ∧ bits (z.reg rMCSTAT) 15 0 = chok.toNat ∧ (∀ o, o ≠ rMCSTAT → z.reg o = s.reg o) ∧
      (chok = 0xFFFF → z.reeve = s.reeve)) ∧
    ((s.reg rMCSTAT ≠ 0x1FFFF ∨ bit (s.reg rGLBBOOT) 2 = true) → idle .dramInitComplete) ∧
    (s.reg rMCSTAT = 0x1FFFF → bit (s.reg rGLBBOOT) 2 = false → ∃ z, exec .dramInitComplete s = .next z ∧
      (∀ a, a % 8 = 0 → z.mem.word a = nilWord) ∧ (∀ g, z.mem.poisoned g = false) ∧ bit (z.reg rGLBBOOT) 2 = true ∧
      z.banks = s.banks ∧ z.cores = s.cores ∧ z.mem.lines = s.mem.lines ∧ ∀ o, o ≠ rGLBBOOT → z.reg o = s.reg o) ∧
    (¬ mayRun → idle .firmwareRun) ∧
    (mayRun → ∃ z, exec .firmwareRun s = .next z ∧ same z ∧
      (∀ im, flashed = some im → im.kind = 1 → bit (z.reg rGLBBOOT) 0 = true ∧ z.reeve.fwImage = im.bytes ∧
        z.reeve.log = s.reeve.log ∧ z.reeve.fwWait = false) ∧
      ((flashed = none ∨ ∃ im, flashed = some im ∧ im.kind ≠ 1) → z.regs = s.regs ∧ z.reeve.fwWait = true ∧
        z.reeve.log.getLast? = some ⟨s.reeve.nextEvt, 0, 4, s.bout, 0, 2, 0, 0⟩)) ∧
    ((s.reeve.up = false ∨ s.reeve.fwWait = false ∨ s.regF rGLBSTRAP 1 0 ≠ 2) → idle .nbootRequest) ∧
    (s.reeve.up = true → s.reeve.fwWait = true → s.regF rGLBSTRAP 1 0 = 2 → ∃ z, exec .nbootRequest s = .next z ∧
      z.mem = s.mem ∧ z.banks = s.banks ∧ z.regs = s.regs ∧
      ∀ l, l < 6 → z.link l = if s.linkState l = 5 then (s.sendOn l (State.nbootPacket 1 0 [])).link l else s.link l) ∧
    (∃ z, exec (.thermalSample ts) s = .next z ∧ z.mem = s.mem ∧ z.banks = s.banks ∧ z.cores = s.cores ∧ z.fab = s.fab ∧
      (rs = [] → z.temp = s.temp ∧ z.tripped = s.tripped) ∧
      (held → z.regs = s.regs ∧ z.tripped = s.tripped) ∧
      (∀ k m, (k, m) ∈ rs → (∀ y ∈ rs, y.2 ≤ m) → z.temp = m ∧
        (¬ held →
          z.regF rTHSTAT 63 48 = (BitVec.ofInt 16 m).toNat ∧
          bit (z.reg rTHSTAT) 0 = (decide (s.thresh 15 8 < m) || bit (s.reg rTHSTAT) 0 && !decide (m < s.thresh 15 8 - 20)) ∧
          bit (z.reg rTHSTAT) 1 = (if bit (s.reg rTHSTAT) 1 then !decide (m < s.thresh 23 16 - 20)
            else bit (s.reg rTHCTL) 0 && decide (s.thresh 23 16 < m)) ∧
          (s.thresh 31 24 < m → z.tripped = true ∧ (s.tripped = false → z.pins.thermtripN = false ∧ bit (z.reg rGLBBOOT) 4 = true)) ∧
          (m ≤ s.thresh 31 24 → z.tripped = s.tripped ∧ z.reg rGLBBOOT = s.reg rGLBBOOT) ∧
          ∀ j t, (j, t) ∈ rs → z.reg (rTHSENS j) = v64 (BitVec.ofInt 16 t).toNat))) ∧
    ((s.sensorBad n.val = true ∨ Tbl.get 0 s.thMiss n.val < 16) → idle (.sensorInvalid n)) ∧
    (s.sensorBad n.val = false → 16 ≤ Tbl.get 0 s.thMiss n.val → step1 (.sensorInvalid n) rTHSTAT (16 + n.val))

/-- R4, R6, R13, R15, R17, R18, R170, R193, R202, R203, R301, R307, R377, R379, R380, R429, R443, R467: a plain
register write by the Reeve, a bank or the host, and CLRDBG; the bout boundary and the edge of BOUTREF; and a cycle
with no command (the model's choice, log entry 1), in which MUL and DIV results, timers and yoke ticks fall due. -/
def Obligations.RegisterWritesAndTime : Prop :=
  ∀ (s : State) (r : RegSrc) (x : Who) (off : BitVec 32) (v : Val) (p : Fin 48) (dev : Int) (c : Fin 96) (b : Fin 4),
    let idle (i : Instr) : Prop := exec i s = .next s
    let keep (z : State) : Prop := z.mem = s.mem ∧ z.banks = s.banks ∧ z.cores = s.cores ∧ z.reeve = s.reeve
    let o := off.toNat
    let mapped : Prop := r ≠ .host ∧ o % 8 = 0 ∧ o < 0x10000000
    let mk := v64 (rwMask o)
    let masked := (s.reg o &&& ~~~mk) ||| (v &&& mk)
    let puts (i : Instr) (a : Nat) (y : Val) : Prop := ∃ z, exec i s = .next z ∧ keep z ∧ z.reg a = y ∧
      ∀ j, j ≠ a → z.reg j = s.reg j
    (r ≠ .host → (o % 8 ≠ 0 ∨ 0x10000000 ≤ o ∨ s.whoOf r = none) → idle (.registerWrite r off v)) ∧
    (mapped → s.whoOf r = some x → s.regViolation x o true = true →
      exec (.registerWrite r off v) s = .next (s.freezeCore x.c x.b 0x05 (v64 o))) ∧
    (mapped → s.whoOf r = some x → s.regViolation x o true = false →
      exec (.registerWrite r off v) s = .next (s.regWrite x o v)) ∧
    (x.reeve = false → isCoreBlk o = false → isClusterBlk o = false → isBinBlk o = false → isEvReg o = false →
      isMailBlk o = false → s.regWrite x o v = s) ∧
    (mapped → s.whoOf r = some x → x.reeve = true →
      (o = rMERR 0 ∨ o = rSCRUB ∨ o = rNBCTL ∨ o = rFABCTL ∨ (∃ l, l < 6 ∧ o = rLNKCLS l) ∨ (∃ n, n < 8 ∧ o = hostWin n) ∨
        (∃ i, i < 1024 ∧ o = rRTSEG i) ∨ (∃ i, i < 64 ∧ o = rRTMOD i) ∨ (∃ i, i < 6 ∧ o = modCtr i)) →
        puts (.registerWrite r off v) o masked) ∧
    (mapped → s.whoOf r = some x → x.reeve = true → o = rTHCTL → ∃ z, exec (.registerWrite r off v) s = .next z ∧ keep z ∧
      z.regF rTHCTL 15 8 = bits v 15 8 ∧ bit (z.reg rTHCTL) 0 = bit v 0 ∧
      z.regF rTHCTL 23 16 = (if 70 ≤ bits v 23 16 ∧ bits v 23 16 ≤ 110 then bits v 23 16 else s.regF rTHCTL 23 16) ∧
      z.regF rTHCTL 31 24 = s.regF rTHCTL 31 24) ∧
    (mapped → s.whoOf r = some x → x.reeve = true → o = rFABNODE → s.fabUp = true → idle (.registerWrite r off v)) ∧
    (mapped → s.whoOf r = some x → x.reeve = true → (o = 0 ∨ o = rGLBBOOT ∨ o = rPWRSTAT ∨ o = rBTNUM ∨ o = rHPSTAT) →
      ∃ z, exec (.registerWrite r off v) s = .next z ∧ keep z ∧ ∀ j, z.reg j = s.reg j) ∧
    (let k := s.bank c b
     let blk := coreBase c + 0x100 + 0x40 * b.val
     let mine : Prop := mapped ∧ s.whoOf r = some x ∧ s.coreEnabled c = true ∧ s.oddBound c = false ∧
       (x.reeve = true ∨ x.w = k.status.wld)
     let sets (k' : Bank) : Prop := ∃ z, exec (.registerWrite r off v) s = .next z ∧ z.mem = s.mem ∧ z.regs = s.regs ∧
       z.bank c b = k' ∧ ∀ c' b', (c', b') ≠ (c.val, b) → z.bank c' b' = s.bank c' b'
     (mine → o = blk → sets { k with pri := BitVec.ofNat 2 (bits v 5 4) }) ∧
     (mine → o = blk + 0x18 → sets { k with btmr := v.setWidth 32 }) ∧
     (mine → o = blk + 0x20 → sets { k with bevt := k.bevt &&& ~~~(v.setWidth 4) })) ∧
    (let cb := pairBase p.val + 8
     ((s.whoOf r = none ∨ ∃ y, s.whoOf r = some y ∧ y.reeve = false) → idle (.clrdbgWrite r p v)) ∧
     (∀ y, s.whoOf r = some y → y.reeve = true → ∃ z, exec (.clrdbgWrite r p v) s = .next z ∧ keep z ∧
       bits (z.reg cb) 1 0 = bits v 1 0 ∧
       (bit v 2 = true → bit (z.reg (pairBase p.val)) 7 = false) ∧
       (bit v 2 = false → z.reg (pairBase p.val) = s.reg (pairBase p.val)) ∧
       z.pairMode p.val = s.pairMode p.val ∧ ∀ j, j ≠ cb → j ≠ pairBase p.val → z.reg j = s.reg j)) ∧
    (let up : Prop := s.hostUp = true ∧ s.hostFrozen = false
     (¬ up → idle (.registerWrite .host off v)) ∧
     (up → ∀ n, n < 16 → o = 0x30000 + 8 * n → ∃ z, exec (.registerWrite .host off v) s = .next z ∧ keep z ∧
       z.regs = s.regs ∧ Tbl.get (0 : Val) z.host.hnote n = v64 (bits v 12 0)) ∧
     (up → ∀ n, n < 129 → o = 0x21000 + 8 * n → ∃ z, exec (.registerWrite .host off v) s = .next z ∧ keep z ∧
       z.regs = s.regs ∧ Tbl.get (0 : Val) z.host.mbcmd n = v) ∧
     (up → ∀ n, n < 64 → o = 0xF0000 + 16 * n + 8 → ∃ z, exec (.registerWrite .host off v) s = .next z ∧ keep z ∧
       z.regs = s.regs ∧ Tbl.get (1 : Val) z.host.msix n = v >>> 32 ∧
       ((bit v 32 = true ∨ Tbl.get 0 s.host.pba n = 0) → z.host.vectors = s.host.vectors) ∧
       (bit v 32 = false → Tbl.get 0 s.host.pba n ≠ 0 → z.host.vectors = s.host.vectors ++ [n] ∧
         Tbl.get 0 z.host.pba n = 0)) ∧
     (up → ∀ n : Fin 4096, o = 16 * n.val + 8 → exec (.registerWrite .host off v) s = exec (.slotRelease n v) s) ∧
     (up → (0x10000 ≤ o ∧ o < 0x20000 ∨ 0x40000 ≤ o ∧ o < 0xF0000 ∨ 0xF0400 ≤ o) → idle (.registerWrite .host off v))) ∧
    (let m : State := { s.sendFrame.markEchoes with bounds := s.bounds + 1 }
     let a := m.advanceBout
     let per := match s.fab.nextPeriod with
       | some q => q.toNat
       | none => s.regF rBTCTL 1 0
     a.bout = (if (s.bout + 1).toNat < s.fab.btJumpTo.toNat then s.fab.btJumpTo else s.bout + 1) ∧
     a.regF rBTCTL 1 0 = per ∧ a.fab.nextPeriod = none ∧ a.act = [] ∧
     a.frames = s.frames ++ [countFrame s.bout (s.regF rBTCTL 1 0) s.act] ∧ keep a ∧ a.bounds = s.bounds + 1 ∧
     (∀ l, l < 6 → (a.link l).markIn = false ∧ ((s.link l).markIn = false → (a.link l).markEcho = 0)) ∧
     ((s.bout + 1).toNat < s.fab.btJumpTo.toNat → a.reg rBTJUMP = s.reg rBTJUMP + 1) ∧
     (s.running = false → idle .boutBoundary ∧ idle (.boutrefEdge dev)) ∧
     (s.running = true → s.tripped = false → exec .boutBoundary s = .next a.unitsBoundary.countFree.scriptAge.scriptSlice.reeveWake) ∧
     (s.running = true → s.tripped = true → exec .boutBoundary s = .next a.scriptAge.scriptSlice.reeveWake) ∧
     ((s.isRoot = false ∨ s.regF rBTCTL 3 2 = 2) → idle (.boutrefEdge dev)) ∧
     (s.running = true → s.isRoot = true → s.regF rBTCTL 3 2 ≠ 2 →
       (100 * dev.natAbs ≤ s.period → exec (.boutrefEdge dev) s = exec .boutBoundary s) ∧
       (s.period < 100 * dev.natAbs → ∃ z, exec (.boutrefEdge dev) s = .next z ∧ keep z ∧
         z.regF rBTSTEP 31 0 = (s.regF rBTSTEP 31 0 + 1) % 2 ^ 32 ∧ ∀ j, j ≠ rBTSTEP → z.reg j = s.reg j)) ∧
     ((s.countFree.core c).freeBouts = if s.allFree c then min 256 ((s.core c).freeBouts + 1) else 0)) ∧
    (s.pending = [] → step s = .next (Machine.idle s) ∧ (s.running = false → Machine.idle s = s) ∧
      (s.running = true → s.tripped = true → Machine.idle s = ({ s with cycle := s.cycle + 1 } : State).serveInbox.reeveWake) ∧
      (s.running = true → s.tripped = false → Machine.idle s =
        ((List.range 96).foldl (fun z n => z.tickCore n) ({ s with cycle := s.cycle + 1 } : State)).tickPairs.resume) ∧
      (s.tickPairs = if s.cycle % 256 = 0 then (List.range 48).foldl (fun z n => z.yokeTick n) s else s)) ∧
    ((s.bank c b).btmr ≠ 0 → (s.bank c b).btmr ≠ 1 →
      ((s.tickTimer c b).bank c b).btmr = (s.bank c b).btmr - 1 ∧ (s.tickTimer c b).mem = s.mem) ∧
    ((s.bank c b).btmr = 0 → s.tickTimer c b = s) ∧ ((s.bank c b).btmr = 1 → s.tickTimer c b = s.btmrExpire c b) ∧
    (let t := s.cycleAccount c
     (Tbl.get {} (s.countCycle c).act t).c = (Tbl.get {} s.act t).c + 1 ∧ (Tbl.get {} (s.countCycle c).act t).w = (Tbl.get {} s.act t).w ∧
     ((s.core c).frozen = false → s.pairMode (c.val / 2) = 0 → (s.core c).run = none → t = 65) ∧
     ((s.core c).frozen = false → s.pairMode (c.val / 2) = 0 → (s.core c).run = some b →
       t = if bit (s.bank c b).tenant 7 then bits (s.bank c b).tenant 5 0 else 64))

/-- R336, R337, R341: the line of a link. The parity of four flits' bytes; the Gray coded levels and their amplitudes;
the scrambler's next bit; and what the four lanes carry of a flit: byte i on logical lane i mod 4, its four symbols
with the most significant bit pair first, the parity behind the fourth flit of a codeword. -/
def Obligations.LineCode : Prop :=
  ∀ (s : State) (l : Fin 6) (msg bs : List Byte) (pre : Bool) (r : LaneTx) (x : BitVec 2) (y : Byte) (i k : Nat),
    (msg.length = 160 → (rsEncode msg).length = 164 ∧ (rsEncode msg).take 160 = msg ∧
      rsSyndromes (rsEncode msg) = (0, 0, 0, 0) ∧ rsDecode (rsEncode msg) = some (rsEncode msg)) ∧
    (∀ cw, rsDecode cw = some bs → rsSyndromes bs = (0, 0, 0, 0) ∧ bs.length = cw.length ∧
      ∃ m n d e, fixByte (fixByte cw m d) n e = bs) ∧
    ([0, 1, 3, 2].map grayLevel = ([0, 1, 2, 3] : List (BitVec 2)) ∧
      [0, 1, 2, 3].map amplitude = ([-3, -1, 1, 3] : List Int)) ∧
    (byteSymbols y = [y.extractLsb' 6 2, y.extractLsb' 4 2, y.extractLsb' 2 2, y.extractLsb' 0 2]) ∧
    ((scramStep r.scram).1 = (r.scram.getLsbD 30 ^^ r.scram.getLsbD 27) ∧
      (scramStep r.scram).2 = (r.scram <<< 1) + (if (scramStep r.scram).1 then 1 else 0)) ∧
    (let z := scramSymbol r.scram x
     (laneSymbol pre r x).2.scram = z.2 ∧ (laneSymbol pre r x).1 = amplitude (laneSymbol pre r x).2.last ∧
     (pre = false → (laneSymbol pre r x).2.last = grayLevel z.1) ∧
     (pre = true → (laneSymbol pre r x).2.last + r.last = grayLevel z.1)) ∧
    (i < 4 → k < bs.length / 4 → (laneBytes bs i).length = bs.length / 4 ∧ (laneBytes bs i).getD k 0 = bs.getD (4 * k + i) 0) ∧
    (let q := s.link l
     let on := bit (s.reg (linkBase l + 8)) 8
     let send := if 160 ≤ (q.txCw ++ bs).length then bs ++ rsParity (q.txCw ++ bs) else bs
     let z := (s.lineOut l bs).link l
     (z.txCw = if 160 ≤ (q.txCw ++ bs).length then [] else q.txCw ++ bs) ∧
     (i < 4 → z.line.getD i [] = (laneSend on (Tbl.get {} q.txLanes i) (laneBytes send i)).1 ∧
       (z.line.getD i []).length = 4 * (send.length / 4) ∧
       Tbl.get {} z.txLanes i = (laneSend on (Tbl.get {} q.txLanes i) (laneBytes send i)).2) ∧
     { z with txCw := q.txCw, line := q.line, txLanes := q.txLanes } = q)

/-- R341: the receiver corrects every codeword with one or two wrong bytes. -/
def Obligations.ErrorCorrection : Prop :=
  ∀ (msg : List Byte) (i j : Nat) (d e : Byte), msg.length = 160 → i < 164 → j < 164 →
    rsDecode (fixByte (fixByte (rsEncode msg) i d) j e) = some (rsEncode msg)

/-- R68, R70, R71: an instruction word names one command of a core and the command has that word, every field kept; a
word of a reserved major or an unassigned func names none; and the command is issued with its word. -/
def Obligations.InstructionWords : Prop :=
  ∀ (i : Instr) (s : State) (c : Fin 96) (w : Nat),
    (encodeInsn i = some (c, w) → w < 2 ^ 32 ∧ decodeInsn c w = some i ∧ ∃ r body, exec i s = runInstr s c ⟨w, r⟩ body) ∧
    (decodeInsn c w = some i → encodeInsn i = some (c, w % 2 ^ 32)) ∧
    (decodeInsn c w = none ↔ (assignedFuncs (keyOf w / 16)).contains (keyOf w % 16) = false ∧
      (keyOf w / 16 < 0x38 ∨ 0x3B < keyOf w / 16))

/-- R45: the storage behind DRAM and bin memory keeps its one form through every step: addresses strictly rising, no
byte and no tag equal to what an unlisted address reads as. From every state that has the form, a command at the front
of the queue or a cycle without one leaves a state that has it. -/
def Obligations.MemoryKeepsItsForm : Prop :=
  ∀ s t : State, s.mem.wf = true → step s = .next t → t.mem.wf = true

/-- The commands are taken first in, first out, one by each step: what is left waiting is the queue without its front,
and a cycle with no command leaves the queue empty. No command puts a command into the queue. The queue is the model's
own (log entry 1). -/
def Obligations.EveryStepTakesOneCommand : Prop :=
  ∀ s t : State, step s = .next t → t.pending = s.pending.drop 1
end

