-- ==== Sys2Proof/Laws/Exec.lean ====
section
/-! SUPPORT. The meaning of each command, by name: one equation per arm of exec. -/

namespace Sys2Proof.Laws

open Sys2Proof.Machine

@[simp] theorem exec_addF (c : Fin 96) (f : AForm) (s : State) : exec (.addF c f) s = execAddF c f s := rfl
@[simp] theorem exec_subF (c : Fin 96) (f : AForm) (s : State) : exec (.subF c f) s = execSubF c f s := rfl
@[simp] theorem exec_addR (c : Fin 96) (f : AForm) (s : State) : exec (.addR c f) s = execAddR c f s := rfl
@[simp] theorem exec_subR (c : Fin 96) (f : AForm) (s : State) : exec (.subR c f) s = execSubR c f s := rfl
@[simp] theorem exec_and (c : Fin 96) (f : AForm) (s : State) : exec (.and c f) s = execAnd c f s := rfl
@[simp] theorem exec_or (c : Fin 96) (f : AForm) (s : State) : exec (.or c f) s = execOr c f s := rfl
@[simp] theorem exec_xor (c : Fin 96) (f : AForm) (s : State) : exec (.xor c f) s = execXor c f s := rfl
@[simp] theorem exec_andn (c : Fin 96) (f : AForm) (s : State) : exec (.andn c f) s = execAndn c f s := rfl
@[simp] theorem exec_sll (c : Fin 96) (f : AForm) (s : State) : exec (.sll c f) s = execSll c f s := rfl
@[simp] theorem exec_srl (c : Fin 96) (f : AForm) (s : State) : exec (.srl c f) s = execSrl c f s := rfl
@[simp] theorem exec_sra (c : Fin 96) (f : AForm) (s : State) : exec (.sra c f) s = execSra c f s := rfl
@[simp] theorem exec_addFl (c : Fin 96) (f : TForm) (s : State) : exec (.addFl c f) s = execAddFl c f s := rfl
@[simp] theorem exec_subFl (c : Fin 96) (f : TForm) (s : State) : exec (.subFl c f) s = execSubFl c f s := rfl
@[simp] theorem exec_mulFl (c : Fin 96) (f : TForm) (s : State) : exec (.mulFl c f) s = execMulFl c f s := rfl
@[simp] theorem exec_divFl (c : Fin 96) (f : TForm) (s : State) : exec (.divFl c f) s = execDivFl c f s := rfl
@[simp] theorem exec_sqrtFl (c : Fin 96) (f : TForm) (s : State) : exec (.sqrtFl c f) s = execSqrtFl c f s := rfl
@[simp] theorem exec_negFl (c : Fin 96) (f : TForm) (s : State) : exec (.negFl c f) s = execNegFl c f s := rfl
@[simp] theorem exec_absFl (c : Fin 96) (f : TForm) (s : State) : exec (.absFl c f) s = execAbsFl c f s := rfl
@[simp] theorem exec_cvtFl (c : Fin 96) (f : TForm) (s : State) : exec (.cvtFl c f) s = execCvtFl c f s := rfl
@[simp] theorem exec_cvtFx (c : Fin 96) (f : TForm) (s : State) : exec (.cvtFx c f) s = execCvtFx c f s := rfl
@[simp] theorem exec_cmpEq (c : Fin 96) (f : AForm) (s : State) : exec (.cmpEq c f) s = execCmpEq c f s := rfl
@[simp] theorem exec_cmpNe (c : Fin 96) (f : AForm) (s : State) : exec (.cmpNe c f) s = execCmpNe c f s := rfl
@[simp] theorem exec_cmpLt (c : Fin 96) (f : AForm) (s : State) : exec (.cmpLt c f) s = execCmpLt c f s := rfl
@[simp] theorem exec_cmpLe (c : Fin 96) (f : AForm) (s : State) : exec (.cmpLe c f) s = execCmpLe c f s := rfl
@[simp] theorem exec_cmpLtu (c : Fin 96) (f : AForm) (s : State) : exec (.cmpLtu c f) s = execCmpLtu c f s := rfl
@[simp] theorem exec_cmpLeu (c : Fin 96) (f : AForm) (s : State) : exec (.cmpLeu c f) s = execCmpLeu c f s := rfl
@[simp] theorem exec_cmpTy (c : Fin 96) (f : IForm) (s : State) : exec (.cmpTy c f) s = execCmpTy c f s := rfl
@[simp] theorem exec_cmpFeq (c : Fin 96) (f : TForm) (s : State) : exec (.cmpFeq c f) s = execCmpFeq c f s := rfl
@[simp] theorem exec_cmpFlt (c : Fin 96) (f : TForm) (s : State) : exec (.cmpFlt c f) s = execCmpFlt c f s := rfl
@[simp] theorem exec_cmpFle (c : Fin 96) (f : TForm) (s : State) : exec (.cmpFle c f) s = execCmpFle c f s := rfl
@[simp] theorem exec_cmpFun (c : Fin 96) (f : TForm) (s : State) : exec (.cmpFun c f) s = execCmpFun c f s := rfl
@[simp] theorem exec_ba (c : Fin 96) (f : BForm) (s : State) : exec (.ba c f) s = execBa c f s := rfl
@[simp] theorem exec_bnil (c : Fin 96) (f : BForm) (s : State) : exec (.bnil c f) s = execBnil c f s := rfl
@[simp] theorem exec_bnn (c : Fin 96) (f : BForm) (s : State) : exec (.bnn c f) s = execBnn c f s := rfl
@[simp] theorem exec_bz (c : Fin 96) (f : BForm) (s : State) : exec (.bz c f) s = execBz c f s := rfl
@[simp] theorem exec_bnz (c : Fin 96) (f : BForm) (s : State) : exec (.bnz c f) s = execBnz c f s := rfl
@[simp] theorem exec_bltz (c : Fin 96) (f : BForm) (s : State) : exec (.bltz c f) s = execBltz c f s := rfl
@[simp] theorem exec_bgez (c : Fin 96) (f : BForm) (s : State) : exec (.bgez c f) s = execBgez c f s := rfl
@[simp] theorem exec_mov (c : Fin 96) (f : TForm) (s : State) : exec (.mov c f) s = execMov c f s := rfl
@[simp] theorem exec_settagR (c : Fin 96) (f : TForm) (s : State) : exec (.settagR c f) s = execSettagR c f s := rfl
@[simp] theorem exec_tagof (c : Fin 96) (f : TForm) (s : State) : exec (.tagof c f) s = execTagof c f s := rfl
@[simp] theorem exec_movi (c : Fin 96) (f : IForm) (s : State) : exec (.movi c f) s = execMovi c f s := rfl
@[simp] theorem exec_settag (c : Fin 96) (f : IForm) (s : State) : exec (.settag c f) s = execSettag c f s := rfl
@[simp] theorem exec_mulS (c : Fin 96) (f : TForm) (s : State) : exec (.mulS c f) s = execMulS c f s := rfl
@[simp] theorem exec_mulU (c : Fin 96) (f : TForm) (s : State) : exec (.mulU c f) s = execMulU c f s := rfl
@[simp] theorem exec_divS (c : Fin 96) (f : TForm) (s : State) : exec (.divS c f) s = execDivS c f s := rfl
@[simp] theorem exec_divU (c : Fin 96) (f : TForm) (s : State) : exec (.divU c f) s = execDivU c f s := rfl
@[simp] theorem exec_muldivResultWrite (c : Fin 96) (b : Fin 4) (s : State) : exec (.muldivResultWrite c b) s = execMuldivResultWrite c b s := rfl
@[simp] theorem exec_ldW (c : Fin 96) (f : MForm) (s : State) : exec (.ldW c f) s = execLdW c f s := rfl
@[simp] theorem exec_ldB (c : Fin 96) (f : MForm) (s : State) : exec (.ldB c f) s = execLdB c f s := rfl
@[simp] theorem exec_ldBu (c : Fin 96) (f : MForm) (s : State) : exec (.ldBu c f) s = execLdBu c f s := rfl
@[simp] theorem exec_ldH (c : Fin 96) (f : MForm) (s : State) : exec (.ldH c f) s = execLdH c f s := rfl
@[simp] theorem exec_ldHu (c : Fin 96) (f : MForm) (s : State) : exec (.ldHu c f) s = execLdHu c f s := rfl
@[simp] theorem exec_ldS (c : Fin 96) (f : MForm) (s : State) : exec (.ldS c f) s = execLdS c f s := rfl
@[simp] theorem exec_ldSu (c : Fin 96) (f : MForm) (s : State) : exec (.ldSu c f) s = execLdSu c f s := rfl
@[simp] theorem exec_stW (c : Fin 96) (f : MForm) (s : State) : exec (.stW c f) s = execStW c f s := rfl
@[simp] theorem exec_stB (c : Fin 96) (f : MForm) (s : State) : exec (.stB c f) s = execStB c f s := rfl
@[simp] theorem exec_stH (c : Fin 96) (f : MForm) (s : State) : exec (.stH c f) s = execStH c f s := rfl
@[simp] theorem exec_stS (c : Fin 96) (f : MForm) (s : State) : exec (.stS c f) s = execStS c f s := rfl
@[simp] theorem exec_stm (c : Fin 96) (f : MForm) (s : State) : exec (.stm c f) s = execStm c f s := rfl
@[simp] theorem exec_ldm (c : Fin 96) (f : MForm) (s : State) : exec (.ldm c f) s = execLdm c f s := rfl
@[simp] theorem exec_pref (c : Fin 96) (f : MForm) (s : State) : exec (.pref c f) s = execPref c f s := rfl
@[simp] theorem exec_ldrv (c : Fin 96) (f : MForm) (s : State) : exec (.ldrv c f) s = execLdrv c f s := rfl
@[simp] theorem exec_stcn (c : Fin 96) (f : TForm) (s : State) : exec (.stcn c f) s = execStcn c f s := rfl
@[simp] theorem exec_cas (c : Fin 96) (f : TForm) (s : State) : exec (.cas c f) s = execCas c f s := rfl
@[simp] theorem exec_swap (c : Fin 96) (f : TForm) (s : State) : exec (.swap c f) s = execSwap c f s := rfl
@[simp] theorem exec_fadd (c : Fin 96) (f : TForm) (s : State) : exec (.fadd c f) s = execFadd c f s := rfl
@[simp] theorem exec_reservationTimeout (c : Fin 96) (b : Fin 4) (s : State) : exec (.reservationTimeout c b) s = execReservationTimeout c b s := rfl
@[simp] theorem exec_call (c : Fin 96) (f : BForm) (s : State) : exec (.call c f) s = execCall c f s := rfl
@[simp] theorem exec_jmpl (c : Fin 96) (f : TForm) (s : State) : exec (.jmpl c f) s = execJmpl c f s := rfl
@[simp] theorem exec_ret (c : Fin 96) (f : TForm) (s : State) : exec (.ret c f) s = execRet c f s := rfl
@[simp] theorem exec_callg (c : Fin 96) (f : TForm) (s : State) : exec (.callg c f) s = execCallg c f s := rfl
@[simp] theorem exec_retg (c : Fin 96) (f : TForm) (s : State) : exec (.retg c f) s = execRetg c f s := rfl
@[simp] theorem exec_rfe (c : Fin 96) (f : TForm) (s : State) : exec (.rfe c f) s = execRfe c f s := rfl
@[simp] theorem exec_escret (c : Fin 96) (f : TForm) (s : State) : exec (.escret c f) s = execEscret c f s := rfl
@[simp] theorem exec_save (c : Fin 96) (f : IForm) (s : State) : exec (.save c f) s = execSave c f s := rfl
@[simp] theorem exec_restore (c : Fin 96) (f : IForm) (s : State) : exec (.restore c f) s = execRestore c f s := rfl
@[simp] theorem exec_mfs (c : Fin 96) (f : IForm) (s : State) : exec (.mfs c f) s = execMfs c f s := rfl
@[simp] theorem exec_mts (c : Fin 96) (f : IForm) (s : State) : exec (.mts c f) s = execMts c f s := rfl
@[simp] theorem exec_mfb (c : Fin 96) (f : IForm) (s : State) : exec (.mfb c f) s = execMfb c f s := rfl
@[simp] theorem exec_mtb (c : Fin 96) (f : IForm) (s : State) : exec (.mtb c f) s = execMtb c f s := rfl
@[simp] theorem exec_barCO (c : Fin 96) (f : TForm) (s : State) : exec (.barCO c f) s = execBarCO c f s := rfl
@[simp] theorem exec_barCE (c : Fin 96) (f : TForm) (s : State) : exec (.barCE c f) s = execBarCE c f s := rfl
@[simp] theorem exec_barKO (c : Fin 96) (f : TForm) (s : State) : exec (.barKO c f) s = execBarKO c f s := rfl
@[simp] theorem exec_barKE (c : Fin 96) (f : TForm) (s : State) : exec (.barKE c f) s = execBarKE c f s := rfl
@[simp] theorem exec_barDO (c : Fin 96) (f : TForm) (s : State) : exec (.barDO c f) s = execBarDO c f s := rfl
@[simp] theorem exec_barDE (c : Fin 96) (f : TForm) (s : State) : exec (.barDE c f) s = execBarDE c f s := rfl
@[simp] theorem exec_barSO (c : Fin 96) (f : TForm) (s : State) : exec (.barSO c f) s = execBarSO c f s := rfl
@[simp] theorem exec_barSE (c : Fin 96) (f : TForm) (s : State) : exec (.barSE c f) s = execBarSE c f s := rfl
@[simp] theorem exec_barrierRelease (c : Fin 96) (b : Fin 4) (s : State) : exec (.barrierRelease c b) s = execBarrierRelease c b s := rfl
@[simp] theorem exec_cwbA (c : Fin 96) (f : TForm) (s : State) : exec (.cwbA c f) s = execCwbA c f s := rfl
@[simp] theorem exec_cinvA (c : Fin 96) (f : TForm) (s : State) : exec (.cinvA c f) s = execCinvA c f s := rfl
@[simp] theorem exec_clockA (c : Fin 96) (f : TForm) (s : State) : exec (.clockA c f) s = execClockA c f s := rfl
@[simp] theorem exec_cunlkA (c : Fin 96) (f : TForm) (s : State) : exec (.cunlkA c f) s = execCunlkA c f s := rfl
@[simp] theorem exec_tlbinvAll (c : Fin 96) (f : TForm) (s : State) : exec (.tlbinvAll c f) s = execTlbinvAll c f s := rfl
@[simp] theorem exec_tlbinvAsid (c : Fin 96) (f : TForm) (s : State) : exec (.tlbinvAsid c f) s = execTlbinvAsid c f s := rfl
@[simp] theorem exec_tlbinvVa (c : Fin 96) (f : TForm) (s : State) : exec (.tlbinvVa c f) s = execTlbinvVa c f s := rfl
@[simp] theorem exec_tlblock (c : Fin 96) (f : TForm) (s : State) : exec (.tlblock c f) s = execTlblock c f s := rfl
@[simp] theorem exec_tlbunlk (c : Fin 96) (f : TForm) (s : State) : exec (.tlbunlk c f) s = execTlbunlk c f s := rfl
@[simp] theorem exec_tlbinvReceive (a : Fin 108) (id : Nat) (s : State) : exec (.tlbinvReceive a id) s = execTlbinvReceive a id s := rfl
@[simp] theorem exec_tlbinvAcknowledged (id : Nat) (s : State) : exec (.tlbinvAcknowledged id) s = execTlbinvAcknowledged id s := rfl
@[simp] theorem exec_bsend (c : Fin 96) (f : TForm) (s : State) : exec (.bsend c f) s = execBsend c f s := rfl
@[simp] theorem exec_brecv (c : Fin 96) (f : TForm) (s : State) : exec (.brecv c f) s = execBrecv c f s := rfl
@[simp] theorem exec_bpeek (c : Fin 96) (f : TForm) (s : State) : exec (.bpeek c f) s = execBpeek c f s := rfl
@[simp] theorem exec_bcred (c : Fin 96) (f : TForm) (s : State) : exec (.bcred c f) s = execBcred c f s := rfl
@[simp] theorem exec_yokeOn (c : Fin 96) (f : TForm) (s : State) : exec (.yokeOn c f) s = execYokeOn c f s := rfl
@[simp] theorem exec_yokeOff (c : Fin 96) (f : TForm) (s : State) : exec (.yokeOff c f) s = execYokeOff c f s := rfl
@[simp] theorem exec_waite (c : Fin 96) (f : IForm) (s : State) : exec (.waite c f) s = execWaite c f s := rfl
@[simp] theorem exec_async (c : Fin 96) (f : TForm) (s : State) : exec (.async c f) s = execAsync c f s := rfl
@[simp] theorem exec_dispatchsync (c : Fin 96) (f : TForm) (s : State) : exec (.dispatchsync c f) s = execDispatchsync c f s := rfl
@[simp] theorem exec_plotsync (c : Fin 96) (f : TForm) (s : State) : exec (.plotsync c f) s = execPlotsync c f s := rfl
@[simp] theorem exec_wcs (c : Fin 96) (f : TForm) (s : State) : exec (.wcs c f) s = execWcs c f s := rfl
@[simp] theorem exec_saveh (c : Fin 96) (f : MForm) (s : State) : exec (.saveh c f) s = execSaveh c f s := rfl
@[simp] theorem exec_loadh (c : Fin 96) (f : MForm) (s : State) : exec (.loadh c f) s = execLoadh c f s := rfl
@[simp] theorem exec_addG (c : Fin 96) (f : TForm) (s : State) : exec (.addG c f) s = execAddG c f s := rfl
@[simp] theorem exec_subG (c : Fin 96) (f : TForm) (s : State) : exec (.subG c f) s = execSubG c f s := rfl
@[simp] theorem exec_mulG (c : Fin 96) (f : TForm) (s : State) : exec (.mulG c f) s = execMulG c f s := rfl
@[simp] theorem exec_divG (c : Fin 96) (f : TForm) (s : State) : exec (.divG c f) s = execDivG c f s := rfl
@[simp] theorem exec_quoG (c : Fin 96) (f : TForm) (s : State) : exec (.quoG c f) s = execQuoG c f s := rfl
@[simp] theorem exec_remG (c : Fin 96) (f : TForm) (s : State) : exec (.remG c f) s = execRemG c f s := rfl
@[simp] theorem exec_negG (c : Fin 96) (f : TForm) (s : State) : exec (.negG c f) s = execNegG c f s := rfl
@[simp] theorem exec_absG (c : Fin 96) (f : TForm) (s : State) : exec (.absG c f) s = execAbsG c f s := rfl
@[simp] theorem exec_addiG (c : Fin 96) (f : TForm) (s : State) : exec (.addiG c f) s = execAddiG c f s := rfl
@[simp] theorem exec_floatG (c : Fin 96) (f : TForm) (s : State) : exec (.floatG c f) s = execFloatG c f s := rfl
@[simp] theorem exec_truncG (c : Fin 96) (f : TForm) (s : State) : exec (.truncG c f) s = execTruncG c f s := rfl
@[simp] theorem exec_zeropG (c : Fin 96) (f : TForm) (s : State) : exec (.zeropG c f) s = execZeropG c f s := rfl
@[simp] theorem exec_numpG (c : Fin 96) (f : TForm) (s : State) : exec (.numpG c f) s = execNumpG c f s := rfl
@[simp] theorem exec_cmpGEq (c : Fin 96) (f : TForm) (s : State) : exec (.cmpGEq c f) s = execCmpGEq c f s := rfl
@[simp] theorem exec_cmpGLt (c : Fin 96) (f : TForm) (s : State) : exec (.cmpGLt c f) s = execCmpGLt c f s := rfl
@[simp] theorem exec_cmpGLe (c : Fin 96) (f : TForm) (s : State) : exec (.cmpGLe c f) s = execCmpGLe c f s := rfl
@[simp] theorem exec_cmpGEql (c : Fin 96) (f : TForm) (s : State) : exec (.cmpGEql c f) s = execCmpGEql c f s := rfl
@[simp] theorem exec_escrd (c : Fin 96) (f : TForm) (s : State) : exec (.escrd c f) s = execEscrd c f s := rfl
@[simp] theorem exec_escwr (c : Fin 96) (f : TForm) (s : State) : exec (.escwr c f) s = execEscwr c f s := rfl
@[simp] theorem exec_car (c : Fin 96) (f : TForm) (s : State) : exec (.car c f) s = execCar c f s := rfl
@[simp] theorem exec_cdr (c : Fin 96) (f : TForm) (s : State) : exec (.cdr c f) s = execCdr c f s := rfl
@[simp] theorem exec_setcar (c : Fin 96) (f : TForm) (s : State) : exec (.setcar c f) s = execSetcar c f s := rfl
@[simp] theorem exec_setcdr (c : Fin 96) (f : TForm) (s : State) : exec (.setcdr c f) s = execSetcdr c f s := rfl
@[simp] theorem exec_cons (c : Fin 96) (f : TForm) (s : State) : exec (.cons c f) s = execCons c f s := rfl
@[simp] theorem exec_alloc (c : Fin 96) (f : TForm) (s : State) : exec (.alloc c f) s = execAlloc c f s := rfl
@[simp] theorem exec_allocI (c : Fin 96) (f : IForm) (s : State) : exec (.allocI c f) s = execAllocI c f s := rfl
@[simp] theorem exec_vref (c : Fin 96) (f : TForm) (s : State) : exec (.vref c f) s = execVref c f s := rfl
@[simp] theorem exec_vset (c : Fin 96) (f : TForm) (s : State) : exec (.vset c f) s = execVset c f s := rfl
@[simp] theorem exec_vlen (c : Fin 96) (f : TForm) (s : State) : exec (.vlen c f) s = execVlen c f s := rfl
@[simp] theorem exec_assq (c : Fin 96) (f : TForm) (s : State) : exec (.assq c f) s = execAssq c f s := rfl
@[simp] theorem exec_memq (c : Fin 96) (f : TForm) (s : State) : exec (.memq c f) s = execMemq c f s := rfl
@[simp] theorem exec_nthcdr (c : Fin 96) (f : TForm) (s : State) : exec (.nthcdr c f) s = execNthcdr c f s := rfl
@[simp] theorem exec_len (c : Fin 96) (f : TForm) (s : State) : exec (.len c f) s = execLen c f s := rfl
@[simp] theorem exec_copyw (c : Fin 96) (f : TForm) (s : State) : exec (.copyw c f) s = execCopyw c f s := rfl
@[simp] theorem exec_scant (c : Fin 96) (f : TForm) (s : State) : exec (.scant c f) s = execScant c f s := rfl
@[simp] theorem exec_allotmentInstruction (c : Fin 96) (m : Fin 4) (fn : BitVec 4) (f : TForm) (s : State) : exec (.allotmentInstruction c m fn f) s = execAllotmentInstruction c m fn f s := rfl
@[simp] theorem exec_csParityRepair (k : Fin 108) (st : CsStore) (adr : BitVec 14) (w : Fin 2) (c : Fin 96) (s : State) : exec (.csParityRepair k st adr w c) s = execCsParityRepair k st adr w c s := rfl
@[simp] theorem exec_csBoundExceeded (c : Fin 96) (s : State) : exec (.csBoundExceeded c) s = execCsBoundExceeded c s := rfl
@[simp] theorem exec_trapEntry (c : Fin 96) (s : State) : exec (.trapEntry c) s = execTrapEntry c s := rfl
@[simp] theorem exec_impreciseExceptionDue (c : Fin 96) (s : State) : exec (.impreciseExceptionDue c) s = execImpreciseExceptionDue c s := rfl
@[simp] theorem exec_harrowDecision (c : Fin 96) (s : State) : exec (.harrowDecision c) s = execHarrowDecision c s := rfl
@[simp] theorem exec_quantumExpiry (c : Fin 96) (s : State) : exec (.quantumExpiry c) s = execQuantumExpiry c s := rfl
@[simp] theorem exec_btmrExpiry (c : Fin 96) (b : Fin 4) (s : State) : exec (.btmrExpiry c b) s = execBtmrExpiry c b s := rfl
@[simp] theorem exec_stcmpMatch (c : Fin 96) (w : Fin 2) (s : State) : exec (.stcmpMatch c w) s = execStcmpMatch c w s := rfl
@[simp] theorem exec_bankStart (r : RegSrc) (c : Fin 96) (b : Fin 4) (s : State) : exec (.bankStart r c b) s = execBankStart r c b s := rfl
@[simp] theorem exec_bankPark (r : RegSrc) (c : Fin 96) (b : Fin 4) (s : State) : exec (.bankPark r c b) s = execBankPark r c b s := rfl
@[simp] theorem exec_bankUnpark (r : RegSrc) (c : Fin 96) (b : Fin 4) (s : State) : exec (.bankUnpark r c b) s = execBankUnpark r c b s := rfl
@[simp] theorem exec_bankRelease (r : RegSrc) (c : Fin 96) (b : Fin 4) (s : State) : exec (.bankRelease r c b) s = execBankRelease r c b s := rfl
@[simp] theorem exec_bpcWrite (r : RegSrc) (c : Fin 96) (b : Fin 4) (v : Val) (s : State) : exec (.bpcWrite r c b v) s = execBpcWrite r c b v s := rfl
@[simp] theorem exec_icsigWrite (r : RegSrc) (c : Fin 96) (w : Fin 2) (v : Val) (s : State) : exec (.icsigWrite r c w v) s = execIcsigWrite r c w v s := rfl
@[simp] theorem exec_dbellWrite (r : RegSrc) (c : Fin 96) (w : Fin 2) (v : Val) (s : State) : exec (.dbellWrite r c w v) s = execDbellWrite r c w v s := rfl
@[simp] theorem exec_corePowerGate (c : Fin 96) (s : State) : exec (.corePowerGate c) s = execCorePowerGate c s := rfl
@[simp] theorem exec_corePowerRestore (c : Fin 96) (s : State) : exec (.corePowerRestore c) s = execCorePowerRestore c s := rfl
@[simp] theorem exec_storePerform (c : Fin 96) (s : State) : exec (.storePerform c) s = execStorePerform c s := rfl
@[simp] theorem exec_rspopRead (c : Fin 96) (b : Fin 4) (s : State) : exec (.rspopRead c b) s = execRspopRead c b s := rfl
@[simp] theorem exec_winnowerAssist (k : Fin 12) (s : State) : exec (.winnowerAssist k) s = execWinnowerAssist k s := rfl
@[simp] theorem exec_assistReply (c : Fin 96) (b : Fin 4) (s : State) : exec (.assistReply c b) s = execAssistReply c b s := rfl
@[simp] theorem exec_satblogTake (c : Fin 96) (b : Fin 4) (s : State) : exec (.satblogTake c b) s = execSatblogTake c b s := rfl
@[simp] theorem exec_goWrite (r : RegSrc) (w : Fin 2) (v : Val) (s : State) : exec (.goWrite r w v) s = execGoWrite r w v s := rfl
@[simp] theorem exec_abortWrite (r : RegSrc) (w : Fin 2) (v : Val) (s : State) : exec (.abortWrite r w v) s = execAbortWrite r w v s := rfl
@[simp] theorem exec_destqPush (r : RegSrc) (k : Fin 12) (w : Fin 2) (v : Val) (s : State) : exec (.destqPush r k w v) s = execDestqPush r k w v s := rfl
@[simp] theorem exec_wctlEnWrite (r : RegSrc) (k : Fin 12) (v : Val) (s : State) : exec (.wctlEnWrite r k v) s = execWctlEnWrite r k v s := rfl
@[simp] theorem exec_boutBoundary (s : State) : exec (.boutBoundary) s = execBoutBoundary s := rfl
@[simp] theorem exec_registerScan (c : Fin 96) (b : Fin 4) (s : State) : exec (.registerScan c b) s = execRegisterScan c b s := rfl
@[simp] theorem exec_registerFlip (c : Fin 96) (b : Fin 4) (s : State) : exec (.registerFlip c b) s = execRegisterFlip c b s := rfl
@[simp] theorem exec_winnowerMark (k : Fin 12) (w : Fin 2) (s : State) : exec (.winnowerMark k w) s = execWinnowerMark k w s := rfl
@[simp] theorem exec_winnowerCopy (k : Fin 12) (w : Fin 2) (s : State) : exec (.winnowerCopy k w) s = execWinnowerCopy k w s := rfl
@[simp] theorem exec_winnowerFixup (k : Fin 12) (w : Fin 2) (s : State) : exec (.winnowerFixup k w) s = execWinnowerFixup k w s := rfl
@[simp] theorem exec_bitmapClearDone (w : Fin 2) (s : State) : exec (.bitmapClearDone w) s = execBitmapClearDone w s := rfl
@[simp] theorem exec_homeRd (a : Fin 108) (g : BitVec 34) (w : Fin 2) (s : State) : exec (.homeRd a g w) s = execHomeRd a g w s := rfl
@[simp] theorem exec_homeRo (a : Fin 108) (g : BitVec 34) (w : Fin 2) (s : State) : exec (.homeRo a g w) s = execHomeRo a g w s := rfl
@[simp] theorem exec_homeUpg (a : Fin 108) (g : BitVec 34) (w : Fin 2) (s : State) : exec (.homeUpg a g w) s = execHomeUpg a g w s := rfl
@[simp] theorem exec_homeWb (a : Fin 108) (g : BitVec 34) (s : State) : exec (.homeWb a g) s = execHomeWb a g s := rfl
@[simp] theorem exec_homeEvn (a : Fin 108) (g : BitVec 34) (s : State) : exec (.homeEvn a g) s = execHomeEvn a g s := rfl
@[simp] theorem exec_homeCwb (a : Fin 108) (g : BitVec 34) (w : Fin 2) (s : State) : exec (.homeCwb a g w) s = execHomeCwb a g w s := rfl
@[simp] theorem exec_homeCinv (a : Fin 108) (g : BitVec 34) (w : Fin 2) (s : State) : exec (.homeCinv a g w) s = execHomeCinv a g w s := rfl
@[simp] theorem exec_homeUc (a : Fin 108) (g : BitVec 34) (w : Fin 2) (wr : (Option (Fin 8 × Word))) (s : State) : exec (.homeUc a g w wr) s = execHomeUc a g w wr s := rfl
@[simp] theorem exec_homeCmp (a : Fin 108) (g : BitVec 34) (s : State) : exec (.homeCmp a g) s = execHomeCmp a g s := rfl
@[simp] theorem exec_probeAcknowledge (a : Fin 108) (g : BitVec 34) (s : State) : exec (.probeAcknowledge a g) s = execProbeAcknowledge a g s := rfl
@[simp] theorem exec_prd (a : Fin 108) (g : BitVec 34) (s : State) : exec (.prd a g) s = execPrd a g s := rfl
@[simp] theorem exec_pro (a : Fin 108) (g : BitVec 34) (s : State) : exec (.pro a g) s = execPro a g s := rfl
@[simp] theorem exec_pinv (a : Fin 108) (g : BitVec 34) (s : State) : exec (.pinv a g) s = execPinv a g s := rfl
@[simp] theorem exec_pcln (a : Fin 108) (g : BitVec 34) (s : State) : exec (.pcln a g) s = execPcln a g s := rfl
@[simp] theorem exec_fdem (a : Fin 108) (g : BitVec 34) (s : State) : exec (.fdem a g) s = execFdem a g s := rfl
@[simp] theorem exec_agentFill (a : Fin 108) (g : BitVec 34) (s : State) : exec (.agentFill a g) s = execAgentFill a g s := rfl
@[simp] theorem exec_wback (a : Fin 108) (g : BitVec 34) (s : State) : exec (.wback a g) s = execWback a g s := rfl
@[simp] theorem exec_agentEviction (a : Fin 108) (g : BitVec 34) (s : State) : exec (.agentEviction a g) s = execAgentEviction a g s := rfl
@[simp] theorem exec_requestRetry (a : Fin 108) (g : BitVec 34) (s : State) : exec (.requestRetry a g) s = execRequestRetry a g s := rfl
@[simp] theorem exec_directoryRebuild (k : Fin 12) (set : Fin 16384) (s : State) : exec (.directoryRebuild k set) s = execDirectoryRebuild k set s := rfl
@[simp] theorem exec_patrolScrub (ch : Fin 16) (s : State) : exec (.patrolScrub ch) s = execPatrolScrub ch s := rfl
@[simp] theorem exec_yokeTick (p : Fin 48) (s : State) : exec (.yokeTick p) s = execYokeTick p s := rfl
@[simp] theorem exec_clrdbgWrite (r : RegSrc) (p : Fin 48) (v : Val) (s : State) : exec (.clrdbgWrite r p v) s = execClrdbgWrite r p v s := rfl
@[simp] theorem exec_msg (l : Fin 6) (p : Packet) (s : State) : exec (.msg l p) s = execMsg l p s := rfl
@[simp] theorem exec_sourceEntryExpiry (k : Fin 12) (src : SrcKey) (s : State) : exec (.sourceEntryExpiry k src) s = execSourceEntryExpiry k src s := rfl
@[simp] theorem exec_activate (r : RegSrc) (n : Fin 4096) (s : State) : exec (.activate r n) s = execActivate r n s := rfl
@[simp] theorem exec_binDisable (r : RegSrc) (n : Fin 4096) (s : State) : exec (.binDisable r n) s = execBinDisable r n s := rfl
@[simp] theorem exec_binForce (r : RegSrc) (n : Fin 4096) (s : State) : exec (.binForce r n) s = execBinForce r n s := rfl
@[simp] theorem exec_binRelease (r : RegSrc) (n : Fin 4096) (s : State) : exec (.binRelease r n) s = execBinRelease r n s := rfl
@[simp] theorem exec_clear (r : RegSrc) (n : Fin 4096) (s : State) : exec (.clear r n) s = execClear r n s := rfl
@[simp] theorem exec_binDrainComplete (n : Fin 4096) (s : State) : exec (.binDrainComplete n) s = execBinDrainComplete n s := rfl
@[simp] theorem exec_linkEnable (l : Fin 6) (s : State) : exec (.linkEnable l) s = execLinkEnable l s := rfl
@[simp] theorem exec_linkDisable (l : Fin 6) (s : State) : exec (.linkDisable l) s = execLinkDisable l s := rfl
@[simp] theorem exec_linkForce (l : Fin 6) (s : State) : exec (.linkForce l) s = execLinkForce l s := rfl
@[simp] theorem exec_linkRetrain (l : Fin 6) (s : State) : exec (.linkRetrain l) s = execLinkRetrain l s := rfl
@[simp] theorem exec_linkDetect (l : Fin 6) (s : State) : exec (.linkDetect l) s = execLinkDetect l s := rfl
@[simp] theorem exec_trainComplete (l : Fin 6) (pre : Bool) (s : State) : exec (.trainComplete l pre) s = execTrainComplete l pre s := rfl
@[simp] theorem exec_alignComplete (l : Fin 6) (lanes : (List LaneInfo)) (s : State) : exec (.alignComplete l lanes) s = execAlignComplete l lanes s := rfl
@[simp] theorem exec_ctrlParameters (l : Fin 6) (f : Flit) (s : State) : exec (.ctrlParameters l f) s = execCtrlParameters l f s := rfl
@[simp] theorem exec_linkAutoRetry (l : Fin 6) (s : State) : exec (.linkAutoRetry l) s = execLinkAutoRetry l s := rfl
@[simp] theorem exec_laneLockLoss (l : Fin 6) (s : State) : exec (.laneLockLoss l) s = execLaneLockLoss l s := rfl
@[simp] theorem exec_retrainLock (l : Fin 6) (s : State) : exec (.retrainLock l) s = execRetrainLock l s := rfl
@[simp] theorem exec_retrainTimeout (l : Fin 6) (s : State) : exec (.retrainTimeout l) s = execRetrainTimeout l s := rfl
@[simp] theorem exec_sequencedFlitReceive (l : Fin 6) (f rs : List Byte) (s : State) : exec (.sequencedFlitReceive l f rs) s = execSequencedFlitReceive l f rs s := rfl
@[simp] theorem exec_nakr (l : Fin 6) (f : Flit) (s : State) : exec (.nakr l f) s = execNakr l f s := rfl
@[simp] theorem exec_cred (l : Fin 6) (f : Flit) (s : State) : exec (.cred l f) s = execCred l f s := rfl
@[simp] theorem exec_mark (l : Fin 6) (f : Flit) (ta : Nat) (s : State) : exec (.mark l f ta) s = execMark l f ta s := rfl
@[simp] theorem exec_ctrlResume (l : Fin 6) (f : Flit) (s : State) : exec (.ctrlResume l f) s = execCtrlResume l f s := rfl
@[simp] theorem exec_ctrlQuiesce (l : Fin 6) (f : Flit) (s : State) : exec (.ctrlQuiesce l f) s = execCtrlQuiesce l f s := rfl
@[simp] theorem exec_ctrlRetrainRequest (l : Fin 6) (f : Flit) (s : State) : exec (.ctrlRetrainRequest l f) s = execCtrlRetrainRequest l f s := rfl
@[simp] theorem exec_replayTimeout (l : Fin 6) (s : State) : exec (.replayTimeout l) s = execReplayTimeout l s := rfl
@[simp] theorem exec_nakrRepeat (l : Fin 6) (s : State) : exec (.nakrRepeat l) s = execNakrRepeat l s := rfl
@[simp] theorem exec_disableTimeout (l : Fin 6) (s : State) : exec (.disableTimeout l) s = execDisableTimeout l s := rfl
@[simp] theorem exec_rload (l : Fin 6) (p : Packet) (s : State) : exec (.rload l p) s = execRload l p s := rfl
@[simp] theorem exec_rcell (l : Fin 6) (p : Packet) (s : State) : exec (.rcell l p) s = execRcell l p s := rfl
@[simp] theorem exec_rstore (l : Fin 6) (p : Packet) (s : State) : exec (.rstore l p) s = execRstore l p s := rfl
@[simp] theorem exec_rcas (l : Fin 6) (p : Packet) (s : State) : exec (.rcas l p) s = execRcas l p s := rfl
@[simp] theorem exec_rswap (l : Fin 6) (p : Packet) (s : State) : exec (.rswap l p) s = execRswap l p s := rfl
@[simp] theorem exec_rfadd (l : Fin 6) (p : Packet) (s : State) : exec (.rfadd l p) s = execRfadd l p s := rfl
@[simp] theorem exec_lease (l : Fin 6) (p : Packet) (s : State) : exec (.lease l p) s = execLease l p s := rfl
@[simp] theorem exec_rdata (l : Fin 6) (p : Packet) (s : State) : exec (.rdata l p) s = execRdata l p s := rfl
@[simp] theorem exec_rack (l : Fin 6) (p : Packet) (s : State) : exec (.rack l p) s = execRack l p s := rfl
@[simp] theorem exec_rerr (l : Fin 6) (p : Packet) (s : State) : exec (.rerr l p) s = execRerr l p s := rfl
@[simp] theorem exec_bans (l : Fin 6) (p : Packet) (s : State) : exec (.bans l p) s = execBans l p s := rfl
@[simp] theorem exec_fnak (l : Fin 6) (p : Packet) (s : State) : exec (.fnak l p) s = execFnak l p s := rfl
@[simp] theorem exec_disc (l : Fin 6) (p : Packet) (s : State) : exec (.disc l p) s = execDisc l p s := rfl
@[simp] theorem exec_join (l : Fin 6) (p : Packet) (s : State) : exec (.join l p) s = execJoin l p s := rfl
@[simp] theorem exec_assign (l : Fin 6) (p : Packet) (s : State) : exec (.assign l p) s = execAssign l p s := rfl
@[simp] theorem exec_rtupd (l : Fin 6) (p : Packet) (s : State) : exec (.rtupd l p) s = execRtupd l p s := rfl
@[simp] theorem exec_resync (l : Fin 6) (p : Packet) (s : State) : exec (.resync l p) s = execResync l p s := rfl
@[simp] theorem exec_rsack (l : Fin 6) (p : Packet) (s : State) : exec (.rsack l p) s = execRsack l p s := rfl
@[simp] theorem exec_epoch (l : Fin 6) (p : Packet) (s : State) : exec (.epoch l p) s = execEpoch l p s := rfl
@[simp] theorem exec_rcmd (l : Fin 6) (p : Packet) (s : State) : exec (.rcmd l p) s = execRcmd l p s := rfl
@[simp] theorem exec_rrpl (l : Fin 6) (p : Packet) (s : State) : exec (.rrpl l p) s = execRrpl l p s := rfl
@[simp] theorem exec_nboot (l : Fin 6) (p : Packet) (s : State) : exec (.nboot l p) s = execNboot l p s := rfl
@[simp] theorem exec_discPeriodic (s : State) : exec (.discPeriodic) s = execDiscPeriodic s := rfl
@[simp] theorem exec_rootElection (s : State) : exec (.rootElection) s = execRootElection s := rfl
@[simp] theorem exec_joinRefresh (s : State) : exec (.joinRefresh) s = execJoinRefresh s := rfl
@[simp] theorem exec_nodeExpiry (node : BitVec 16) (s : State) : exec (.nodeExpiry node) s = execNodeExpiry node s := rfl
@[simp] theorem exec_joinRecordLapse (l : Fin 6) (s : State) : exec (.joinRecordLapse l) s = execJoinRecordLapse l s := rfl
@[simp] theorem exec_reorderTimeout (node : BitVec 16) (vc : Fin 2) (s : State) : exec (.reorderTimeout node vc) s = execReorderTimeout node vc s := rfl
@[simp] theorem exec_resend (node : BitVec 16) (vc : Fin 2) (oseq : BitVec 16) (s : State) : exec (.resend node vc oseq) s = execResend node vc oseq s := rfl
@[simp] theorem exec_routeCacheExpiry (node : BitVec 16) (s : State) : exec (.routeCacheExpiry node) s = execRouteCacheExpiry node s := rfl
@[simp] theorem exec_flushWrite (r : RegSrc) (v : Val) (s : State) : exec (.flushWrite r v) s = execFlushWrite r v s := rfl
@[simp] theorem exec_boutrefEdge (dev : Int) (s : State) : exec (.boutrefEdge dev) s = execBoutrefEdge dev s := rfl
@[simp] theorem exec_transactionTimeout (ix : Fin 131072) (s : State) : exec (.transactionTimeout ix) s = execTransactionTimeout ix s := rfl
@[simp] theorem exec_expreqWrite (r : RegSrc) (w : Fin 2) (v : Val) (s : State) : exec (.expreqWrite r w v) s = execExpreqWrite r w v s := rfl
@[simp] theorem exec_epochwGo (r : RegSrc) (w : Fin 2) (v : Val) (s : State) : exec (.epochwGo r w v) s = execEpochwGo r w v s := rfl
@[simp] theorem exec_leasePass (w : Fin 2) (s : State) : exec (.leasePass w) s = execLeasePass w s := rfl
@[simp] theorem exec_exportSweep (w : Fin 2) (s : State) : exec (.exportSweep w) s = execExportSweep w s := rfl
@[simp] theorem exec_mbgoWrite (r : RegSrc) (w : Fin 2) (v : Val) (s : State) : exec (.mbgoWrite r w v) s = execMbgoWrite r w v s := rfl
@[simp] theorem exec_mbdoneWrite (r : RegSrc) (w : Fin 2) (v : Val) (s : State) : exec (.mbdoneWrite r w v) s = execMbdoneWrite r w v s := rfl
@[simp] theorem exec_privateWrite (bs : (List Byte)) (s : State) : exec (.privateWrite bs) s = execPrivateWrite bs s := rfl
@[simp] theorem exec_privateRead (s : State) : exec (.privateRead) s = execPrivateRead s := rfl
@[simp] theorem exec_enec (bs : Byte) (s : State) : exec (.enec bs) s = execEnec bs s := rfl
@[simp] theorem exec_disec (bs : Byte) (s : State) : exec (.disec bs) s = execDisec bs s := rfl
@[simp] theorem exec_entas (n : Fin 4) (s : State) : exec (.entas n) s = execEntas n s := rfl
@[simp] theorem exec_rstdaa (s : State) : exec (.rstdaa) s = execRstdaa s := rfl
@[simp] theorem exec_entdaa (t : I3CTarget) (adr : BitVec 7) (s : State) : exec (.entdaa t adr) s = execEntdaa t adr s := rfl
@[simp] theorem exec_setmwl (n : BitVec 16) (s : State) : exec (.setmwl n) s = execSetmwl n s := rfl
@[simp] theorem exec_setmrl (n : BitVec 16) (ibi : BitVec 8) (s : State) : exec (.setmrl n ibi) s = execSetmrl n ibi s := rfl
@[simp] theorem exec_enthdr0 (s : State) : exec (.enthdr0) s = execEnthdr0 s := rfl
@[simp] theorem exec_setaasa (s : State) : exec (.setaasa) s = execSetaasa s := rfl
@[simp] theorem exec_rstact (t : I3CTarget) (df : Byte) (s : State) : exec (.rstact t df) s = execRstact t df s := rfl
@[simp] theorem exec_setdasa (t : I3CTarget) (adr : BitVec 7) (s : State) : exec (.setdasa t adr) s = execSetdasa t adr s := rfl
@[simp] theorem exec_setnewda (t : I3CTarget) (adr : BitVec 7) (s : State) : exec (.setnewda t adr) s = execSetnewda t adr s := rfl
@[simp] theorem exec_getmwl (s : State) : exec (.getmwl) s = execGetmwl s := rfl
@[simp] theorem exec_getmrl (s : State) : exec (.getmrl) s = execGetmrl s := rfl
@[simp] theorem exec_getpid (t : I3CTarget) (s : State) : exec (.getpid t) s = execGetpid t s := rfl
@[simp] theorem exec_getbcr (t : I3CTarget) (s : State) : exec (.getbcr t) s = execGetbcr t s := rfl
@[simp] theorem exec_getdcr (t : I3CTarget) (s : State) : exec (.getdcr t) s = execGetdcr t s := rfl
@[simp] theorem exec_getstatus (t : I3CTarget) (s : State) : exec (.getstatus t) s = execGetstatus t s := rfl
@[simp] theorem exec_getmxds (s : State) : exec (.getmxds) s = execGetmxds s := rfl
@[simp] theorem exec_getcaps (s : State) : exec (.getcaps) s = execGetcaps s := rfl
@[simp] theorem exec_nop (p : Port) (seq : BitVec 16) (s : State) : exec (.nop p seq) s = execNop p seq s := rfl
@[simp] theorem exec_sync (p : Port) (seq : BitVec 16) (s : State) : exec (.sync p seq) s = execSync p seq s := rfl
@[simp] theorem exec_evread (p : Port) (seq : BitVec 16) (frm : BitVec 16) (mx : Byte) (s : State) : exec (.evread p seq frm mx) s = execEvread p seq frm mx s := rfl
@[simp] theorem exec_evack (p : Port) (seq : BitVec 16) (upto : BitVec 16) (s : State) : exec (.evack p seq upto) s = execEvack p seq upto s := rfl
@[simp] theorem exec_evmask (p : Port) (seq : BitVec 16) (mask : BitVec 16) (s : State) : exec (.evmask p seq mask) s = execEvmask p seq mask s := rfl
@[simp] theorem exec_ident (p : Port) (seq : BitVec 16) (s : State) : exec (.ident p seq) s = execIdent p seq s := rfl
@[simp] theorem exec_status (p : Port) (seq : BitVec 16) (s : State) : exec (.status p seq) s = execStatus p seq s := rfl
@[simp] theorem exec_vlogrd (p : Port) (seq : BitVec 16) (frm : Byte) (n : Byte) (s : State) : exec (.vlogrd p seq frm n) s = execVlogrd p seq frm n s := rfl
@[simp] theorem exec_regrd (p : Port) (seq : BitVec 16) (adr : BitVec 32) (n : BitVec 16) (s : State) : exec (.regrd p seq adr n) s = execRegrd p seq adr n s := rfl
@[simp] theorem exec_regwr (p : Port) (seq : BitVec 16) (adr : BitVec 32) (vs : (List Val)) (s : State) : exec (.regwr p seq adr vs) s = execRegwr p seq adr vs s := rfl
@[simp] theorem exec_cfgset (p : Port) (seq : BitVec 16) (key : BitVec 16) (v : Val) (s : State) : exec (.cfgset p seq key v) s = execCfgset p seq key v s := rfl
@[simp] theorem exec_bankwld (p : Port) (seq : BitVec 16) (core : Byte) (bank : Byte) (wld : Byte) (s : State) : exec (.bankwld p seq core bank wld) s = execBankwld p seq core bank wld s := rfl
@[simp] theorem exec_fence (p : Port) (seq : BitVec 16) (space : Byte) (gran : BitVec 16) (owner : Byte) (s : State) : exec (.fence p seq space gran owner) s = execFence p seq space gran owner s := rfl
@[simp] theorem exec_plotown (p : Port) (seq : BitVec 16) (plot : BitVec 16) (own : Byte) (s : State) : exec (.plotown p seq plot own) s = execPlotown p seq plot own s := rfl
@[simp] theorem exec_share (p : Port) (seq : BitVec 16) (sh : Byte) (owner : Byte) (s : State) : exec (.share p seq sh owner) s = execShare p seq sh owner s := rfl
@[simp] theorem exec_linkcls (p : Port) (seq : BitVec 16) (link : Byte) (cls : Byte) (wld : Byte) (up : Byte) (lo : BitVec 16) (hi : BitVec 16) (s : State) : exec (.linkcls p seq link cls wld up lo hi) s = execLinkcls p seq link cls wld up lo hi s := rfl
@[simp] theorem exec_binwld (p : Port) (seq : BitVec 16) (bin : BitVec 16) (wld : Byte) (s : State) : exec (.binwld p seq bin wld) s = execBinwld p seq bin wld s := rfl
@[simp] theorem exec_scrload (p : Port) (seq : BitVec 16) (slot : Byte) (code : (List Byte)) (s : State) : exec (.scrload p seq slot code) s = execScrload p seq slot code s := rfl
@[simp] theorem exec_scrctlStart (p : Port) (seq : BitVec 16) (slot : Byte) (s : State) : exec (.scrctlStart p seq slot) s = execScrctlStart p seq slot s := rfl
@[simp] theorem exec_scrctlStop (p : Port) (seq : BitVec 16) (slot : Byte) (s : State) : exec (.scrctlStop p seq slot) s = execScrctlStop p seq slot s := rfl
@[simp] theorem exec_scrstat (p : Port) (seq : BitVec 16) (slot : Byte) (s : State) : exec (.scrstat p seq slot) s = execScrstat p seq slot s := rfl
@[simp] theorem exec_scriptWaitExpiry (slot : Fin 4) (s : State) : exec (.scriptWaitExpiry slot) s = execScriptWaitExpiry slot s := rfl
@[simp] theorem exec_scriptBudgetFault (slot : Fin 4) (s : State) : exec (.scriptBudgetFault slot) s = execScriptBudgetFault slot s := rfl
@[simp] theorem exec_memrd (p : Port) (seq : BitVec 16) (adr : BitVec 40) (n : Byte) (s : State) : exec (.memrd p seq adr n) s = execMemrd p seq adr n s := rfl
@[simp] theorem exec_memwr (p : Port) (seq : BitVec 16) (adr : BitVec 40) (ws : (List Word)) (s : State) : exec (.memwr p seq adr ws) s = execMemwr p seq adr ws s := rfl
@[simp] theorem exec_memfill (p : Port) (seq : BitVec 16) (adr : BitVec 40) (count : BitVec 32) (w : Word) (s : State) : exec (.memfill p seq adr count w) s = execMemfill p seq adr count w s := rfl
@[simp] theorem exec_aload (p : Port) (seq : BitVec 16) (kind : Byte) (index : BitVec 16) (n : BitVec 16) (vs : (List Val)) (s : State) : exec (.aload p seq kind index n vs) s = execAload p seq kind index n vs s := rfl
@[simp] theorem exec_imgload (p : Port) (seq : BitVec 16) (off : BitVec 32) (bs : (List Byte)) (s : State) : exec (.imgload p seq off bs) s = execImgload p seq off bs s := rfl
@[simp] theorem exec_imgapplyPatch (p : Port) (seq : BitVec 16) (s : State) : exec (.imgapplyPatch p seq) s = execImgapplyPatch p seq s := rfl
@[simp] theorem exec_imgapplyFlash (p : Port) (seq : BitVec 16) (s : State) : exec (.imgapplyFlash p seq) s = execImgapplyFlash p seq s := rfl
@[simp] theorem exec_imgapplyRun (p : Port) (seq : BitVec 16) (s : State) : exec (.imgapplyRun p seq) s = execImgapplyRun p seq s := rfl
@[simp] theorem exec_crelease (p : Port) (seq : BitVec 16) (s : State) : exec (.crelease p seq) s = execCrelease p seq s := rfl
@[simp] theorem exec_bankcmd (p : Port) (seq : BitVec 16) (core : Byte) (bank : Byte) (cmd : Byte) (pc : Val) (s : State) : exec (.bankcmd p seq core bank cmd pc) s = execBankcmd p seq core bank cmd pc s := rfl
@[simp] theorem exec_freeze (p : Port) (seq : BitVec 16) (kind : Byte) (index : BitVec 16) (s : State) : exec (.freeze p seq kind index) s = execFreeze p seq kind index s := rfl
@[simp] theorem exec_thaw (p : Port) (seq : BitVec 16) (kind : Byte) (index : BitVec 16) (s : State) : exec (.thaw p seq kind index) s = execThaw p seq kind index s := rfl
@[simp] theorem exec_reset (p : Port) (seq : BitVec 16) (kind : Byte) (index : BitVec 16) (s : State) : exec (.reset p seq kind index) s = execReset p seq kind index s := rfl
@[simp] theorem exec_warmrst (p : Port) (seq : BitVec 16) (s : State) : exec (.warmrst p seq) s = execWarmrst p seq s := rfl
@[simp] theorem exec_doorbell (p : Port) (seq : BitVec 16) (core : Byte) (wld : Byte) (s : State) : exec (.doorbell p seq core wld) s = execDoorbell p seq core wld s := rfl
@[simp] theorem exec_wnwctl (p : Port) (seq : BitVec 16) (cl : Byte) (en : Byte) (s : State) : exec (.wnwctl p seq cl en) s = execWnwctl p seq cl en s := rfl
@[simp] theorem exec_linkcmd (p : Port) (seq : BitVec 16) (link : Byte) (cmd : Byte) (s : State) : exec (.linkcmd p seq link cmd) s = execLinkcmd p seq link cmd s := rfl
@[simp] theorem exec_routeflush (p : Port) (seq : BitVec 16) (s : State) : exec (.routeflush p seq) s = execRouteflush p seq s := rfl
@[simp] theorem exec_epochall (p : Port) (seq : BitVec 16) (wld : Byte) (s : State) : exec (.epochall p seq wld) s = execEpochall p seq wld s := rfl
@[simp] theorem exec_fabsend (p : Port) (seq : BitVec 16) (node : BitVec 16) (pkt : (List Byte)) (s : State) : exec (.fabsend p seq node pkt) s = execFabsend p seq node pkt s := rfl
@[simp] theorem exec_bincmd (p : Port) (seq : BitVec 16) (bin : BitVec 16) (cmd : Byte) (s : State) : exec (.bincmd p seq bin cmd) s = execBincmd p seq bin cmd s := rfl
@[simp] theorem exec_binstat (p : Port) (seq : BitVec 16) (bin : BitVec 16) (s : State) : exec (.binstat p seq bin) s = execBinstat p seq bin s := rfl
@[simp] theorem exec_binprog (p : Port) (seq : BitVec 16) (engine : Byte) (index : BitVec 16) (ws : (List (BitVec 32))) (s : State) : exec (.binprog p seq engine index ws) s = execBinprog p seq engine index ws s := rfl
@[simp] theorem exec_mtrrd (p : Port) (seq : BitVec 16) (off : BitVec 32) (n : BitVec 16) (s : State) : exec (.mtrrd p seq off n) s = execMtrrd p seq off n s := rfl
@[simp] theorem exec_halt (p : Port) (seq : BitVec 16) (core : Byte) (s : State) : exec (.halt p seq core) s = execHalt p seq core s := rfl
@[simp] theorem exec_resume (p : Port) (seq : BitVec 16) (core : Byte) (s : State) : exec (.resume p seq core) s = execResume p seq core s := rfl
@[simp] theorem exec_step (p : Port) (seq : BitVec 16) (core : Byte) (count : BitVec 16) (flags : Byte) (s : State) : exec (.step p seq core count flags) s = execStep p seq core count flags s := rfl
@[simp] theorem exec_stepComplete (c : Fin 96) (s : State) : exec (.stepComplete c) s = execStepComplete c s := rfl
@[simp] theorem exec_brkset (p : Port) (seq : BitVec 16) (core : Byte) (slot : Byte) (v0 : Val) (v1 : Val) (s : State) : exec (.brkset p seq core slot v0 v1) s = execBrkset p seq core slot v0 v1 s := rfl
@[simp] theorem exec_brkclr (p : Port) (seq : BitVec 16) (core : Byte) (slot : Byte) (s : State) : exec (.brkclr p seq core slot) s = execBrkclr p seq core slot s := rfl
@[simp] theorem exec_staterd (p : Port) (seq : BitVec 16) (core : Byte) (bank : Byte) (sel : Byte) (frm : Byte) (n : Byte) (s : State) : exec (.staterd p seq core bank sel frm n) s = execStaterd p seq core bank sel frm n s := rfl
@[simp] theorem exec_statewr (p : Port) (seq : BitVec 16) (core : Byte) (bank : Byte) (sel : Byte) (frm : Byte) (ws : (List Word)) (s : State) : exec (.statewr p seq core bank sel frm ws) s = execStatewr p seq core bank sel frm ws s := rfl
@[simp] theorem exec_tracerd (p : Port) (seq : BitVec 16) (cl : Byte) (frm : BitVec 16) (n : Byte) (s : State) : exec (.tracerd p seq cl frm n) s = execTracerd p seq cl frm n s := rfl
@[simp] theorem exec_debugHaltTaken (c : Fin 96) (s : State) : exec (.debugHaltTaken c) s = execDebugHaltTaken c s := rfl
@[simp] theorem exec_cmddataUpdate (d : BitVec 10) (s : State) : exec (.cmddataUpdate d) s = execCmddataUpdate d s := rfl
@[simp] theorem exec_cmddataCapture (s : State) : exec (.cmddataCapture) s = execCmddataCapture s := rfl
@[simp] theorem exec_testLogicReset (s : State) : exec (.testLogicReset) s = execTestLogicReset s := rfl
@[simp] theorem exec_counterOverflow (c : Fin 96) (n : Fin 8) (s : State) : exec (.counterOverflow c n) s = execCounterOverflow c n s := rfl
@[simp] theorem exec_hostBar2Write (off : BitVec 36) (bs : (List Byte)) (rid : BitVec 16) (s : State) : exec (.hostBar2Write off bs rid) s = execHostBar2Write off bs rid s := rfl
@[simp] theorem exec_hostBar2Read (off : BitVec 36) (n : Nat) (rid : BitVec 16) (s : State) : exec (.hostBar2Read off n rid) s = execHostBar2Read off n rid s := rfl
@[simp] theorem exec_hostDoorbell (n : Fin 4096) (v : Val) (rid : BitVec 16) (s : State) : exec (.hostDoorbell n v rid) s = execHostDoorbell n v rid s := rfl
@[simp] theorem exec_slotRelease (n : Fin 4096) (v : Val) (s : State) : exec (.slotRelease n v) s = execSlotRelease n v s := rfl
@[simp] theorem exec_hostChannelAnswer (ch : Fin 32) (s : State) : exec (.hostChannelAnswer ch) s = execHostChannelAnswer ch s := rfl
@[simp] theorem exec_functionLevelReset (s : State) : exec (.functionLevelReset) s = execFunctionLevelReset s := rfl
@[simp] theorem exec_perst (s : State) : exec (.perst) s = execPerst s := rfl
@[simp] theorem exec_bushelPowerUp (tamper : Bool) (s : State) : exec (.bushelPowerUp tamper) s = execBushelPowerUp tamper s := rfl
@[simp] theorem exec_converterSample (dt : Nat) (x : BshSample) (s : State) : exec (.converterSample dt x) s = execConverterSample dt x s := rfl
@[simp] theorem exec_countFrameReceive (dt : Nat) (bs : (List Byte)) (s : State) : exec (.countFrameReceive dt bs) s = execCountFrameReceive dt bs s := rfl
@[simp] theorem exec_detClose (dt : Nat) (s : State) : exec (.detClose dt) s = execDetClose dt s := rfl
@[simp] theorem exec_tamperFall (s : State) : exec (.tamperFall) s = execTamperFall s := rfl
@[simp] theorem exec_tamperClear (s : State) : exec (.tamperClear) s = execTamperClear s := rfl
@[simp] theorem exec_stagedParameterWrite (off : BitVec 16) (v : Val) (s : State) : exec (.stagedParameterWrite off v) s = execStagedParameterWrite off v s := rfl
@[simp] theorem exec_program (s : State) : exec (.program) s = execProgram s := rfl
@[simp] theorem exec_arm (s : State) : exec (.arm) s = execArm s := rfl
@[simp] theorem exec_seal (s : State) : exec (.seal) s = execSeal s := rfl
@[simp] theorem exec_bushelPrivateWrite (bs : (List Byte)) (s : State) : exec (.bushelPrivateWrite bs) s = execBushelPrivateWrite bs s := rfl
@[simp] theorem exec_bushelPrivateRead (n : Nat) (s : State) : exec (.bushelPrivateRead n) s = execBushelPrivateRead n s := rfl
@[simp] theorem exec_resetNRise (boot : Fin 4) (ias : Fin 4) (dbg : Bool) (s : State) : exec (.resetNRise boot ias dbg) s = execResetNRise boot ias dbg s := rfl
@[simp] theorem exec_resetNFall (s : State) : exec (.resetNFall) s = execResetNFall s := rfl
@[simp] theorem exec_pwrgoodFall (s : State) : exec (.pwrgoodFall) s = execPwrgoodFall s := rfl
@[simp] theorem exec_railFault (s : State) : exec (.railFault) s = execRailFault s := rfl
@[simp] theorem exec_microcodeLoadComplete (s : State) : exec (.microcodeLoadComplete) s = execMicrocodeLoadComplete s := rfl
@[simp] theorem exec_memoryTrainingComplete (chok : BitVec 16) (s : State) : exec (.memoryTrainingComplete chok) s = execMemoryTrainingComplete chok s := rfl
@[simp] theorem exec_dramInitComplete (s : State) : exec (.dramInitComplete) s = execDramInitComplete s := rfl
@[simp] theorem exec_firmwareRun (s : State) : exec (.firmwareRun) s = execFirmwareRun s := rfl
@[simp] theorem exec_nbootRequest (s : State) : exec (.nbootRequest) s = execNbootRequest s := rfl
@[simp] theorem exec_thermalSample (ts : (List (Option (BitVec 16)))) (s : State) : exec (.thermalSample ts) s = execThermalSample ts s := rfl
@[simp] theorem exec_sensorInvalid (n : Fin 13) (s : State) : exec (.sensorInvalid n) s = execSensorInvalid n s := rfl
@[simp] theorem exec_registerWrite (r : RegSrc) (off : BitVec 32) (v : Val) (s : State) : exec (.registerWrite r off v) s = execRegisterWrite r off v s := rfl
@[simp] theorem exec_fabsendTimeout (s : State) : exec (.fabsendTimeout) s = execFabsendTimeout s := rfl
@[simp] theorem exec_haltTimeout (c : Fin 96) (s : State) : exec (.haltTimeout c) s = execHaltTimeout c s := rfl
@[simp] theorem exec_flitSlot (l : Fin 6) (s : State) : exec (.flitSlot l) s = execFlitSlot l s := rfl
@[simp] theorem exec_hardwarePrefetch (c : Fin 96) (g : BitVec 34) (s : State) : exec (.hardwarePrefetch c g) s = execHardwarePrefetch c g s := rfl
@[simp] theorem exec_vddBshLoss (s : State) : exec (.vddBshLoss) s = execVddBshLoss s := rfl
@[simp] theorem exec_pciExpressLinkChange (up : Bool) (s : State) : exec (.pciExpressLinkChange up) s = execPciExpressLinkChange up s := rfl
@[simp] theorem exec_instructionRegisterUpdate (ir : Byte) (s : State) : exec (.instructionRegisterUpdate ir) s = execInstructionRegisterUpdate ir s := rfl
@[simp] theorem exec_reeveBootRomStart (s : State) : exec (.reeveBootRomStart) s = execReeveBootRomStart s := rfl

end Sys2Proof.Laws
end

