-- ==== Sys2Proof/Laws/Monad.lean ====
section
/-! SUPPORT. How an instruction's operation is evaluated on a state: one equation per step of the monad, and the answer
of an issued instruction. -/

namespace Sys2Proof.Laws

open Sys2Proof.Machine Sys2Proof.Safety

section Sequencing

variable {α β : Type} {s : State}

/-- Sequencing hands the first operation's answer and state to the second; what is thrown ends both. -/
theorem bind_apply (m : M α) (k : α → M β) (s : State) :
    (m >>= k) s = match m s with | .ok a t => k a t | .error e t => .error e t := by
  cases h : m s <;> simp only [bind, EStateM.bind, h]

theorem map_apply (g : α → β) (m : M α) (s : State) :
    (g <$> m) s = match m s with | .ok a t => .ok (g a) t | .error e t => .error e t := by
  cases h : m s <;> simp only [Functor.map, EStateM.map, h]

variable {m : M α} {t : State}

@[simp] theorem bind_ok {k : α → M β} {a : α} (h : m s = .ok a t) : (m >>= k) s = k a t := by rw [bind_apply, h]
@[simp] theorem map_ok {g : α → β} {a : α} (h : m s = .ok a t) : (g <$> m) s = .ok (g a) t := by rw [map_apply, h]

variable {e : Exc} (h : m s = .error e t)
include h

@[simp] theorem bind_error {k : α → M β} : (m >>= k) s = .error e t := by rw [bind_apply, h]
@[simp] theorem map_error {g : α → β} : (g <$> m) s = .error e t := by rw [map_apply, h]

end Sequencing

@[simp] theorem pure_apply {α : Type} (a : α) (s : State) : (pure a : M α) s = .ok a s := rfl
@[simp] theorem get_apply (s : State) : (get : M State) s = .ok s s := rfl
@[simp] theorem set_apply (s t : State) : (set t : M Unit) s = .ok () t := rfl
@[simp] theorem modify_apply (f : State → State) (s : State) : (modify f : M Unit) s = .ok () (f s) := rfl
@[simp] theorem modifyGet_apply {α : Type} (f : State → α × State) (s : State) :
    (modifyGet f : M α) s = .ok (f s).1 (f s).2 := rfl
@[simp] theorem throw_apply {α : Type} (e : Exc) (s : State) : (throw e : M α) s = .error e s := rfl
@[simp] theorem fault_apply {α : Type} (c : Nat) (v : Val) (s : State) : (fault c v : M α) s = .error (.trap c v) s := rfl

@[simp] theorem faultIf_apply (p : Bool) (c : Nat) (v : Val) (s : State) :
    faultIf p c v s = if p then .error (.trap c v) s else .ok () s := by
  cases p <;> rfl

@[simp] theorem want_apply (p : Bool) (spec : Nat) (s : State) :
    want p spec s = if p then .ok () s else .error (.trap cTYPE (regTval spec)) s := by
  cases p <;> rfl

theorem faultIf_false {p : Bool} {c : Nat} {v : Val} {s : State} (h : p = false) : faultIf p c v s = .ok () s := by
  subst h; rfl

theorem want_true {p : Bool} {n : Nat} {s : State} (h : p = true) : want p n s = .ok () s := by subst h; rfl

/-- A conditional operation whose condition is known. -/
theorem ite_pos_apply {α : Type} {p : Prop} [Decidable p] {m n : M α} {s : State} (h : p) :
    (if p then m else n) s = m s := by rw [if_pos h]

theorem ite_neg_apply {α : Type} {p : Prop} [Decidable p] {m n : M α} {s : State} (h : ¬ p) :
    (if p then m else n) s = n s := by rw [if_neg h]

@[simp] theorem getBank_apply (cx : Ctx) (s : State) : getBank cx s = .ok (s.bank cx.c cx.b) s := rfl
@[simp] theorem getReg_apply (cx : Ctx) (n : Nat) (s : State) : getReg cx n s = .ok (s.rdReg cx.c cx.b n) s := rfl
@[simp] theorem putReg_apply (cx : Ctx) (n : Nat) (w : Word) (s : State) :
    putReg cx n w s = .ok () (s.wrReg cx.c cx.b n w) := rfl
@[simp] theorem modB_apply (cx : Ctx) (f : Bank → Bank) (s : State) :
    modB cx f s = .ok () (s.modBank cx.c cx.b f) := rfl
@[simp] theorem done_apply (cx : Ctx) (n : Nat) (w : Word) (s : State) :
    done cx n w s = .ok .fall (s.wrReg cx.c cx.b n w) := rfl

/-- A control-store word that holds no parity error in the copy is fetched with no effect (R219). -/
@[simp] theorem csCheck_sound {s : State} {c k store adr : Nat} {w : Bool} (h : (k, store, adr) ∉ s.csBad) :
    s.csCheck c w k store adr = s := by
  simp [State.csCheck, h]

@[simp] theorem checkWord_apply {cx : Ctx} {w : Word} {v : Val} {s : State} (h : AttrSound s cx.c w) :
    checkWord cx w v s = match s.badWord w with | some c => .error (.trap c v) s | none => .ok () s := by
  simp only [checkWord, bind_apply, get_apply, modify_apply, csCheck_sound h]
  cases s.badWord w <;> rfl

/-- A source register that passes the check of R26 is read and changes nothing. -/
@[simp] theorem srcReg_ok {s : State} {cx : Ctx} {n : Nat} {w : Word} (h : Src s cx.c cx.b n w) :
    srcReg cx n s = .ok w s := by
  obtain ⟨rfl, h2, h3⟩ := h
  simp [srcReg, bind_apply, map_apply, checkWord_apply h3, h2]

/-- An instruction whose key the dispatch entry leaves to its own operation. -/
theorem byKind_own {s : State} {cx : Ctx} {iw : Nat} (body : M Flow) (h : kindOne s cx.c (keyOf iw) = none) :
    byKind cx iw body s = body s := by
  simp [byKind, bind_apply, h]

/-- What an issued instruction answers is what its operation answers after the fetch. -/
theorem runInstr_issued {s s1 : State} {c : Nat} {b : Fin 4} {e : Enc} {body : Ctx → M Flow}
    (h : Issued s c b e s1) : runInstr s c e body = finish s c b e.word (body (s.ctx c b) s1) := by
  obtain ⟨h1, h2, h3, h4, h5⟩ := h
  have hk : byKind (s.ctx c b) e.word (body (s.ctx c b)) s1 = body (s.ctx c b) s1 := byKind_own _ h5
  simp [runInstr, insn, h1, h2, h4, bind_ok h3, hk]

/-- An issued instruction whose operation ends normally retires. -/
theorem runInstr_ok {s s1 s2 : State} {c : Nat} {b : Fin 4} {e : Enc} {body : Ctx → M Flow} {f : Flow}
    (h : Issued s c b e s1) (hb : body (s.ctx c b) s1 = .ok f s2) :
    runInstr s c e body = .next (s2.retire c b f) := by
  rw [runInstr_issued h, hb]; rfl

@[simp] theorem ctx_c (s : State) (c : Nat) (b : Fin 4) : (s.ctx c b).c = c := rfl
@[simp] theorem ctx_b (s : State) (c : Nat) (b : Fin 4) : (s.ctx c b).b = b := rfl
@[simp] theorem ctx_w (s : State) (c : Nat) (b : Fin 4) : (s.ctx c b).w = (s.bank c b).status.wld := rfl
@[simp] theorem ctx_lvl (s : State) (c : Nat) (b : Fin 4) : (s.ctx c b).lvl = (s.bank c b).status.lvl := rfl

/-- A source register read by the issuing bank. -/
@[simp] theorem srcReg_ctx {s0 s : State} {c : Nat} {b : Fin 4} {n : Nat} {w : Word} (h : Src s c b n w) :
    srcReg (s0.ctx c b) n s = .ok w s :=
  srcReg_ok h

end Sys2Proof.Laws
end

