-- ==== Sys2Proof/Laws/Table.lean ====
section
/-! SUPPORT. The laws of sparse tables: a read after a write, and the one form that every write keeps. -/

namespace Sys2Proof.Laws

open Sys2Proof.Machine

variable {α : Type}

theorem Tbl.get_erase_same (d : α) (t : Tbl α) (k : Nat) : Tbl.get d (Tbl.erase t k) k = d := by
  induction t with
  | nil => rfl
  | cons x r ih =>
    obtain ⟨i, v⟩ := x
    by_cases h : i = k <;> simp [Tbl.erase, Tbl.get, h, ih]

theorem Tbl.get_erase_other (d : α) (t : Tbl α) {k j : Nat} (h : j ≠ k) :
    Tbl.get d (Tbl.erase t k) j = Tbl.get d t j := by
  induction t with
  | nil => rfl
  | cons x r ih =>
    obtain ⟨i, v⟩ := x
    by_cases hi : i = k
    · subst hi; simp [Tbl.erase, Tbl.get, ih, Ne.symm h]
    · by_cases hj : i = j
      · subst hj; simp [Tbl.erase, Tbl.get, hi]
      · simp [Tbl.erase, Tbl.get, hi, hj, ih]

theorem Tbl.get_insert_other (d : α) (t : Tbl α) (v : α) {k j : Nat} (h : j ≠ k) :
    Tbl.get d (Tbl.insert t k v) j = Tbl.get d t j := by
  induction t with
  | nil => simp [Tbl.insert, Tbl.get, Ne.symm h]
  | cons x r ih =>
    obtain ⟨i, w⟩ := x
    by_cases hj : i = j
    · subst hj; by_cases hk : k < i <;> simp [Tbl.insert, Tbl.get, hk, Ne.symm h]
    · by_cases hk : k < i <;> simp [Tbl.insert, Tbl.get, hk, hj, ih, Ne.symm h]

/-- A table that does not hold a key answers the value inserted for it. -/
theorem Tbl.get_insert_erase (d : α) (t : Tbl α) (v : α) (k : Nat) :
    Tbl.get d (Tbl.insert (Tbl.erase t k) k v) k = v := by
  induction t with
  | nil => simp [Tbl.erase, Tbl.insert, Tbl.get]
  | cons x r ih =>
    obtain ⟨i, w⟩ := x
    by_cases h : i = k
    · simp [Tbl.erase, h, ih]
    · by_cases hk : k < i <;> simp [Tbl.erase, Tbl.insert, Tbl.get, h, hk, ih]

@[simp] theorem Tbl.get_set_same [DecidableEq α] (d : α) (t : Tbl α) (k : Nat) (v : α) :
    Tbl.get d (Tbl.set d t k v) k = v := by
  unfold Machine.Tbl.set
  split
  · next h => rw [Tbl.get_erase_same, h]
  · exact Tbl.get_insert_erase d t v k

@[simp] theorem Tbl.get_set_other [DecidableEq α] (d : α) (t : Tbl α) (v : α) {k j : Nat} (h : j ≠ k) :
    Tbl.get d (Tbl.set d t k v) j = Tbl.get d t j := by
  unfold Machine.Tbl.set
  split
  · exact Tbl.get_erase_other d t h
  · rw [Tbl.get_insert_other d _ v h, Tbl.get_erase_other d t h]

theorem Tbl.erase_erase (t : Tbl α) (k : Nat) : Tbl.erase (Tbl.erase t k) k = Tbl.erase t k := by
  induction t with
  | nil => rfl
  | cons x r ih =>
    obtain ⟨i, v⟩ := x
    by_cases h : i = k
    · rw [Machine.Tbl.erase, if_pos h, ih]
    · rw [Machine.Tbl.erase, if_neg h, Machine.Tbl.erase, if_neg h, ih]

theorem Tbl.erase_insert (t : Tbl α) (k : Nat) (v : α) : Tbl.erase (Tbl.insert t k v) k = Tbl.erase t k := by
  induction t with
  | nil => simp [Tbl.insert, Tbl.erase]
  | cons x r ih =>
    obtain ⟨i, w⟩ := x
    by_cases hk : k < i
    · rw [Machine.Tbl.insert, if_pos hk, Machine.Tbl.erase, if_pos rfl]
    · rw [Machine.Tbl.insert, if_neg hk, Machine.Tbl.erase, Machine.Tbl.erase, ih]

/-- The last of two writes of a key stands. -/
@[simp] theorem Tbl.set_set [DecidableEq α] (d : α) (t : Tbl α) (k : Nat) (v w : α) :
    Tbl.set d (Tbl.set d t k v) k w = Tbl.set d t k w := by
  have h : Tbl.erase (Tbl.set d t k v) k = Tbl.erase t k := by
    unfold Machine.Tbl.set
    split
    · exact Tbl.erase_erase t k
    · rw [Tbl.erase_insert, Tbl.erase_erase]
  rw [Machine.Tbl.set, h, Machine.Tbl.set]

/-- A key that answers anything but the default is in the table. -/
theorem Tbl.mem_of_get_ne (d : α) (t : Tbl α) (k : Nat) (h : Tbl.get d t k ≠ d) : k ∈ t.map (·.1) := by
  induction t with
  | nil => exact absurd rfl h
  | cons x r ih =>
    obtain ⟨i, v⟩ := x
    by_cases hi : i = k
    · simp [hi]
    · exact List.mem_cons_of_mem _ (ih (by simpa [Tbl.get, hi] using h))

/-- The keys of a table all lie above a bound. -/
def Tbl.above (n : Nat) (t : Tbl α) : Prop := ∀ x ∈ t, n < x.1

theorem Tbl.wf_cons [DecidableEq α] (d : α) (k : Nat) (v : α) (r : Tbl α) :
    Tbl.wf d ((k, v) :: r) = true ↔ v ≠ d ∧ Tbl.above k r ∧ Tbl.wf d r = true := by
  induction r generalizing k v with
  | nil => simp [Tbl.wf, Tbl.above]
  | cons x r ih =>
    obtain ⟨j, w⟩ := x
    rw [show Tbl.wf d ((k, v) :: (j, w) :: r) =
      ((!(decide (v = d))) && decide (k < j) && Tbl.wf d ((j, w) :: r)) from rfl]
    simp only [Bool.and_eq_true, Bool.not_eq_true', decide_eq_false_iff_not, decide_eq_true_eq, ih]
    constructor
    · rintro ⟨⟨h1, h2⟩, h3, h4, h5⟩
      refine ⟨h1, ?_, h3, h4, h5⟩
      intro y hy
      rcases List.mem_cons.1 hy with rfl | hy
      · exact h2
      · exact Nat.lt_trans h2 (h4 y hy)
    · rintro ⟨h1, h2, h3, h4, h5⟩
      exact ⟨⟨h1, h2 _ (List.mem_cons_self ..)⟩, h3, h4, h5⟩

theorem Tbl.above_erase {n : Nat} {t : Tbl α} (k : Nat) (h : Tbl.above n t) : Tbl.above n (Tbl.erase t k) := by
  induction t with
  | nil => exact h
  | cons x r ih =>
    obtain ⟨i, v⟩ := x
    have hr := ih fun y hy => h y (List.mem_cons_of_mem _ hy)
    by_cases hi : i = k
    · simpa [Tbl.erase, hi] using hr
    · intro y hy
      simp only [Tbl.erase, if_neg hi, List.mem_cons] at hy
      rcases hy with rfl | hy
      · exact h _ (List.mem_cons_self ..)
      · exact hr y hy

theorem Tbl.wf_erase [DecidableEq α] (d : α) {t : Tbl α} (k : Nat) (h : Tbl.wf d t = true) :
    Tbl.wf d (Tbl.erase t k) = true := by
  induction t with
  | nil => exact h
  | cons x r ih =>
    obtain ⟨i, v⟩ := x
    obtain ⟨h1, h2, h3⟩ := (Tbl.wf_cons d i v r).1 h
    by_cases hi : i = k
    · simpa [Tbl.erase, hi] using ih h3
    · simp only [Tbl.erase, if_neg hi]
      exact (Tbl.wf_cons d i v _).2 ⟨h1, Tbl.above_erase k h2, ih h3⟩

theorem Tbl.erase_lacks (t : Tbl α) (k : Nat) : ∀ x ∈ Tbl.erase t k, x.1 ≠ k := by
  induction t with
  | nil => simp [Tbl.erase]
  | cons x r ih =>
    obtain ⟨i, v⟩ := x
    by_cases hi : i = k
    · simpa [Tbl.erase, hi] using ih
    · intro y hy
      simp only [Tbl.erase, if_neg hi, List.mem_cons] at hy
      rcases hy with rfl | hy
      · exact hi
      · exact ih y hy

theorem Tbl.above_insert {n : Nat} {t : Tbl α} {k : Nat} (v : α) (hk : n < k) (h : Tbl.above n t) :
    Tbl.above n (Tbl.insert t k v) := by
  induction t with
  | nil => simpa [Tbl.insert, Tbl.above] using hk
  | cons x r ih =>
    obtain ⟨i, w⟩ := x
    by_cases hi : k < i
    · intro y hy
      simp only [Tbl.insert, if_pos hi, List.mem_cons] at hy
      rcases hy with rfl | hy
      · exact hk
      · exact h y (List.mem_cons.2 hy)
    · intro y hy
      simp only [Tbl.insert, if_neg hi, List.mem_cons] at hy
      rcases hy with rfl | hy
      · exact h _ (List.mem_cons_self ..)
      · exact ih (fun z hz => h z (List.mem_cons_of_mem _ hz)) y hy

theorem Tbl.wf_insert [DecidableEq α] (d : α) {t : Tbl α} {k : Nat} {v : α} (hv : v ≠ d)
    (hk : ∀ x ∈ t, x.1 ≠ k) (h : Tbl.wf d t = true) : Tbl.wf d (Tbl.insert t k v) = true := by
  induction t with
  | nil => simpa [Tbl.insert, Tbl.wf] using hv
  | cons x r ih =>
    obtain ⟨i, w⟩ := x
    obtain ⟨h1, h2, h3⟩ := (Tbl.wf_cons d i w r).1 h
    by_cases hi : k < i
    · simp only [Tbl.insert, if_pos hi]
      refine (Tbl.wf_cons d k v _).2 ⟨hv, ?_, h⟩
      intro y hy
      rcases List.mem_cons.1 hy with rfl | hy
      · exact hi
      · exact Nat.lt_trans hi (h2 y hy)
    · simp only [Tbl.insert, if_neg hi]
      have hne : i ≠ k := hk (i, w) (List.mem_cons_self ..)
      exact (Tbl.wf_cons d i w _).2 ⟨h1, Tbl.above_insert v (by omega) h2,
        ih (fun y hy => hk y (List.mem_cons_of_mem _ hy)) h3⟩

/-- Every write of a table keeps its one form. -/
theorem Tbl.wf_set [DecidableEq α] (d : α) {t : Tbl α} (k : Nat) (v : α) (h : Tbl.wf d t = true) :
    Tbl.wf d (Tbl.set d t k v) = true := by
  unfold Machine.Tbl.set
  split
  · exact Tbl.wf_erase d k h
  · next hv => exact Tbl.wf_insert d hv (Tbl.erase_lacks t k) (Tbl.wf_erase d k h)

end Sys2Proof.Laws
end

