-- ==== Sys2Proof/Laws/State.lean ====
section
/-! SUPPORT. What the accessors of State read after each of its updates: one lemma per accessor per update. -/

namespace Sys2Proof.Laws

open Sys2Proof.Machine

/-- Bank keys of different banks differ. -/
theorem bankKey_ne {c c' : Nat} {b b' : Fin 4} (h : (c', b') ≠ (c, b)) : 4 * c' + b'.val ≠ 4 * c + b.val := by
  intro he
  have h1 : c' = c := by omega
  subst h1
  exact h (by rw [Fin.ext (show b'.val = b.val by omega)])

@[simp] theorem bank_setBank_same (s : State) (c : Nat) (b : Fin 4) (x : Bank) : (s.setBank c b x).bank c b = x :=
  Tbl.get_set_same ..

theorem bank_setBank_other (s : State) {c c' : Nat} {b b' : Fin 4} (x : Bank) (h : (c', b') ≠ (c, b)) :
    (s.setBank c b x).bank c' b' = s.bank c' b' :=
  Tbl.get_set_other _ _ _ (bankKey_ne h)

@[simp] theorem bank_modBank_same (s : State) (c : Nat) (b : Fin 4) (f : Bank → Bank) :
    (s.modBank c b f).bank c b = f (s.bank c b) :=
  bank_setBank_same ..

theorem bank_modBank_other (s : State) {c c' : Nat} {b b' : Fin 4} (f : Bank → Bank) (h : (c', b') ≠ (c, b)) :
    (s.modBank c b f).bank c' b' = s.bank c' b' :=
  bank_setBank_other s _ h

@[simp] theorem modBank_modBank (s : State) (c : Nat) (b : Fin 4) (f g : Bank → Bank) :
    (s.modBank c b f).modBank c b g = s.modBank c b fun k => g (f k) := by
  have h : ∀ x y, (s.setBank c b x).setBank c b y = s.setBank c b y := fun x y => by
    unfold State.setBank; dsimp only; rw [Tbl.set_set]
  show (s.setBank c b _).setBank c b (g ((s.modBank c b f).bank c b)) = _
  rw [h, bank_modBank_same]; rfl

@[simp] theorem core_setCore_same (s : State) (c : Nat) (x : Core) : (s.setCore c x).core c = x := Tbl.get_set_same ..

theorem core_setCore_other (s : State) {c c' : Nat} (x : Core) (h : c' ≠ c) : (s.setCore c x).core c' = s.core c' :=
  Tbl.get_set_other _ _ _ h

@[simp] theorem core_modCore_same (s : State) (c : Nat) (f : Core → Core) : (s.modCore c f).core c = f (s.core c) :=
  core_setCore_same ..

theorem core_modCore_other (s : State) {c c' : Nat} (f : Core → Core) (h : c' ≠ c) :
    (s.modCore c f).core c' = s.core c' :=
  core_setCore_other s _ h

@[simp] theorem reg_setReg_same (s : State) (o : Nat) (v : Val) : (s.setReg o v).reg o = v := Tbl.get_set_same ..

/-- A table keyed with a default of its own per key still answers other keys as before. -/
theorem reg_setReg_other (s : State) {o p : Nat} (v : Val) (h : p ≠ o) : (s.setReg o v).reg p = s.reg p := by
  unfold State.reg State.setReg Machine.Tbl.set
  dsimp only
  split
  · exact Tbl.get_erase_other _ _ h
  · rw [Tbl.get_insert_other _ _ _ h, Tbl.get_erase_other _ _ h]

@[simp] theorem pair_modPair_same (s : State) (p : Nat) (f : Pair → Pair) : (s.modPair p f).pair p = f (s.pair p) :=
  Tbl.get_set_same ..

@[simp] theorem link_modLink_same (s : State) (i : Nat) (f : Link → Link) : (s.modLink i f).link i = f (s.link i) :=
  Tbl.get_set_same ..

@[simp] theorem ott_setOtt_same (s : State) (i : Nat) (o : Ott) : (s.setOtt i o).ott i = o := Tbl.get_set_same ..

@[simp] theorem wnw_modWnw_same (s : State) (k : Nat) (w : Bool) (f : Wnw → Wnw) :
    (s.modWnw k w f).wnw k w = f (s.wnw k w) :=
  Tbl.get_set_same ..

@[simp] theorem gcW_modGcW_same (s : State) (w : Bool) (f : GcWorld → GcWorld) :
    (s.modGcW w f).gcW w = f (s.gcW w) := by
  cases w <;> rfl

@[simp] theorem gcW_modGcW_other (s : State) (w : Bool) (f : GcWorld → GcWorld) :
    (s.modGcW w f).gcW (!w) = s.gcW (!w) := by
  cases w <;> rfl

@[simp] theorem agLine_setAgLine_same (s : State) (a g : Nat) (l : Option AgentLine) :
    (s.setAgLine a g l).agLine a g = l :=
  Tbl.get_set_same ..

theorem agLine_setAgLine_other (s : State) {a g a' g' : Nat} (l : Option AgentLine) (h : agKey a' g' ≠ agKey a g) :
    (s.setAgLine a g l).agLine a' g' = s.agLine a' g' :=
  Tbl.get_set_other _ _ _ h

@[simp] theorem l3Line_setL3_same (s : State) (g : Nat) (l : Option L3Line) : (s.setL3 g l).l3Line g = l :=
  Tbl.get_set_same ..

@[simp] theorem setBank_regs (s : State) (c : Nat) (b : Fin 4) (x : Bank) : (s.setBank c b x).regs = s.regs := rfl
@[simp] theorem setBank_mem (s : State) (c : Nat) (b : Fin 4) (x : Bank) : (s.setBank c b x).mem = s.mem := rfl
@[simp] theorem setBank_core (s : State) (c c' : Nat) (b : Fin 4) (x : Bank) :
    (s.setBank c b x).core c' = s.core c' := rfl
@[simp] theorem setBank_reg (s : State) (c o : Nat) (b : Fin 4) (x : Bank) : (s.setBank c b x).reg o = s.reg o := rfl
@[simp] theorem setBank_pair (s : State) (c p : Nat) (b : Fin 4) (x : Bank) :
    (s.setBank c b x).pair p = s.pair p := rfl
@[simp] theorem setBank_cycle (s : State) (c : Nat) (b : Fin 4) (x : Bank) :
    (s.setBank c b x).cycle = s.cycle := rfl
@[simp] theorem setBank_pending (s : State) (c : Nat) (b : Fin 4) (x : Bank) :
    (s.setBank c b x).pending = s.pending := rfl

@[simp] theorem modBank_regs (s : State) (c : Nat) (b : Fin 4) (f : Bank → Bank) : (s.modBank c b f).regs = s.regs := rfl
@[simp] theorem modBank_mem (s : State) (c : Nat) (b : Fin 4) (f : Bank → Bank) : (s.modBank c b f).mem = s.mem := rfl
@[simp] theorem modBank_core (s : State) (c c' : Nat) (b : Fin 4) (f : Bank → Bank) :
    (s.modBank c b f).core c' = s.core c' := rfl
@[simp] theorem modBank_reg (s : State) (c o : Nat) (b : Fin 4) (f : Bank → Bank) :
    (s.modBank c b f).reg o = s.reg o := rfl
@[simp] theorem modBank_pair (s : State) (c p : Nat) (b : Fin 4) (f : Bank → Bank) :
    (s.modBank c b f).pair p = s.pair p := rfl
@[simp] theorem modBank_cycle (s : State) (c : Nat) (b : Fin 4) (f : Bank → Bank) :
    (s.modBank c b f).cycle = s.cycle := rfl
@[simp] theorem modBank_pending (s : State) (c : Nat) (b : Fin 4) (f : Bank → Bank) :
    (s.modBank c b f).pending = s.pending := rfl

@[simp] theorem modCore_regs (s : State) (c : Nat) (f : Core → Core) : (s.modCore c f).regs = s.regs := rfl
@[simp] theorem modCore_mem (s : State) (c : Nat) (f : Core → Core) : (s.modCore c f).mem = s.mem := rfl
@[simp] theorem modCore_bank (s : State) (c c' : Nat) (b : Fin 4) (f : Core → Core) :
    (s.modCore c f).bank c' b = s.bank c' b := rfl
@[simp] theorem modCore_reg (s : State) (c o : Nat) (f : Core → Core) : (s.modCore c f).reg o = s.reg o := rfl
@[simp] theorem modCore_pair (s : State) (c p : Nat) (f : Core → Core) : (s.modCore c f).pair p = s.pair p := rfl
@[simp] theorem modCore_pending (s : State) (c : Nat) (f : Core → Core) : (s.modCore c f).pending = s.pending := rfl

@[simp] theorem setReg_mem (s : State) (o : Nat) (v : Val) : (s.setReg o v).mem = s.mem := rfl
@[simp] theorem setReg_banks (s : State) (o : Nat) (v : Val) : (s.setReg o v).banks = s.banks := rfl
@[simp] theorem setReg_bank (s : State) (o c : Nat) (b : Fin 4) (v : Val) : (s.setReg o v).bank c b = s.bank c b := rfl
@[simp] theorem setReg_core (s : State) (o c : Nat) (v : Val) : (s.setReg o v).core c = s.core c := rfl
@[simp] theorem setReg_pair (s : State) (o p : Nat) (v : Val) : (s.setReg o v).pair p = s.pair p := rfl
@[simp] theorem setReg_pending (s : State) (o : Nat) (v : Val) : (s.setReg o v).pending = s.pending := rfl

@[simp] theorem modMem_mem (s : State) (f : Mem → Mem) : (s.modMem f).mem = f s.mem := rfl
@[simp] theorem modMem_banks (s : State) (f : Mem → Mem) : (s.modMem f).banks = s.banks := rfl
@[simp] theorem modMem_bank (s : State) (f : Mem → Mem) (c : Nat) (b : Fin 4) : (s.modMem f).bank c b = s.bank c b := rfl
@[simp] theorem modMem_core (s : State) (f : Mem → Mem) (c : Nat) : (s.modMem f).core c = s.core c := rfl
@[simp] theorem modMem_reg (s : State) (f : Mem → Mem) (o : Nat) : (s.modMem f).reg o = s.reg o := rfl
@[simp] theorem modMem_pending (s : State) (f : Mem → Mem) : (s.modMem f).pending = s.pending := rfl

/-- What a bank is after the reservations on a granule are cleared (R94). -/
def unreserved (g : Nat) (keep : Option Nat) (key : Nat) (k : Bank) : Bank :=
  if k.resv = some g ∧ keep ≠ some key then { k with resv := none } else k

theorem unreserved_idem (g : Nat) (keep : Option Nat) (key : Nat) (k : Bank) :
    unreserved g keep key (unreserved g keep key k) = unreserved g keep key k := by
  unfold unreserved
  by_cases h : k.resv = some g ∧ keep ≠ some key
  · simp [h]
  · simp only [if_neg h]

theorem clearResv_get (g : Nat) (keep : Option Nat) (s : State) (key j : Nat) :
    (Tbl.get {} (s.clearResv g keep key).banks j : Bank) =
      if j = key then unreserved g keep key (Tbl.get {} s.banks key) else Tbl.get {} s.banks j := by
  unfold State.clearResv unreserved
  by_cases h : (Tbl.get {} s.banks key : Bank).resv = some g ∧ keep ≠ some key
  · rw [if_pos h, if_pos h]
    by_cases hj : j = key
    · subst hj; rw [if_pos rfl]; exact Tbl.get_set_same ..
    · rw [if_neg hj]; exact Tbl.get_set_other _ _ _ hj
  · rw [if_neg h, if_neg h]
    by_cases hj : j = key
    · subst hj; rw [if_pos rfl]
    · rw [if_neg hj]

theorem clearResv_foldl_get (g : Nat) (keep : Option Nat) (l : List Nat) (s : State) (j : Nat) :
    (Tbl.get {} (l.foldl (State.clearResv g keep) s).banks j : Bank) =
      if j ∈ l then unreserved g keep j (Tbl.get {} s.banks j) else Tbl.get {} s.banks j := by
  induction l generalizing s with
  | nil => simp
  | cons x r ih =>
    rw [List.foldl_cons, ih, clearResv_get]
    by_cases hx : j = x
    · subst hx
      by_cases hr : j ∈ r <;> simp [hr, unreserved_idem]
    · simp [hx]

/-- Clearing the reservations of a granule changes no bank but in its reservation. -/
theorem breakResv_bank (s : State) (g : Nat) (keep : Option Nat) (c : Nat) (b : Fin 4) :
    (s.breakResv g keep).bank c b = unreserved g keep (4 * c + b.val) (s.bank c b) := by
  unfold State.breakResv State.bank
  rw [clearResv_foldl_get]
  split
  · rfl
  · next h =>
    have : (Tbl.get {} s.banks (4 * c + b.val) : Bank) = {} :=
      Classical.byContradiction fun hne => h (Tbl.mem_of_get_ne _ _ _ hne)
    rw [this]; rfl

theorem clearResv_other (g : Nat) (keep : Option Nat) (s : State) (key : Nat) :
    { s.clearResv g keep key with banks := s.banks } = s := by
  unfold State.clearResv
  dsimp only
  split <;> rfl

/-- Clearing reservations changes the banks and nothing else. -/
theorem breakResv_other (s : State) (g : Nat) (keep : Option Nat) :
    { s.breakResv g keep with banks := s.banks } = s := by
  unfold State.breakResv
  generalize s.banks.map (·.1) = l
  suffices h : ∀ (t : State), { t with banks := s.banks } = s →
      { l.foldl (State.clearResv g keep) t with banks := s.banks } = s from h s rfl
  induction l with
  | nil => exact fun t h => h
  | cons x r ih =>
    intro t h
    refine ih _ (Eq.trans ?_ h)
    have := congrArg (fun u : State => { u with banks := s.banks }) (clearResv_other g keep t x)
    exact this

theorem breakResv_mem (s : State) (g : Nat) (keep : Option Nat) : (s.breakResv g keep).mem = s.mem :=
  by have h := congrArg State.mem (breakResv_other s g keep); exact h

theorem breakResv_regs (s : State) (g : Nat) (keep : Option Nat) : (s.breakResv g keep).regs = s.regs :=
  by have h := congrArg State.regs (breakResv_other s g keep); exact h

theorem breakResv_cores (s : State) (g : Nat) (keep : Option Nat) : (s.breakResv g keep).cores = s.cores :=
  by have h := congrArg State.cores (breakResv_other s g keep); exact h

end Sys2Proof.Laws
end

