-- ==== Sys2Proof/Laws/Frame.lean ====
section
/-! SUPPORT. What the recording operations leave alone: event counters, the trace, the event log and the machine checks
touch no bank, no register of a bank and no memory. -/

namespace Sys2Proof.Laws

open Sys2Proof.Machine

/-- A fold keeps what every step keeps. -/
theorem foldl_keeps {α σ β : Type} (p : σ → β) (f : σ → α → σ) (h : ∀ s a, p (f s a) = p s) (l : List α) (s : σ) :
    p (l.foldl f s) = p s := by
  induction l generalizing s with
  | nil => rfl
  | cons a l ih => exact (ih _).trans (h s a)

/-- What a register write leaves alone. -/
@[simp] theorem setRegF_banks (s : State) (o h l x : Nat) : (s.setRegF o h l x).banks = s.banks := rfl
@[simp] theorem setRegF_mem (s : State) (o h l x : Nat) : (s.setRegF o h l x).mem = s.mem := rfl
@[simp] theorem setRegF_cores (s : State) (o h l x : Nat) : (s.setRegF o h l x).cores = s.cores := rfl
@[simp] theorem setRegF_bank (s : State) (o h l x c : Nat) (b : Fin 4) : (s.setRegF o h l x).bank c b = s.bank c b := rfl
@[simp] theorem setRegF_core (s : State) (o h l x c : Nat) : (s.setRegF o h l x).core c = s.core c := rfl

/-- Counter overflow is noted in the counters and the latch only. -/
theorem setOvf_keeps {β : Type} (p : State → β) (h1 : ∀ s o v, p (State.setReg s o v) = p s)
    (h2 : ∀ s k f, p (State.modPair s k f) = p s) (s : State) (c n : Nat) : p (s.setOvf c n) = p s := by
  unfold State.setOvf; dsimp only
  split
  · rfl
  · split
    · exact (h2 ..).trans (h1 ..)
    · exact h1 ..

/-- Counting an event changes counters only. -/
theorem countEvent_keeps {β : Type} (p : State → β) (h1 : ∀ s o v, p (State.setReg s o v) = p s)
    (h2 : ∀ s k f, p (State.modPair s k f) = p s) (s : State) (c ev n : Nat) : p (s.countEvent c ev n) = p s := by
  have hit : ∀ (s : State) (q : Bool) (o v i : Nat),
      p (if q then (if v ≥ 2 ^ 48 then (s.setRegF o 47 0 v).setOvf c i else s.setRegF o 47 0 v) else s) = p s := by
    intro s q o v i
    split
    · split
      · exact (setOvf_keeps p h1 h2 ..).trans (h1 ..)
      · exact h1 ..
    · rfl
  refine foldl_keeps p _ (fun s i => ?_) _ s
  dsimp only
  split
  · exact hit ..
  · rfl

@[simp] theorem countEvent_banks (s : State) (c ev n : Nat) : (s.countEvent c ev n).banks = s.banks :=
  countEvent_keeps State.banks (fun _ _ _ => rfl) (fun _ _ _ => rfl) ..
@[simp] theorem countEvent_mem (s : State) (c ev n : Nat) : (s.countEvent c ev n).mem = s.mem :=
  countEvent_keeps State.mem (fun _ _ _ => rfl) (fun _ _ _ => rfl) ..
@[simp] theorem countEvent_cores (s : State) (c ev n : Nat) : (s.countEvent c ev n).cores = s.cores :=
  countEvent_keeps State.cores (fun _ _ _ => rfl) (fun _ _ _ => rfl) ..
@[simp] theorem countEvent_bank (s : State) (c ev n c' : Nat) (b : Fin 4) :
    (s.countEvent c ev n).bank c' b = s.bank c' b := by unfold State.bank; rw [countEvent_banks]
@[simp] theorem countEvent_core (s : State) (c ev n c' : Nat) : (s.countEvent c ev n).core c' = s.core c' := by
  unfold State.core; rw [countEvent_cores]

/-- A trace entry goes to the trace buffer only. -/
theorem trace_keeps {β : Type} (p : State → β) (h1 : ∀ s o v, p (State.setReg s o v) = p s)
    (h2 : ∀ (s : State) t u, p { s with trLast := t, trPos := u } = p s) (s : State) (c k : Nat) (b : Fin 4) (d : Nat) :
    p (s.trace c k b d) = p s := by
  unfold State.trace; dsimp only
  split
  · split
    · exact (h2 _ _ (State.trPos _)).trans ((h1 ..).trans (h1 ..))
    · split
      · exact (h2 ..).trans (h1 ..)
      · rfl
  · rfl

@[simp] theorem trace_banks (s : State) (c k : Nat) (b : Fin 4) (d : Nat) : (s.trace c k b d).banks = s.banks :=
  trace_keeps State.banks (fun _ _ _ => rfl) (fun _ _ _ => rfl) ..
@[simp] theorem trace_mem (s : State) (c k : Nat) (b : Fin 4) (d : Nat) : (s.trace c k b d).mem = s.mem :=
  trace_keeps State.mem (fun _ _ _ => rfl) (fun _ _ _ => rfl) ..
@[simp] theorem trace_cores (s : State) (c k : Nat) (b : Fin 4) (d : Nat) : (s.trace c k b d).cores = s.cores :=
  trace_keeps State.cores (fun _ _ _ => rfl) (fun _ _ _ => rfl) ..
@[simp] theorem trace_bank (s : State) (c k c' : Nat) (b b' : Fin 4) (d : Nat) :
    (s.trace c k b d).bank c' b' = s.bank c' b' := by unfold State.bank; rw [trace_banks]
@[simp] theorem trace_core (s : State) (c k c' : Nat) (b : Fin 4) (d : Nat) : (s.trace c k b d).core c' = s.core c' := by
  unfold State.core; rw [trace_cores]

@[simp] theorem dropAssists_bank (s : State) (c b c' : Nat) (b' : Fin 4) :
    (s.dropAssists c b).bank c' b' = s.bank c' b' := rfl
@[simp] theorem dropAssists_mem (s : State) (c b : Nat) : (s.dropAssists c b).mem = s.mem := rfl
@[simp] theorem dropAssists_core (s : State) (c b c' : Nat) : (s.dropAssists c b).core c' = s.core c' := rfl
@[simp] theorem stepped_bank (s : State) (c c' : Nat) (b : Fin 4) : (s.stepped c).bank c' b = s.bank c' b := rfl
@[simp] theorem stepped_mem (s : State) (c : Nat) : (s.stepped c).mem = s.mem := rfl

/-- The IBI conditions touch the Reeve's wires only. -/
theorem updateIbi_keeps {β : Type} (p : State → β) (h1 : ∀ (s : State) r, p { s with reeve := r } = p s)
    (h2 : ∀ (s : State) r, p { s with pins := r } = p s) (s : State) : p s.updateIbi = p s := by
  unfold State.updateIbi; dsimp only
  refine (h2 ..).trans ?_
  split
  · exact (h1 ..).trans (h1 ..)
  · exact h1 ..

/-- A host vector touches the host function only. -/
theorem sendVector_keeps {β : Type} (p : State → β) (h : ∀ (s : State) r, p { s with host := r } = p s) (s : State)
    (v : Nat) : p (s.sendVector v) = p s := by
  unfold State.sendVector
  split
  · rfl
  · split
    · exact h ..
    · exact h ..

/-- The event log touches the Reeve, its wires and the host function only. -/
theorem logEvent_keeps {β : Type} (p : State → β) (h1 : ∀ (s : State) r, p { s with reeve := r } = p s)
    (h2 : ∀ (s : State) r, p { s with pins := r } = p s) (h3 : ∀ (s : State) r, p { s with host := r } = p s) (s : State)
    (a b c d : Nat) (x y : Val) : p (s.logEvent a b c d x y) = p s := by
  unfold State.logEvent; dsimp only
  split
  · refine (updateIbi_keeps p h1 h2 _).trans ?_
    split
    · exact (sendVector_keeps p h3 ..).trans (h1 ..)
    · exact h1 ..
  · rfl

@[simp] theorem logEvent_banks (s : State) (a b c d : Nat) (x y : Val) : (s.logEvent a b c d x y).banks = s.banks :=
  logEvent_keeps State.banks (fun _ _ => rfl) (fun _ _ => rfl) (fun _ _ => rfl) ..
@[simp] theorem logEvent_mem (s : State) (a b c d : Nat) (x y : Val) : (s.logEvent a b c d x y).mem = s.mem :=
  logEvent_keeps State.mem (fun _ _ => rfl) (fun _ _ => rfl) (fun _ _ => rfl) ..
@[simp] theorem logEvent_cores (s : State) (a b c d : Nat) (x y : Val) : (s.logEvent a b c d x y).cores = s.cores :=
  logEvent_keeps State.cores (fun _ _ => rfl) (fun _ _ => rfl) (fun _ _ => rfl) ..
@[simp] theorem logEvent_regs (s : State) (a b c d : Nat) (x y : Val) : (s.logEvent a b c d x y).regs = s.regs :=
  logEvent_keeps State.regs (fun _ _ => rfl) (fun _ _ => rfl) (fun _ _ => rfl) ..
@[simp] theorem logEvent_fab (s : State) (a b c d : Nat) (x y : Val) : (s.logEvent a b c d x y).fab = s.fab :=
  logEvent_keeps State.fab (fun _ _ => rfl) (fun _ _ => rfl) (fun _ _ => rfl) ..
@[simp] theorem logEvent_pending (s : State) (a b c d : Nat) (x y : Val) : (s.logEvent a b c d x y).pending = s.pending :=
  logEvent_keeps State.pending (fun _ _ => rfl) (fun _ _ => rfl) (fun _ _ => rfl) ..
@[simp] theorem logEvent_bank (s : State) (a b c d n : Nat) (k : Fin 4) (x y : Val) :
    (s.logEvent a b c d x y).bank n k = s.bank n k := by unfold State.bank; rw [logEvent_banks]
@[simp] theorem logEvent_core (s : State) (a b c d n : Nat) (x y : Val) : (s.logEvent a b c d x y).core n = s.core n := by
  unfold State.core; rw [logEvent_cores]
@[simp] theorem logEvent_reg (s : State) (a b c d n : Nat) (x y : Val) : (s.logEvent a b c d x y).reg n = s.reg n := by
  unfold State.reg; rw [logEvent_regs]

/-- A full event log keeps its newest 256 events (R413). -/
theorem logEvent_log (s : State) (a b c d : Nat) (x y : Val) (h : s.reeve.log.length ≤ 256) :
    (s.logEvent a b c d x y).reeve.log.length ≤ 256 := by
  unfold State.logEvent; dsimp only
  split
  · have e : ∀ t : State, t.updateIbi.reeve.log = t.reeve.log := fun t => by
      unfold State.updateIbi; dsimp only; split <;> rfl
    have v : ∀ (t : State) n, (t.sendVector n).reeve = t.reeve := fun t n =>
      sendVector_keeps State.reeve (fun _ _ => rfl) t n
    rw [e]
    split
    · rw [v]; simp; omega
    · simp; omega
  · exact h

/-- What retirement leaves of the bank that retires, and of everything else. -/
theorem retire_bank (s : State) (c : Nat) (b : Fin 4) :
    (s.retire c b .fall).bank c b = { s.bank c b with
      pc := pcOf ((s.bank c b).pc + 4),
      impCount := if (s.bank c b).status.impp then (s.bank c b).impCount + 1 else (s.bank c b).impCount,
      wait := none, micro := none, exempt := false } := by
  simp [State.retire]

theorem retire_other (s : State) {c c' : Nat} {b b' : Fin 4} (f : Flow) (h : (c', b') ≠ (c, b)) :
    (s.retire c b f).bank c' b' = s.bank c' b' := by
  cases f <;> simp [State.retire, bank_modBank_other _ _ h]

theorem retire_mem (s : State) (c : Nat) (b : Fin 4) (f : Flow) : (s.retire c b f).mem = s.mem := by
  cases f <;> simp [State.retire]

end Sys2Proof.Laws
end

