-- ==== Sys2Proof/WellFormed.lean ====
section
/-! DEFINITION. Which commands are well formed: lists have the lengths that the manual gives the things they stand for.
A command that is not well formed names nothing that can reach the module. -/

namespace Sys2Proof.WellFormed

/-- A packet has whole flits of data, at most 64 (R342, R357). -/
def packetOk (p : Packet) : Bool := p.data.length % 4 == 0 && decide (p.data.length ≤ 256)

/-- A payload of a Reeve command is at most 1,024 bytes (R406). -/
def payloadOk (n : Nat) : Bool := decide (n ≤ 1024)

/-- The check of a command: an aligned link has four lanes (R338), a codeword 160 and 4 bytes
(R341), a sample two rails (R440), a reading thirteen sensors
(R466), a request of the host at most 512 bytes of payload and 4,096 of read (R428). -/
def check : Instr → Bool
  | .alignComplete _ lanes => lanes.length == 4
  | .sequencedFlitReceive _ f rs => f.length == 160 && rs.length == 4
  | .converterSample _ x => x.rails.length == 2
  | .thermalSample ts => ts.length == 13
  | .fabsend _ _ _ bs => payloadOk (2 + bs.length)
  | .regwr _ _ _ vs => payloadOk (6 + 8 * vs.length)
  | .memwr _ _ _ ws => payloadOk (6 + 9 * ws.length)
  | .aload _ _ _ _ _ vs => payloadOk (5 + 8 * vs.length)
  | .imgload _ _ _ bs => payloadOk (4 + bs.length)
  | .scrload _ _ _ code => payloadOk (3 + code.length)
  | .binprog _ _ _ _ ws => payloadOk (5 + 4 * ws.length)
  | .statewr _ _ _ _ _ _ ws => payloadOk (5 + 9 * ws.length)
  | .hostBar2Write _ bs _ => decide (1 ≤ bs.length) && decide (bs.length ≤ 512)
  | .hostBar2Read _ n _ => decide (1 ≤ n) && decide (n ≤ 4096)
  | .msg _ p | .rload _ p | .rcell _ p | .rstore _ p | .rcas _ p | .rswap _ p | .rfadd _ p | .lease _ p
  | .rdata _ p | .rack _ p | .rerr _ p | .bans _ p | .fnak _ p | .disc _ p | .join _ p | .assign _ p
  | .rtupd _ p | .resync _ p | .rsack _ p | .epoch _ p | .rcmd _ p | .rrpl _ p | .nboot _ p => packetOk p
  | _ => true

end Sys2Proof.WellFormed
end

