-- ==== Sys2Proof/Tests/Slice0.lean ====
section
/-! SUPPORT. Tests of the model on fixed values: the ill-formed commands that WellFormed refuses, states and operands that
meet the hypotheses of each statement of the obligations, and single steps whose results the manual gives. -/

open Sys2Proof Sys2Proof.Machine Sys2Proof.Safety

namespace Sys2Proof.Tests

-- One theorem at a time: each check holds its own copies of the states that it evaluates.
set_option Elab.async false

/-- The computation answers `a` and leaves the state `s`. -/
def same {α : Type} [DecidableEq α] (r : EStateM.Result Exc State α) (a : α) (s : State) : Bool :=
  match r with
  | .ok x t => decide (x = a) && decide (t = s)
  | .error _ _ => false

theorem same_eq {α : Type} [DecidableEq α] {r : EStateM.Result Exc State α} {a : α} {s : State}
    (h : same r a s = true) : r = .ok a s := by
  unfold same at h
  split at h
  · simp only [Bool.and_eq_true, decide_eq_true_eq] at h
    rw [h.1, h.2]
  · cases h

/-- The state that a computation leaves, and whether it answers `a`. -/
def after {α : Type} (r : EStateM.Result Exc State α) : State :=
  match r with
  | .ok _ t => t
  | .error _ t => t
def gives {α : Type} [DecidableEq α] (r : EStateM.Result Exc State α) (a : α) : Bool :=
  match r with
  | .ok x _ => decide (x = a)
  | .error _ _ => false

theorem gives_ok {α : Type} [DecidableEq α] {r : EStateM.Result Exc State α} {a : α} (h : gives r a = true) :
    r = .ok a (after r) := by
  unfold gives at h
  split at h
  · rw [of_decide_eq_true h]; rfl
  · cases h

/-- The computation faults with `e` and leaves the state `s`. -/
def stops {α : Type} (r : EStateM.Result Exc State α) (e : Exc) (s : State) : Bool :=
  match r with
  | .ok _ _ => false
  | .error x t => decide (x = e) && decide (t = s)

theorem stops_eq {α : Type} {r : EStateM.Result Exc State α} {e : Exc} {s : State} (h : stops r e s = true) :
    r = .error e s := by
  unfold stops at h
  split at h
  · cases h
  · simp only [Bool.and_eq_true, decide_eq_true_eq] at h
    rw [h.1, h.2]

/-- A result that is no error, and what it holds. -/
def okay {ε α : Type} (r : Except ε α) : Bool :=
  match r with
  | .ok _ => true
  | .error _ => false

theorem okay_ex {ε α : Type} {r : Except ε α} (h : okay r = true) : ∃ t, r = .ok t := by
  unfold okay at h
  split at h
  · exact ⟨_, rfl⟩
  · cases h

/-- A line of RAW words, for instructions and data. -/
def rawLine (v : Nat) : Line := { words := (List.range 8).map fun i => rawWord (v64 (v + i)) }

/-- A line that an agent holds in state M for the secure world. -/
def mine (l : Line) : AgentLine := ⟨.m, false, l⟩

/-- Core 0 runs bank 0 at address 0 with the given registers; it holds granules 0 (code), 1 and 2 (the given words). -/
def running (gr : Tbl Word) (l1 : Line := rawLine 0) (l2 : Line := rawLine 16) : State := { State.reset with
  cores := [(0, { run := some 0, l1i := [⟨0, false, 0⟩], l1d := [⟨0, false, 0⟩, ⟨1, false, 0⟩, ⟨2, false, 0⟩] })]
  banks := [(0, { st := 2, gr := gr })]
  mem := { lines := [(0, some (mine (rawLine 0))), (1, some (mine l1)), (2, some (mine l2))] } }

/-- The state with the instruction word of `e` at address 0, where core 0 fetches it. -/
def coded (e : Enc) (s : State) : State :=
  s.setAgLine 0 0 ((s.agLine 0 0).map fun x =>
    { x with line := { x.line with words := x.line.words.set 0 (rawWord (v64 e.word)) } })

/-- The parts of `Issued` for a bank that fetches from its cache, where the fetch and the dispatch change nothing. -/
def issued (s : State) (c : Nat) (b : Fin 4) (e : Enc) : Bool :=
  decide (s.issuable c = some b) && decide (s.pendingItem c b = none) && same (prelude (s.ctx c b) e s) () s &&
    decide (s.pairMode (pairOf c) ≠ 2) && decide (kindOne s c (keyOf e.word) = none)

theorem issued_ok {s : State} {c : Nat} {b : Fin 4} {e : Enc} (h : issued s c b e = true) : Issued s c b e s := by
  simp only [issued, Bool.and_eq_true, decide_eq_true_eq] at h
  exact ⟨h.1.1.1.1, h.1.1.1.2, same_eq h.1.1.2, h.1.2, h.2⟩

/-- `Issued` where the prelude leaves a state of its own. -/
def issues (s : State) (c : Nat) (b : Fin 4) (e : Enc) : Bool :=
  decide (s.issuable c = some b) && decide (s.pendingItem c b = none) && gives (prelude (s.ctx c b) e s) () &&
    decide (s.pairMode (pairOf c) ≠ 2) && decide (kindOne (after (prelude (s.ctx c b) e s)) c (keyOf e.word) = none)

theorem issues_ok {s : State} {c : Nat} {b : Fin 4} {e : Enc} (h : issues s c b e = true) :
    Issued s c b e (after (prelude (s.ctx c b) e s)) := by
  simp only [issues, Bool.and_eq_true, decide_eq_true_eq] at h
  exact ⟨h.1.1.1.1, h.1.1.1.2, gives_ok h.1.1.2, h.1.2, h.2⟩

/-- Core 0 with the words `x` and `y` in registers 1 and 2. -/
def ops (x y : Word) : State := running [(1, x), (2, y)]

/-- `e` is issued by bank 0 of core 0 with `x` and `y` in its registers 1 and 2. -/
def ready2 (s : State) (x y : Word) (e : Enc) : Bool :=
  issued s 0 0 e && decide (Src s 0 0 1 x ∧ Src s 0 0 2 y)

theorem ready2_ok {s : State} {x y : Word} {e : Enc} (h : ready2 s x y e = true) :
    Issued s 0 0 e s ∧ Src s 0 0 1 x ∧ Src s 0 0 2 y := by
  simp only [ready2, Bool.and_eq_true, decide_eq_true_eq] at h
  exact ⟨issued_ok h.1, h.2.1, h.2.2⟩

/-- Each of the instructions is issued so, with its own word at address 0. -/
def each2 (s : State) (x y : Word) (es : List Enc) : Bool := es.all fun e => ready2 (coded e s) x y e

/-- Operand forms: rd, rs1 and rs2; rd and rs1; rs1 and rs2; rs1; none; rd, rs1 and an immediate. -/
def f3 : TForm := ⟨3, 1, 2, 0⟩
def f2 : TForm := ⟨3, 1, 0, 0⟩
def fS : TForm := ⟨0, 1, 2, 0⟩
def f1 : TForm := ⟨0, 1, 0, 0⟩
def f0 : TForm := ⟨0, 0, 0, 0⟩
def g3 : IForm := ⟨3, 1, 0x7FF⟩

/-- O5. -/
theorem witness_FixRawArithmetic :
    (let s := ops (fixWord 0x7FFFFFFFFFFFF800) (fixWord 0)
     each2 s (fixWord 0x7FFFFFFFFFFFF800) (fixWord 0)
       [aEnc 0x01 0x02 0 (.t f3) 12, aEnc 0x01 0x02 1 (.t f3) 12, aEnc 0x01 0x02 0 (.i g3) 12, aEnc 0x01 0x02 1 (.i g3) 12] ∧
     inFix ((0x7FFFFFFFFFFFF800 : Val).toInt + (0 : Val).toInt) = true ∧
     inFix ((0x7FFFFFFFFFFFF800 : Val).toInt - (0 : Val).toInt) = true ∧
     inFix ((0x7FFFFFFFFFFFF800 : Val).toInt + g3.imm.toInt) = true ∧
     inFix ((0x7FFFFFFFFFFFF800 : Val).toInt - g3.imm.toInt) = true) ∧
    each2 (ops (rawWord (-1)) (rawWord (-1))) (rawWord (-1)) (rawWord (-1))
      [aEnc 0x01 0x02 2 (.t f3) 12, aEnc 0x01 0x02 3 (.t f3) 12, aEnc 0x01 0x02 2 (.i g3) 12, aEnc 0x01 0x02 3 (.i g3) 12] := by
  decide +kernel

/-- O5, the logic and the shifts. -/
theorem witness_LogicAndShifts :
    each2 (ops (mkWord tyFIX 6) (mkWord tyFIX 10)) (mkWord tyFIX 6) (mkWord tyFIX 10)
      ([4, 5, 6, 7].flatMap fun n => [aEnc 0x01 0x02 n (.t f3) 12, aEnc 0x01 0x02 n (.i g3) 12]) ∧
    each2 (ops (mkWord tyRAW (-2)) (mkWord tyFIX 63)) (mkWord tyRAW (-2)) (mkWord tyFIX 63)
      ([8, 9, 10].flatMap fun n => [aEnc 0x01 0x02 n (.t f3) 6, aEnc 0x01 0x02 n (.i ⟨3, 1, 63⟩) 6]) := by
  decide +kernel

/-- O6. -/
theorem witness_Compares :
    each2 (ops nilWord trueWord) nilWord trueWord (iEnc 0x05 6 ⟨3, 1, 63⟩ true true 6 ::
      [0, 1].flatMap fun n => [aEnc 0x04 0x05 n (.t f3) 12, aEnc 0x04 0x05 n (.i g3) 12]) ∧
    each2 (ops (fixWord (-1)) (fixWord 1)) (fixWord (-1)) (fixWord 1)
      ([2, 3, 4, 5].flatMap fun n => [aEnc 0x04 0x05 n (.t f3) 12, aEnc 0x04 0x05 n (.i g3) 12]) ∧
    each2 (ops (floWord 0x3FF8000000000000) (floWord 0x3FE0000000000000)) (floWord 0x3FF8000000000000)
      (floWord 0x3FE0000000000000) ([8, 9, 10, 11].map fun n => tEnc 0x04 n f3 true true true 0) := by decide +kernel

/-- O6: FLO values 1.5 and 0.5 are exact in every operation of the statement but the root, which has 2.25. -/
theorem witness_FloArithmetic :
    (each2 (ops (floWord 0x3FF8000000000000) (floWord 0x3FE0000000000000)) (floWord 0x3FF8000000000000)
      (floWord 0x3FE0000000000000) ([0, 1, 2, 3].map fun n => tEnc 0x03 n f3 true true true 0) ∧
      (flAdd 0x3FF8000000000000 0x3FE0000000000000).why = 0 ∧ (flSub 0x3FF8000000000000 0x3FE0000000000000).why = 0 ∧
      (flMul 0x3FF8000000000000 0x3FE0000000000000).why = 0 ∧ (flDiv 0x3FF8000000000000 0x3FE0000000000000).why = 0) ∧
    (each2 (ops (floWord 0x4002000000000000) nilWord) (floWord 0x4002000000000000) nilWord
      ([4, 5, 6, 8].map fun n => tEnc 0x03 n f2 true true false 0) ∧ (flSqrt 0x4002000000000000).why = 0 ∧
      flToFix 0x4002000000000000 = some 2) ∧
    each2 (ops (fixWord (-1)) nilWord) (fixWord (-1)) nilWord [tEnc 0x03 7 f2 true true false 0] := by decide +kernel

theorem witness_truncation : ∃ neg m e, flDecode 0x4002000000000000 = .fin neg m e ∧ flTrunc neg m e = 2 :=
  ⟨_, _, _, rfl, by decide +kernel⟩

/-- Core 0 with the operands and STATUS.P and IMPP as given. -/
def opsP (p impp : Bool) (x y : Word) : State :=
  (ops x y).modBank 0 0 fun k => { k with status := { k.status with p := p, impp := impp } }

/-- O7: overflows of FIX, and FLO operands of each instruction with a reason, under each setting of P and IMPP. -/
theorem witness_ArithmeticConditions : ∀ p q : Bool,
    (let x := fixWord 0x7FFFFFFFFFFFFFFF
     each2 (opsP p q x (fixWord 1)) x (fixWord 1) [aEnc 0x01 0x02 0 (.t f3) 12] ∧ ¬ inFix (x.val.toInt + 1)) ∧
    (let x := fixWord 0x8000000000000000
     each2 (opsP p q x (fixWord 1)) x (fixWord 1) [aEnc 0x01 0x02 1 (.t f3) 12] ∧ ¬ inFix (x.val.toInt - 1)) ∧
    (let x := floWord 0x7FEFFFFFFFFFFFFF
     let y := floWord 0xFFEFFFFFFFFFFFFF
     each2 (opsP p q x x) x x ([0, 2].map fun n => tEnc 0x03 n f3 true true true 0) ∧
       each2 (opsP p q x y) x y [tEnc 0x03 1 f3 true true true 0] ∧
       each2 (opsP p q x (floWord 0)) x (floWord 0) [tEnc 0x03 3 f3 true true true 0] ∧
       each2 (opsP p q x nilWord) x nilWord [tEnc 0x03 8 f2 true true false 0] ∧
       (flAdd x.val x.val).why ≠ 0 ∧ (flSub x.val y.val).why ≠ 0 ∧ (flMul x.val x.val).why ≠ 0 ∧
       (flDiv x.val 0).why ≠ 0 ∧ flToFix x.val = none) ∧
    (let x := floWord 0xBFF0000000000000
     each2 (opsP p q x nilWord) x nilWord [tEnc 0x03 4 f2 true true false 0] ∧ (flSqrt x.val).why ≠ 0) := by
  decide +kernel

/-- O8. -/
theorem witness_Branches :
    each2 (ops (fixWord 0) nilWord) (fixWord 0) nilWord (bEnc 0x10 0 ⟨0, 0xFFFF⟩ false ::
      ([1, 2, 3, 4, 5, 6].map fun n => bEnc 0x10 n ⟨1, 0x10000⟩ true) ++ [1, 2].map fun n => bEnc 0x10 n ⟨2, 1⟩ true) := by
  decide +kernel

/-- O8: a word made RAW at the supervisor level, a FIX made a CODE of the user's own, and a pointer made weak. -/
theorem witness_MovesAndTags :
    each2 (ops trueWord nilWord) trueWord nilWord
      [tEnc 0x06 0 f2 true true false 0, tEnc 0x06 2 f2 true true false 0, iEnc 0x06 8 ⟨3, 0, 0x800⟩ true false 12] ∧
    (let s := ops (fixWord 5) (fixWord 0x16)
     let r := rawWord 5
     each2 s (fixWord 5) (fixWord 0x16) [iEnc 0x06 9 ⟨3, 1, 0x16⟩ true true 8, tEnc 0x06 1 f3 true true true 0] ∧
       s.reservedType r.type = false ∧ r.type ≠ tyFORWARD ∧ s.malformed r = false ∧ (s.bank 0 0).status.lvl = true ∧
       r.tag = (0x16 : BitVec 12).setWidth 8 ∧ r.tag = (0x16 : Val).setWidth 8) := by decide +kernel

/-- O9: -6 and 4 under FIX and RAW; no result waiting, one that has come and one that has not, of each pair. -/
theorem witness_MultiplyDivide :
    each2 (ops (mkWord tyFIX (-6)) (mkWord tyRAW 4)) (mkWord tyFIX (-6)) (mkWord tyRAW 4)
      ([0, 1, 2, 3].map fun n => tEnc 0x07 n fS false true true 0) ∧
    (let s := { running [] with cycle := 10 }
     (s.bank 0 0).pend = [] ∧ ∀ d : Bool,
       let u := s.modBank 0 0 fun k => { k with pend := [⟨d, 1, 2, 4⟩, ⟨d, 5, 6, 11⟩] }
       (u.bank 0 0).pend = [] ++ ⟨d, 1, 2, 4⟩ :: [⟨d, 5, 6, 11⟩] ∧ 4 ≤ u.cycle ∧
         (∀ q ∈ ([⟨d, 5, 6, 11⟩] : List PendMD), q.div = d → u.cycle < q.due) ∧
         (∀ p ∈ (u.bank 0 0).pend, p.div = !d → u.cycle < p.due)) := by decide +kernel

/-- O10. -/
theorem witness_DivisionCorners :
    each2 (ops (mkWord tyRAW 7) (mkWord tyFIX 0)) (mkWord tyRAW 7) (mkWord tyFIX 0)
      ([2, 3].map fun n => tEnc 0x07 n fS false true true 0) ∧
    (let s := ops (mkWord tyFIX 0x8000000000000000) (mkWord tyFIX (-1))
     each2 s (mkWord tyFIX 0x8000000000000000) (mkWord tyFIX (-1)) [tEnc 0x07 2 fS false true true 0] ∧
       (s.bank 0 0).pend = []) := by decide +kernel

/-- Core 0 at the user level with translation on and page 0 mapped to itself. -/
def user (gr : Tbl Word) : State :=
  let t : TlbEntry := ⟨false, 0, true, 0, 4096, 0, .cacheable, 0, true, true, true, true⟩
  ((running gr).modBank 0 0 fun k => { k with ttb := 1, status := { k.status with lvl := false } }).modCore 0
    fun x => { x with itlb := [t], dtlb := [t] }

/-- O3: the conditions of an issue from the cache at both halves of the last word of a granule; a word of another tag. -/
theorem witness_FetchFromTheCache :
    (∀ pc ∈ [56, 60], let s := (running []).modBank 0 0 fun k => { k with pc := v64 pc }
     let x := mine (rawLine 0x0000000700000000)
     let s := s.setAgLine 0 0 (some x)
     CodeQuiet s 0 0 ∧ bit (s.bank 0 0).ttb 0 = false ∧ (s.bank 0 0).status.lvl = true ∧ s.inDram pc = true ∧
       s.agLine 0 0 = some x ∧ s.mem.upL2.contains (0, 0) = false ∧ s.mem.upL1.contains (0, 0, 0) = false ∧
       ((s.core 0).l1i.any fun l => l.gran == 0 && l.world == false && (s.l1Ways 0 true).contains l.way) = true ∧
       x.line.poison = false ∧ (x.line.word 7).tag = 0x16 ∧
       bits (x.line.word 7).val (8 * (pc % 8) + 31) (8 * (pc % 8)) = 7) ∧
    (let s := coded (iEnc 0x06 8 ⟨3, 0, 0⟩ true false 12) (running [])
     let e := iEnc 0x06 8 ⟨3, 0, 0⟩ true false 12
     s.issuable 0 = some 0 ∧ s.pendingItem 0 0 = none ∧ goesOn (s.bank 0 0) = none ∧ (12, 2, keyOf e.word) ∉ s.csBad ∧
       s.dentV 0 (keyOf e.word) = true ∧ e.resv = false ∧ s.pairMode 0 ≠ 2 ∧ kindOne s 0 (keyOf e.word) = none ∧
       bits (((s.agLine 0 0).getD (mine (rawLine 0))).line.word 0).val 31 0 = e.word) ∧
    (let s := (running []).setAgLine 0 0 (some (mine { words := [nilWord] }))
     (((s.agLine 0 0).getD (mine (rawLine 0))).line.word 0).tag ≠ 0x16) := by decide +kernel

/-- O3: each check of the dispatch of the word at 0, a word that is not the command's, and a bank that goes on. -/
theorem witness_DispatchChecks :
    (∀ s ∈ [running [], user []], ∀ e ∈ [tEnc 0x06 0 f3 true true false 0, ⟨encT 0x06 15 f3, false⟩,
        tEnc 0x15 0 f0 false false false 0, iEnc 0x06 8 ⟨3, 0, 0⟩ true false 12],
      let t := coded e s
      goesOn (t.bank 0 0) = none ∧ same (instrBreak (t.ctx 0 0) t) () t ∧ same (fetch (t.ctx 0 0) t) e.word t ∧
        t.csCheck 0 false 12 2 (keyOf e.word) = t) ∧
    (let s := running []
     (tEnc 0x06 0 f3 true true false 0).resv = true ∧ s.dentV 0 (keyOf (encT 0x06 0 f3)) = true ∧
       s.dentV 0 (keyOf (encT 0x06 15 f3)) = false ∧ s.dentV 0 (keyOf (encT 0x15 0 f0)) = true ∧
       (tEnc 0x15 0 f0 false false false 0).resv = false ∧ s.dentS 0 (keyOf (encT 0x15 0 f0)) = true ∧
       ((user []).ctx 0 0).lvl = false ∧ encT 0x15 0 f0 ≠ encI 0x06 8 ⟨3, 0, 0⟩) ∧
    (let s := (running []).modBank 0 0 fun k => { k with wait := some { cause := 3, key := 0, iw := some 7 } }
     goesOn (s.bank 0 0) = some 7) := by decide +kernel

/-- O4: a machine check, an imprecise exception that is due and an interrupt are pending items that a bank takes; a bank
without one, and a core that issues nothing. -/
theorem witness_BoundaryItems :
    (let s := (running []).modBank 0 0 fun k => { k with status := { k.status with ml := 0 } }
     let m := s.modCore 0 fun x => { x with mchk0 := [5] }
     let i := s.modBank 0 0 fun k =>
       { k with status := { k.status with impp := true }, impCount := 33, impReason := 1 }
     let t := (s.setReg (worldRegs 0 0 + 8) 2).setReg (worldRegs 0 0) 0x1000
     (∀ p ∈ [(m, Item.mchk 5), (i, .imprecise), (t, .int 1 1 0)],
       p.1.issuable 0 = some 0 ∧ p.1.pendingItem 0 0 = some p.2 ∧ (p.1.takeItem 0 0 p.2).isSome = true) ∧
     s.issuable 0 = some 0 ∧ s.pendingItem 0 0 = none) ∧ State.reset.issuable 0 = none := by decide +kernel

/-- O4, the last clause: trap entry for each kind of item ends with the core not frozen. -/
theorem witness_ItemEntry :
    let s := (running []).modBank 0 0 fun k => { k with status := { k.status with ml := 0 } }
    ∀ r ∈ [s.trapEntry 0 0 0x11 0 5 0 false, s.trapEntry 0 0 0x05 0 (v64 (s.bank 0 0).impReason) 0 true,
        s.trapEntry 0 0 0x12 1 (v64 (2 ^ 12)) 0 false],
      (r.any fun u => !(u.core 0).frozen) = true := by decide +kernel

/-- A REMOTE of node 7. -/
def far : Word := mkWord tyREMOTE (v64 (7 * 2 ^ 48 + 5 * 2 ^ 15 + 3))

/-- A state with transaction 3 out, or answered with `r`. -/
def future (busy : Bool) (r : WaitResult) : State := (running []).setOtt 3 { busy := busy, res := r, ref := far }

/-- O11: an address of each kind, and a FUTURE that is out, answered and failed. -/
theorem witness_AddressOperands :
    ((rawWord 0).type ≠ tyFUTURE ∧ (rawWord 0).type = tyRAW ∧ State.reset.isPtr (mkWord tyCONS 0).type = true ∧
      far.type = tyREMOTE ∧ (fixWord 0).type ≠ tyFUTURE ∧
      ¬ (State.reset.isPtr (fixWord 0).type = true ∨ (fixWord 0).type = tyRAW)) ∧
    (let o (s : State) : Ott := s.ott (bits (3 : Val) 16 0)
     (o (future false (.word (rawWord 8)))).busy = false ∧ (o (future false (.word (rawWord 8)))).res = .word (rawWord 8) ∧
      (o (future true .none)).busy = true ∧ (o (future false (.error 9))).busy = false ∧
      (o (future false (.error 9))).res = .error 9) ∧
    (mkWord tyFUTURE 3).type = tyFUTURE := by decide +kernel

/-- O11: loads of each size from granule 1 and from a REMOTE. -/
theorem witness_Loads :
    (∀ e ∈ mEnc 0x08 0 ⟨3, 1, 7⟩ true :: [1, 2, 3, 4, 5, 6].map fun n => mEnc 0x08 n ⟨3, 1, 1⟩ true,
      let s := coded e (ops (rawWord 64) nilWord)
      ready2 s (rawWord 64) nilWord e ∧ (rawWord 64).type ≠ tyREMOTE ∧
        (∀ r : Bool, same (addrOp (s.ctx 0 0) 1 (rawWord 64) r s) (rawWord 64) s) ∧
        same (loadWord (s.ctx 0 0) (64 + 7 * 8) mtAny false s) (rawWord 7) s ∧
        ∀ p ∈ [(1, true), (1, false), (2, true), (2, false), (4, true), (4, false)],
          same (loadSub (s.ctx 0 0) (64 + v64 p.1) p.1 p.2 s) (fixWord 0) s) ∧
    (let e := mEnc 0x08 0 ⟨3, 1, 7⟩ true
     let s := coded e (ops far nilWord)
     ready2 s far nilWord e ∧ same (addrOp (s.ctx 0 0) 1 far true s) far s ∧ far.type = tyREMOTE ∧
       gives (remoteFuture (s.ctx 0 0) pRLOAD far (fixWord 7) [] s) (futureWord (s.ctx 0 0) 0)) := by decide +kernel

/-- O12: the last word of granule 1, whole and in parts, for a load and for an atomic. -/
theorem witness_AccessesThatHit :
    let s := running []
    let x := mine (rawLine 0)
    let w := x.line.word (120 / 8 % 8)
    (∀ p ∈ [(120, 8), (127, 1), (126, 2), (124, 4)], Hit s 0 0 (v64 p.1) p.2 x ∧ sbFor s 0 p.1 = []) ∧
      w = rawWord 7 ∧ s.isPtr w.type = false ∧ w.type ≠ tyFORWARD ∧ s.badWord w = none ∧ AttrSound s 0 w ∧
      w.tag = 0x16 ∧ (s.core 0).sb = [] ∧ x.st = .m ∧ x.line.words.length = 8 ∧ s.isPtr (fixWord 1).type = false := by
  decide +kernel

/-- O13: a whole word and each part stored to granule 1, and a word posted to a REMOTE. -/
theorem witness_Stores :
    (∀ e ∈ mEnc 0x09 0 ⟨2, 1, 7⟩ true :: [1, 2, 3].map fun n => mEnc 0x09 n ⟨2, 1, 1⟩ true,
      let s := coded e (ops (rawWord 64) (rawWord 9))
      ready2 s (rawWord 64) (rawWord 9) e ∧ (rawWord 64).imm = false ∧ (s.bank 0 0).status.lvl = true ∧
        (∀ r : Bool, same (addrOp (s.ctx 0 0) 1 (rawWord 64) r s) (rawWord 64) s) ∧
        gives (storeWord (s.ctx 0 0) (64 + 7 * 8) (rawWord 9) mtAny false true 2 s) () ∧
        (∀ z ∈ [1, 2, 4], gives (storeSub (s.ctx 0 0) (64 + v64 z) 9 z s) ()) ∧
        Clear s 0 0 120 ∧ (s.core 0).sb.length < 32 ∧ s.isPtr (rawWord 9).type = false) ∧
    (let e := mEnc 0x09 0 ⟨2, 1, 7⟩ true
     let s := coded e (ops far (rawWord 9))
     ready2 s far (rawWord 9) e ∧ same (addrOp (s.ctx 0 0) 1 far true s) far s ∧ far.imm = false ∧
       same (wantRemotable (rawWord 9) 2 s) () s ∧
       gives (remotePosted (s.ctx 0 0) far (fixWord 7) (rawWord 9) s) ()) := by decide +kernel

/-- A buffered store of bank 0 of core 0. -/
def buffered (w : Bool) (pa : Nat) (mt : MemType) : SBEntry :=
  { bank := 0, world := w, pa := pa, mt := mt, data := .word (rawWord 9), mrk := false, pc := 0, snap := true, pre := false,
    sup := true, tr := none }

/-- O13: the oldest store in a line that the core owns, to a register of the device window, and across the fence; a core
with none, with held stores, and of a halted pair. -/
theorem witness_StorePerform :
    let sb (e : SBEntry) : State := (running []).modCore 0 fun x => { x with sb := [e] }
    let drains (s : State) (e : SBEntry) : Prop := (s.core 0).sb = e :: [] ∧ (s.core 0).sbHeld = false ∧ s.pairMode 0 ≠ 3
    let who (e : SBEntry) : Who := { reeve := false, c := 0, b := e.bank, w := e.world, sup := e.sup }
    (running []).gcPhase false ≠ 1 ∧ ((running []).core 0).sb = [] ∧
    (let e := buffered false 120 .cacheable
     let s := sb e
     drains s e ∧ s.mem.upL2.contains (0, 1) = false ∧ s.agLine 0 1 = some (mine (rawLine 0)) ∧
       (∀ p ∈ s.banks, p.2.wait = none)) ∧
    (let e := buffered false (0xF000000000 + worldRegs 0 0 + 8) .device
     drains (sb e) e ∧ e.data = .word (rawWord 9) ∧ (sb e).regViolation (who e) (worldRegs 0 0 + 8) true = false) ∧
    (let e := buffered true (0xF000000000 + worldRegs 0 0) .device
     drains (sb e) e ∧ ((sb e).core 0).frozen = false ∧ (sb e).regViolation (who e) (worldRegs 0 0) true = true) ∧
    (∀ mt ∈ [MemType.uncached, .bin], let e := buffered true 120 mt
     drains (sb e) e ∧ (sb e).fenceOwner e.pa ≠ wn e.world) ∧
    (let s := (running []).modCore 0 fun x => { x with sbHeld := true }
     (s.core 0).sbHeld = true) ∧
    ((running []).setReg (pairBase 0) 3).pairMode 0 = 3 := by decide +kernel

/-- A line that begins with the given words. -/
def wordsLine (l : List Word) : Line := { words := l ++ List.replicate (8 - l.length) (rawWord 0) }

/-- An STM or LDM with a 9-bit displacement of `d` words, from a base such that it begins at granule 1. -/
def moveAt (n : Nat) (d : BitVec 12) : Enc := mEnc 0x0A n ⟨2, 1, d⟩ true
def moveBase (d : BitVec 12) : Word := rawWord (64 - (d.setWidth 9).signExtend 64 * 8)
def moving (n : Nat) (d : BitVec 12) : State := coded (moveAt n d) (ops (moveBase d) (fixWord 0x38))

/-- O14: STM and LDM of registers 3 to 5 under the ends of the displacement. -/
theorem witness_MultipleTransfers :
    ∀ d ∈ [(0x0FF : BitVec 12), 0x100, 0], ∀ n ∈ [0, 1],
      let s := moving n d
      let loc (i : Nat) : RLoc := maskLoc (s.core 0).inEsc (s.bank 0 0).status.cwp.toNat (d.toNat / 512) i
      ready2 s (moveBase d) (fixWord 0x38) (moveAt n d) ∧ maskSpecs (0x38 : Val) = [3, 4, 5] ∧ (moveBase d).imm = false ∧
        (s.bank 0 0).status.lvl = true ∧ same (addrOp (s.ctx 0 0) 1 (moveBase d) false s) (moveBase d) s ∧
        (s.core 0).sb = [] ∧
        (∀ i ∈ [3, 4, 5], loc i ≠ s.loc 0 0 1 ∧ loc i ≠ s.loc 0 0 2 ∧ s.isPtr (s.opLoc 0 0 (loc i)).type = false) ∧
        gives (touchPages (s.ctx 0 0) 64 3 mtNoDev s) () ∧
        gives (stmGo (s.ctx 0 0) (d.toNat / 512) [3, 4, 5] 64 (after (touchPages (s.ctx 0 0) 64 3 mtNoDev s))) () ∧
        gives (ldmGo (s.ctx 0 0) (d.toNat / 512) [3, 4, 5] 64 s) () := by decide +kernel

/-- O14: the same, on plain memory that the core holds. -/
theorem witness_TransfersOnPlainMemory :
    ∀ d ∈ [(0x0FF : BitVec 12), 0x100, 0], ∀ n ∈ [0, 1], ∀ k ∈ [0, 1, 2],
      let s := moving n d
      let a : Val := (moveBase d).val + (d.setWidth 9).signExtend 64 * 8 + 8 * BitVec.ofNat 64 k
      let w := (rawLine 0).word (a.toNat / 8 % 8)
      a = 64 + 8 * BitVec.ofNat 64 k ∧ Clear s 0 0 a ∧ Hit s 0 0 a 8 (mine (rawLine 0)) ∧ sbFor s 0 a.toNat = [] ∧
        s.isPtr w.type = false ∧ w.type ≠ tyFORWARD := by decide +kernel

/-- O14: a prefetch that happens, one of a bad word, one without an address, and a hardware prefetch of each kind. -/
theorem witness_Prefetch :
    (∀ n ∈ [1, 2, 3], let e := mEnc 0x0B 0 ⟨0, n, 1⟩ false
     let s := coded e (running [(1, rawWord 64), (2, mkWord 0x06 0), (3, rawWord (2 ^ 47))])
     issued s 0 0 e ∧ s.rdReg 0 0 1 = rawWord 64 ∧ (s.badWord (s.rdReg 0 0 2)).isSome = true ∧ s.badWord (rawWord 64) = none ∧
       s.badWord (s.rdReg 0 0 3) = none ∧ (rawWord 64).type = tyRAW ∧ (s.rdReg 0 0 3).type = tyRAW ∧
       same (access (s.ctx 0 0) ((64 + 8) &&& ~~~63) 8 .read mtC s) (64, .cacheable) s ∧
       gives (access (s.ctx 0 0) ((2 ^ 47 + 8) &&& ~~~63) 8 .read mtC s) (0, .cacheable) = false ∧
       s.issuable 0 = some 0 ∧ s.inDram (64 * 1) = true ∧ s.inDram (64 * 0x3FFFFFFFF) = false) := by decide +kernel

/-- O14: a save area of each half, and one loaded back. -/
theorem witness_SaveAreas :
    (∀ h ∈ [0, 1], let e := saveEnc 0 ⟨0, 1, BitVec.ofNat 12 (512 * h)⟩
     let s := coded e (running [(1, rawWord 64)] (wordsLine [rawWord 96]))
     let s3 := after (touchPages (s.ctx 0 0) (64 + 0x10) 17 mtNoDev s)
     let s4 := after (stmGo (s.ctx 0 0) 0 (halfSpecs h) (64 + 0x18) s3)
     ready2 s (rawWord 64) nilWord e ∧ same (loadWord (s.ctx 0 0) 64 mtNoDev false s) (rawWord 96) s ∧
       (s.core 0).sb.length + 17 ≤ 32 ∧ gives (touchPages (s.ctx 0 0) (64 + 0x10) 17 mtNoDev s) () ∧
       gives (stmGo (s.ctx 0 0) 0 (halfSpecs h) (64 + 0x18) s3) () ∧
       gives (storeWord (s.ctx 0 0) (64 + 0x10) (rawWord (v64 (16 * h + (s4.bank 0 0).status.cwp.toNat))) mtNoDev false true
         1 s4) ()) ∧
    (let e := saveEnc 1 ⟨0, 1, 0⟩
     let s := coded e (running [(1, rawWord 64)] (wordsLine [rawWord 0, rawWord 64, rawWord 0]))
     ready2 s (rawWord 64) nilWord e ∧ (∀ i ∈ halfSpecs 0, s.loc 0 0 i ≠ s.loc 0 0 1) ∧ bits (0 : Val) 4 4 = 0 ∧
       same (loadWord (s.ctx 0 0) (64 + 8) mtNoDev false s) (rawWord 64) s ∧
       same (loadWord (s.ctx 0 0) (64 + 0x10) mtNoDev false s) (rawWord 0) s ∧
       gives (ldmGo (s.ctx 0 0) 0 (halfSpecs 0) (64 + 0x18) s) ()) := by decide +kernel

/-- O15: each atomic on granule 1, CAS with an equal and an unequal word, STCN with and without the reservation. -/
theorem witness_Atomics :
    ∀ e ∈ mEnc 0x0C 0 ⟨3, 1, 0⟩ true :: ([1, 2, 3, 4].flatMap fun n =>
        [tEnc 0x0C n f3 true true true 0, tEnc 0x0C n ⟨4, 1, 2, 0⟩ true true true 0]),
      ∀ v ∈ [none, some 1],
      let s := coded e (running [(1, rawWord 64), (2, fixWord 9), (3, fixWord 5), (4, fixWord 6)] (wordsLine [fixWord 5]))
      let s := s.modBank 0 0 fun k => { k with resv := v }
      ready2 s (rawWord 64) (fixWord 9) e ∧ Src s 0 0 3 (fixWord 5) ∧ Src s 0 0 4 (fixWord 6) ∧
        (∀ r : Bool, same (addrOp (s.ctx 0 0) 1 (rawWord 64) r s) (rawWord 64) s) ∧ (rawWord 64).imm = false ∧
        same (access (s.ctx 0 0) 64 8 .write mtC s) (64, .cacheable) s ∧ DataQuiet s 0 0 ∧ (s.core 0).sb = [] ∧
        (fixWord 9).type ≠ tyHEADER ∧ s.fenceOwner 64 = wn (s.bank 0 0).status.wld ∧ s.peekPoison 64 .cacheable = false ∧
        ((s.bank 0 0).resv = some (64 / 64) ↔ v = some 1) ∧ inFix ((5 : Val).toInt + (9 : Val).toInt) = true ∧
        same (atomicRead (s.ctx 0 0) 64 s) (64, fixWord 5) s ∧ same (lineOwn (s.ctx 0 0) 64 64 s) (fixWord 5) s ∧
        ∀ x ∈ [fixWord 9, fixWord 14], gives (atomicWrite (s.ctx 0 0) 64 64 (fixWord 5) x s) () := by decide +kernel

/-- O15: the three atomics that take a REMOTE. -/
theorem witness_RemoteAtomics :
    ∀ e ∈ [2, 3, 4].map fun n => tEnc 0x0C n f3 true true true 0,
      let s := coded e (running [(1, far), (2, fixWord 9), (3, fixWord 5)])
      ready2 s far (fixWord 9) e ∧ Src s 0 0 3 (fixWord 5) ∧ far.imm = false ∧ far.type = tyREMOTE ∧
        (s.core 0).sb = [] ∧ same (addrOp (s.ctx 0 0) 1 far true s) far s ∧
        same (wantRemotable (fixWord 5) 3 s) () s ∧ same (wantRemotable (fixWord 9) 2 s) () s ∧
        ∀ p ∈ [(pRCAS, [fixWord 5, fixWord 9]), (pRSWAP, [fixWord 9]), (pRFADD, [fixWord 9])],
          gives (remoteFuture (s.ctx 0 0) p.1 far (fixWord 0) p.2 s) (futureWord (s.ctx 0 0) 0) := by decide +kernel

/-- Core 0 in window `w` with the word `x` in register 1. -/
def inWindow (w : BitVec 3) (x : Word) : State :=
  (ops x nilWord).modBank 0 0 fun k => { k with status := { k.status with cwp := w } }

/-- O16: TWP is 7; the windows on each side of each bound, and a tag that is neither FIX nor RAW. -/
theorem witness_SaveAndRestore :
    (∀ w ∈ [0, 1, 5, 6, 7], ∀ x ∈ [fixWord 3, rawWord 3, nilWord],
      each2 (inWindow w x) x nilWord [iEnc 0x13 0 g3 true true 12, iEnc 0x13 1 g3 true true 12]) ∧
    (State.reset.bank 0 0).twp = 7 := by decide +kernel

/-- O17: a link of the current window, of the window below, there and at TWP, of another window, and another tag. -/
theorem witness_ReturnFromCall :
    ∀ p ∈ [((1 : BitVec 3), mkWord tyRETLINK (2 ^ 48 + 0x100)), (1, mkWord tyRETLINK 0x100),
        (0, mkWord tyRETLINK (7 * 2 ^ 48 + 0x100)), (1, mkWord tyRETLINK (5 * 2 ^ 48 + 0x100)), (1, nilWord)],
      each2 (inWindow p.1 p.2) p.2 nilWord [tEnc 0x12 1 f1 false true false 0] := by decide +kernel

/-- O18: a jump to CODE and RAW. -/
theorem witness_CallsAndReturns :
    each2 (ops (mkWord tyCODE 0x1000) nilWord) (mkWord tyCODE 0x1000) nilWord
      [bEnc 0x11 0 ⟨0, 0x10000⟩ false, tEnc 0x12 0 ⟨15, 1, 0, 1⟩ true true false 1, tEnc 0x12 0 f1 false true false 1,
        tEnc 0x12 5 f0 false false false 0] ∧
    each2 (ops (rawWord (2 ^ 48 - 4)) nilWord) (rawWord (2 ^ 48 - 4)) nilWord
      [tEnc 0x12 0 ⟨15, 1, 0, 1⟩ true true false 1, tEnc 0x12 0 f1 false true false 1] ∧
    (0x1000 + 16 : Val).toNat < 2 ^ 48 ∧ (0x1000 + 16 : Val).toNat % 4 = 0 ∧ (2 ^ 48 - 4 : Val).toNat < 2 ^ 48 ∧
    (2 ^ 48 - 4 : Val).toNat % 4 = 0 := by decide +kernel

/-- A user bank whose gate is at 0x1040, on a page of the supervisor that maps page 0. -/
def gated (d0 : Val) : State :=
  let t : TlbEntry := ⟨false, 0, true, 0, 4096, 0, .cacheable, 0, true, true, true, true⟩
  let u : TlbEntry := ⟨false, 0, true, 1, 4096, 0, .cacheable, 0, true, true, false, true⟩
  ((running [(1, mkWord tyGATE 0x1040)] (wordsLine [rawWord d0, rawWord 0, rawWord 1])).modBank 0 0 fun k => { k with
      ttb := 1, status := { k.status with lvl := false } }).modCore 0 fun x => { x with itlb := [t], dtlb := [u, t] }

/-- O18: a gate with one argument, without and with a stack switch. -/
theorem witness_Gates :
    ∀ w ∈ [2 ^ 63 + 2 ^ 51 + 0x2000, 2 ^ 63 + 2 ^ 55 + 2 ^ 54 + 2 ^ 51 + 0x2000],
      let e := tEnc 0x12 2 f1 false true false 0
      let s := coded e (gated (v64 w))
      let d := [rawWord (v64 w), rawWord 0, rawWord 1] ++ List.replicate 5 (rawWord 0)
      let d0 := v64 w
      ready2 s (mkWord tyGATE 0x1040) nilWord e ∧ same (gateXlate (s.ctx 0 0) 0x1040 s) (0x40, .cacheable) s ∧
        same (gateWords (s.ctx 0 0) 0x1040 0x40 .cacheable [0, 1, 2, 3, 4, 5, 6, 7] s) d s ∧ (∀ x ∈ d, x.tag = 0x16) ∧
        bit d0 63 = true ∧ bits d0 62 56 = 0 ∧ bits d0 50 48 = 0 ∧ bits d0 1 0 = 0 ∧ bits d0 53 51 = 1 ∧
        Src s 0 0 8 (s.rdReg 0 0 8) ∧ bit (d.getD 2 nilWord).val (s.rdReg 0 0 8).type = true ∧
        (s.bank 0 0).status.lvl = false ∧ (s.bank 0 0).status.cwp ≠ (s.bank 0 0).twp ∧
        (s.bank 0 0).status.cwp + 1 ≠ (s.bank 0 0).twp ∧ s.tsbOf 0 0 = some 0 ∧
        gives (tsbRead (s.ctx 0 0) (0 + 64) s) (rawWord d0) := by decide +kernel

/-- O18: RETG from window 1 at each level; RFE from a TSB and from the escalation set. -/
theorem witness_TrapReturn :
    (∀ l : Bool, let e := tEnc 0x12 3 f0 false false false 0
      let t : TlbEntry := ⟨false, 0, true, 0, 4096, 0, .cacheable, 0, true, true, true, true⟩
      let s := (coded e (running [(31, mkWord tyRETLINK 0x100)])).modBank 0 0 fun k => { k with
          ttb := if l then 0 else 1, status := { k.status with cwp := 1, lvl := l } }
      let s := s.modCore 0 fun x => { x with itlb := [t] }
      issued s 0 0 e ∧ Src s 0 0 31 (mkWord tyRETLINK 0x100) ∧
        bits (0x100 : Val) 50 48 = ((s.bank 0 0).status.cwp - 1).toNat ∧ (s.bank 0 0).status.cwp - 1 ≠ (s.bank 0 0).twp) ∧
    (let e := tEnc 0x12 4 f0 false false false 0
     let ok (p v : Word) : Prop := p.tag = 0x16 ∧ v.tag = 0x16 ∧ bit v.val 31 = false ∧ bits v.val 63 32 = 0 ∧
       bits v.val 27 25 = 0 ∧ bits v.val 21 19 = 0 ∧ bits v.val 15 4 = 0 ∧ p.val.toNat < 2 ^ 48 ∧ p.val.toNat % 4 = 0
     (let s := ((coded e (running [])).setAgLine 0 8 (some (mine (rawLine 0)))).modCore 0 fun x =>
        { x with w0 := { x.w0 with tsbr := 512 } }
      let s2 := after (tsbRead (s.ctx 0 0) 512 s)
      issued s 0 0 e ∧ (s.core 0).inEsc = false ∧ s.tsbOf 0 0 = some 512 ∧ gives (tsbRead (s.ctx 0 0) 512 s) (rawWord 0) ∧
        gives (tsbRead (s.ctx 0 0) (512 + 8) s2) (rawWord 1) ∧
        ((after (tsbRead (s.ctx 0 0) (512 + 8) s2)).bank 0 0).status = (s.bank 0 0).status ∧ ok (rawWord 0) (rawWord 1)) ∧
     (let v := rawWord 0x40870001
      let s := (coded e (running [])).modCore 0 fun x => { x with inEsc := true, esc := [(8, rawWord 4), (9, v)] }
      issued s 0 0 e ∧ (s.core 0).inEsc = true ∧ Tbl.get nilWord (s.core 0).esc 8 = rawWord 4 ∧
        Tbl.get nilWord (s.core 0).esc 9 = v ∧ ok (rawWord 4) v)) := by decide +kernel

/-- O19: STATUS, PH, RSPOP and TIMEC; a product that waits, before and after its cycle. -/
theorem witness_SpecialRegisters :
    each2 (ops (rawWord 0x40000000) nilWord) (rawWord 0x40000000) nilWord
      (iEnc 0x0F 1 ⟨0, 1, 0⟩ false true 8 :: [0x00, 0x08, 0x09, 0x19, 0x28].map fun n => iEnc 0x0F 0 ⟨3, 0, n⟩ true false 8) ∧
    (∀ n ∈ [0x00, 0x08, 0x09, 0x19, 0x28], srAssigned n = true ∧ srEvc n = false) ∧
    ((running []).bank 0 0).status.lvl = true ∧
    (∀ due ∈ [0, 1], let e := iEnc 0x0F 0 ⟨3, 0, 0x08⟩ true false 8
      let s := (coded e (running [])).modBank 0 0 fun k => { k with pend := [⟨false, 1, 2, due⟩] }
      issued s 0 0 e ∧ (s.bank 0 0).pend = [⟨false, 1, 2, due⟩] ∧ (s.cycle < due ↔ due = 1)) := by decide +kernel

/-- O19: BANKWIN at its reset value names bank 0, and once a bank of the other world; a bank whose scan is due. -/
theorem witness_BankWindow :
    ∀ e ∈ [iEnc 0x0F 2 ⟨3, 0, 31⟩ true false 5, iEnc 0x0F 3 ⟨0, 1, 31⟩ false true 5],
      (let s := coded e (ops (rawWord 3) nilWord)
       ready2 s (rawWord 3) nilWord e ∧ bits (s.coreW 0 (s.bank 0 0).status.wld).bankwin 5 4 = 0 ∧
         (s.bank 0 0).scanPend = false ∧ (s.bank 0 0).flipPend = false) ∧
      (let s := (coded e (ops (rawWord 3) nilWord)).modCore 0 fun x => { x with w0 := { x.w0 with bankwin := 16 } }
       let o := s.modBank 0 1 fun k => { k with status := { k.status with wld := true } }
       let n := s.modBank 0 1 fun k => { k with scanPend := true }
       ready2 o (rawWord 3) nilWord e ∧ bits (o.coreW 0 (o.bank 0 0).status.wld).bankwin 5 4 = 1 ∧
         (o.bank 0 1).status.wld ≠ (o.bank 0 0).status.wld ∧
         ready2 n (rawWord 3) nilWord e ∧ bits (n.coreW 0 (n.bank 0 0).status.wld).bankwin 5 4 = 1 ∧
         (n.settleBank 0 1).isSome = true) := by decide +kernel

/-- O20: trap entry at ML 0 with IMPP set; then each reason for escalation. -/
theorem witness_TrapAndEscalationEntry :
    (let s := (running []).modBank 0 0 fun k => { k with status := { k.status with ml := 0, impp := true } }
     let s1 := ((((s.resend 0 0).abandon 0 0).modBank 0 0 fun k => { k with resv := none }).drainMD 0 0)
     let k := s1.bank 0 0
     k.status.ml ≠ 15 ∧ s1.tsbOf 0 0 = some 0 ∧ k.status.cwp ≠ k.twp ∧ (s1.core 0).sb = [] ∧
       okay (s1.tsbWrite 0 false 0 [k.pc, k.status.toVal, v64 (fld 8 1 + 1), 0, k.aepc, s1.bout, v64 5, v64 k.impReason])) ∧
    (∀ p ∈ [(15, 0, 0), (0, 0, 0x7FFFFFFFFF), (0, 7, 0x7FFFFFFFFF), (0, 7, 0)],
      let s := ((running []).modBank 0 0 fun k => { k with
        status := { k.status with ml := BitVec.ofNat 4 p.1, cwp := BitVec.ofNat 3 p.2.1 } }).modCore 0
          fun x => { x with w0 := { tsbr := v64 p.2.2 } }
      let s1 := (((s.resend 0 0).abandon 0 0).modBank 0 0 fun k => { k with resv := none })
      ((s1.bank 0 0).status.ml = 15 ↔ p.1 = 15) ∧ ((s1.drainMD 0 0).tsbOf 0 0 = none ↔ p.2.2 ≠ 0) ∧
        ((s1.bank 0 0).status.cwp = (s1.bank 0 0).twp ↔ p.2.1 = 7)) := by decide +kernel

/-- O21: an escape with a table and without; ESCPC - 4 at each half of a word. -/
theorem witness_EscapeEntryAndRegisters :
    ((running []).core 0).inEsc = false ∧ bits ((running []).bank 0 0).escbase 47 12 = 0 ∧
    bits (((running []).modBank 0 0 fun k => { k with escbase := 0x1000 }).bank 0 0).escbase 47 12 ≠ 0 ∧
    ∀ pc ∈ [12, 16], ∀ e ∈ [(⟨encT 0x1B 8 ⟨3, 0, 0, 2⟩, false⟩ : Enc), ⟨encT 0x1B 9 ⟨0, 1, 0, 2⟩, false⟩],
      let s := coded e ((running [(1, rawWord 5)]).modBank 0 0 fun k => { k with escpc := v64 pc })
      let a := pcOf (v64 pc - 4)
      ready2 s (rawWord 5) nilWord e ∧ (s.bank 0 0).micro = none ∧ genEntry s false (rawWord 5) = none ∧
        (∀ n ∈ [0, 1, 2], same (escSpec (s.ctx 0 0) n s) 0 s) ∧ Src s 0 0 0 nilWord ∧
        same (await (s.ctx 0 0) nilWord s) nilWord s ∧ same (await (s.ctx 0 0) (rawWord 5) s) (rawWord 5) s ∧
        bit (s.bank 0 0).ttb 0 = false ∧ (s.bank 0 0).status.lvl = true ∧ s.inDram a.toNat = true ∧
        s.mem.upL2.contains (0, 0) = false ∧ s.mem.upL1.contains (0, 0, 0) = false ∧ a.toNat % 4 = 0 ∧
        ((s.core 0).l1i.any fun l => l.gran == a.toNat / 64 && l.world == false && (s.l1Ways 0 true).contains l.way) = true ∧
        ((s.agLine 0 (a.toNat / 64)).any fun x => !(x.world) && !(x.line.poison) &&
          (x.line.word (a.toNat / 8 % 8)).tag == 0x16) = true := by decide +kernel

/-- O22: a barrier with an empty buffer and with a store of each kind in it; a wait of each kind in each mode of the pair. -/
theorem witness_Barriers :
    (∀ l ∈ [[], [buffered false 120 .cacheable], [buffered false 120 .uncached], [buffered false 120 .bin]],
      let s := (running []).modCore 0 fun x => { x with sb := l }
      ∀ n ∈ List.range 8, issued (coded (tEnc 0x0D n f0 false false false 0) s) 0 0 (tEnc 0x0D n f0 false false false 0)) ∧
    (∀ k ∈ [0, 1, 2, 3], ∀ m ∈ [0, 1],
      let s := ((running []).setPairMode 0 m).modBank 0 0 fun b => { b with wait := some { cause := 6, key := k } }
      (s.bank 0 0).wait = some { cause := 6, key := k } ∧ s.barrierDone 0 0 k = true ∧ s.pairMode (pairOf 0) = m) ∧
    (let s := ((running []).modBank 0 0 fun b => { b with wait := some { cause := 6, key := 2 } }).modCore 0
       fun x => { x with sb := [buffered false 120 .cacheable] }
     s.barrierDone 0 0 2 = false ∧ ((running []).bank 0 0).wait = none) := by decide +kernel

/-- O22: granule 1 held by its core, of another owner, with its request out, and with its line blocked; eight locks. -/
theorem witness_CacheMaintenance :
    ∀ n ∈ [8, 9, 10, 11], ∀ x ∈ [rawWord 64, rawWord 65],
      let e := tEnc 0x0D n f1 false true false 0
      let s := coded e (ops x nilWord)
      let fenced := s.setReg (rFENCED 0) 1
      let out := s.setTrans 0 1 (some .isD)
      let busy := s.setDir 1 { s.dirE 1 with blk := true }
      let full := s.modCore 0 fun y => { y with locks := (List.range 8).map fun i => 1 + 1024 * (i + 1) }
      (∀ t ∈ [s, fenced, out, busy, full], ready2 t x nilWord e ∧ x.type = tyRAW ∧ bit (t.bank 0 0).ttb 0 = false ∧
        (t.bank 0 0).status.lvl = true ∧ t.inDram x.val.toNat = true ∧ (t.core 0).sb = [] ∧
        t.agLine 0 1 = some (mine (rawLine 0)) ∧ t.mem.upL2.contains (0, 1) = false ∧ t.mem.upL1.contains (0, 1, 1) = false ∧
        ((t.core 0).l1d.any fun l => l.gran == 1 && l.world == false && (t.l1Ways 0 false).contains l.way) = true) ∧
      s.fenceOwner x.val.toNat = wn false ∧ fenced.fenceOwner x.val.toNat ≠ wn false ∧ s.missOut 0 1 = false ∧
      out.missOut 0 1 = true ∧ s.busyLine 1 = false ∧ busy.busyLine 1 = true ∧ busy.missOut 0 1 = false ∧
      s.deferred 0 1 = false ∧ (s.core 0).locks = [] ∧ 1 ∉ (full.core 0).locks ∧
      8 ≤ ((full.core 0).locks.filter fun g => g % 1024 == 1 % 1024).length := by decide +kernel

/-- A page of 2 MiB at 2^39 + 2^30 + 2 * 2^21, whose walk from root 0 goes through words 1 and 2 of granule 0. -/
def pageVa : Val := 2 ^ 39 + 2 ^ 30 + 2 * 2 ^ 21
def paged (wait : Option WaitRec) : State :=
  let l := wordsLine [rawWord 0, rawWord 1, rawWord 0x87]
  ((ops (rawWord pageVa) (fixWord 0xFFFF)).setAgLine 0 0 (some (mine l))).modBank 0 0 fun k => { k with wait := wait }

/-- O23: each instruction when nothing has been sent and when its wait is over; the lock of a page. -/
theorem witness_TlbInstructions :
    ∀ w ∈ [none, some { cause := 6, slot := 1, done := true }],
      ∀ e ∈ [tEnc 0x0E 0 f0 false false false 0, tEnc 0x0E 1 ⟨0, 2, 0, 0⟩ false true false 0, tEnc 0x0E 2 fS false true true 0,
        tEnc 0x0E 3 fS false true true 0, tEnc 0x0E 4 fS false true true 0],
      let s := coded e (paged w)
      ready2 s (rawWord pageVa) (fixWord 0xFFFF) e ∧ (s.core 0).sb = [] ∧ (s.bank 0 0).wait = w ∧
        (0xFFFF : Val).toNat < 2 ^ 16 ∧ gives (lockWalk (s.ctx 0 0) pageVa 0xFFFF s)
          (0, ⟨false, 0xFFFF, false, pageVa.toNat / 2 ^ 21, 2 ^ 21, 0, .cacheable, 0, true, true, false, true⟩) := by
  decide +kernel

/-- The broadcast that O23 speaks of. -/
def bcast (kind : Nat) (waiting : List Nat) : State :=
  { running [] with bcasts := [(4, some { kind := kind, world := false, asid := 0, va := 0, core := 0, bank := 0, waiting := waiting })] }

/-- O23: a broadcast at a core, with and without a store made through an entry that goes, and frozen; at a Winnower; at a
core whose pair is not split; and acknowledged, for a bank of each kind of pair. -/
theorem witness_TlbBroadcasts :
    (∀ k ∈ [0, 3], let s := bcast k [0, 95, 96, 107]
      let t : TlbEntry := ⟨false, 0, false, 0, 4096, 0, .cacheable, 0, true, true, true, true⟩
      let u := s.modCore 0 fun x => { x with sb := [{ buffered false 120 .cacheable with tr := some t }] }
      let x := (Tbl.get none s.bcasts 4).getD default
      Tbl.get none s.bcasts 4 = some x ∧ (∀ a ∈ [0, 95, 96, 107], a ∈ x.waiting) ∧ s.pairMode 0 = 0 ∧
        s.pairMode (pairOf 95) = 0 ∧ (s.core 0).sb = [] ∧ x.removes t = (k == 0) ∧ (u.core 0).frozen = false ∧
        (((u.modCore 0 fun y => { y with frozen := true }).core 0).frozen = true)) ∧
    (∀ m ∈ [1, 2], ((bcast 0 [0]).setPairMode 0 m).pairMode (pairOf 1) = m) ∧
    (∀ m ∈ [0, 2], let s := ((bcast 0 []).setPairMode 0 m).modBank 0 0 fun k => { k with wait := some { cause := 6, slot := 1, key := 4 } }
     let x := (Tbl.get none s.bcasts 4).getD default
     Tbl.get none s.bcasts 4 = some x ∧ x.waiting = [] ∧ x.bank < 4 ∧ s.pairMode (pairOf x.core) = m ∧
       (s.bank x.core (Fin.ofNat 4 x.bank)).wait = some { cause := 6, slot := 1, key := 4 }) := by decide +kernel

/-- The odd core of pair 0 runs bank 0 at address 0 with its own line. -/
def oddCore (e : Enc) : State :=
  let l : Line := { words := rawWord (v64 e.word) :: List.replicate 7 (rawWord 0) }
  { State.reset with
    cores := [(1, { run := some 0, l1i := [⟨0, false, 0⟩] })]
    banks := [(4, { st := 2 })]
    mem := { lines := [(agKey 1 0, some (mine l))] } }

/-- Core 0 with the word in register 1, its pair in a mode, the pair's enable, and the bank 0 and the power of core 1. -/
def pairState (x : Word) (mode en st1 : Nat) (frozen : Bool) : State :=
  ((((ops x nilWord).setPairMode 0 mode).setReg (pairBase 0 + 8) (v64 en)).modBank 1 0 fun k =>
    { k with st := BitVec.ofNat 3 st1 }).modCore 1 fun x => { x with frozen := frozen }

/-- O24: YOKE.ON from an odd core, from a mode other than split, from a pair that may not yoke, with an odd bank that runs,
with a frozen odd core, and from a pair that yokes; YOKE.OFF from a split pair. -/
theorem witness_YokeOn :
    (let e := tEnc 0x15 0 f0 false false false 0
     issued (oddCore e) 1 0 e ∧ ((oddCore e).core 1).inEsc = false) ∧
    (∀ p ∈ [(3, 1, 0, false), (0, 0, 0, false), (0, 1, 2, false), (0, 1, 0, true), (0, 1, 0, false), (0, 1, 4, false)],
      let s := pairState (rawWord 0x100) p.1 p.2.1 p.2.2.1 p.2.2.2
      (p.1 = 0 → each2 s (rawWord 0x100) nilWord [tEnc 0x15 0 f0 false false false 0, tEnc 0x15 1 f1 false true false 0]) ∧
        s.pairMode 0 = p.1 ∧ bit (s.feat 0 0 0x38) 16 = true ∧ bit (s.reg (pairBase 0 + 8)) 0 = (p.2.1 == 1) ∧
        (s.bank 1 0).st.toNat = p.2.2.1 ∧ (s.core 1).frozen = p.2.2.2 ∧ (s.core 0).inEsc = false ∧
        ((s.bank 1 0).st = 4 → (s.bank 1 0).status.wld = (s.bank 0 0).status.wld)) := by decide +kernel

/-- Core 0 and core 1 of a yoked pair at address 0, where the word of `e` stands, with `x` in register 1. -/
def yoked (e : Enc) (x : Word) : State := (coded e (ops x nilWord)).setPairMode 0 2

/-- O24: YOKE.OFF and NOPs of a yoked pair, on both cores' views; ticks with a count that is and is not a multiple, with
stores, with a hand-over and a release that can complete. -/
theorem witness_YokeOffAndTicks :
    (∀ x ∈ [mkWord tyCODE 0x100, rawWord 0x100], let e := tEnc 0x15 1 f1 false true false 0
     let s := yoked e x
     let s2 := s.freeVal.2
     let o := s2.oddView (pairOf 0)
     s.issuable 0 = some 0 ∧ s.pendingItem 0 0 = none ∧ s.pairMode (pairOf 0) = 2 ∧ same (prelude (s.ctx 0 0) e s2) () s2 ∧
       same (prelude (s.ctx 0 0) e o) () o ∧ kindOne s2 0 (keyOf e.word) = none ∧ kindOne o 0 (keyOf e.word) = none ∧
       Src s2 0 0 1 x) ∧
    ({ running [] with cycle := 255 } : State).cycle % 256 ≠ 0 ∧ ({ running [] with cycle := 256 } : State).cycle % 256 = 0 ∧
    (let s := (pairState nilWord 1 1 0 false).modCore 0 fun x => { x with sb := [buffered false 120 .cacheable] }
     (s.core (2 * 0)).sb ≠ [] ∧ s.pairMode 0 = 1) ∧
    (let s := (pairState nilWord 1 1 0 false).modPair 0 fun z => { z with handover := some 0 }
     s.pairMode 0 = 1 ∧ (s.pair 0).handover = some 0 ∧ (s.core 0).sb = [] ∧ (s.core 1).sb = [] ∧ (s.pair 0).latch = []) ∧
    (let s := pairState nilWord 2 1 0 false
     let t := s.modPair 0 fun z => { z with release := some (0, 0x100) }
     s.pairMode 0 = 2 ∧ (s.pair 0).release = none ∧ (s.pair 0).latch = [] ∧ t.pairMode 0 = 2 ∧
       (t.pair 0).release = some (0, 0x100) ∧ (t.core 0).sb = [] ∧ (t.pair 0).latch = []) := by decide +kernel

/-- O24: MOV on both cores of a yoked pair with one word of the operand; words that differ; a fault that both take. -/
theorem witness_YokedPairs :
    (let e := tEnc 0x06 0 f2 true true false 0
     let s := yoked e (fixWord 5)
     let u := s.freeVal.2
     s.issuable 0 = some 0 ∧ s.pendingItem 0 0 = none ∧ s.pairMode 0 = 2 ∧ gives (prelude (s.ctx 0 0) e u) () ∧
       gives (prelude (s.ctx 0 0) e (u.oddView 0)) () ∧ compareRuns 0 0 u u = none) ∧
    (let s := running [(1, fixWord 5)]
     let t := running [(1, fixWord 6)]
     Tbl.get nilWord (s.bank 0 0).gr 1 ≠ Tbl.get nilWord (t.bank 0 0).gr 1 ∧
       compareRuns 0 0 s t = some (1, fixWord 5, fixWord 6)) ∧
    (let s := running []
     let t := s.modBank 0 0 fun k => { k with pc := 4 }
     (s.bank 0 0).gr = (t.bank 0 0).gr ∧ (s.core 0).esc = (t.core 0).esc ∧ (s.core 0).sb = (t.core 0).sb ∧
       (s.bank 0 0).pc ≠ (t.bank 0 0).pc) ∧
    (let s := (running []).modBank 0 0 fun k => { k with status := { k.status with ml := 0 } }
     (s.takeFault 0 0 0x16 2 5 false false).isSome = true) := by decide +kernel

/-- O25: WAITE with an empty mask, with nothing pending, and with events 1 and 3 pending; ASYNC with and without a pending
exception. -/
theorem witness_EventsAndSynchronisation :
    (∀ m ∈ [0, 5, 15], each2 (ops nilWord nilWord) nilWord nilWord [iEnc 0x15 2 ⟨3, 0, m⟩ true false 4]) ∧
    (let s := (ops nilWord nilWord).modBank 0 0 fun k => { k with bevt := 10 }
     each2 s nilWord nilWord [iEnc 0x15 2 ⟨3, 0, 15⟩ true false 4] ∧ (s.bank 0 0).bevt.getLsbD 1 = true ∧
       (s.bank 0 0).bevt.getLsbD 0 = false ∧ (15 : BitVec 12).toNat.testBit 1 = true) ∧
    (∀ q : Bool, let s := opsP false q nilWord nilWord
      each2 s nilWord nilWord [tEnc 0x15 3 f0 false false false 0, tEnc 0x15 4 f0 false false false 0] ∧
        (s.bank 0 0).status.impp = q ∧ (s.core 0).inEsc = false) ∧
    (let s := (ops nilWord nilWord).setReg (rDENT 0x3F0) 0x80000000
     (s.regs.any fun p => decide (rDENT 0 ≤ p.1 ∧ p.1 < rDENT 1024 ∧ (p.1 - rDENT 0) / 8 = 0x3F0)) = true) := by decide +kernel

/-- O25: ICSIG and DBELL of each world, from a core below and above 64, from the Reeve and from nobody. -/
theorem witness_SignalsAndDoorbells :
    (let s := (running []).modBank 64 0 fun k => { k with st := 2 }
     let s := s.modCore 64 fun x => { x with run := some 0 }
     s.whoOf (.bank 0 0) = some { reeve := false, c := 0, b := 0, w := false, sup := true } ∧
       s.whoOf (.bank 64 0) = some { reeve := false, c := 64, b := 0, w := false, sup := true } ∧ s.whoOf .host = none ∧
       s.coreEnabled 95 = true ∧ s.oddBound 95 = false ∧ s.pairMode (95 / 2) = 0 ∧ s.rep 0 < 64 ∧ 64 ≤ s.rep 64) ∧
    (({ running [] with reeve := { up := true } } : State).setReg rGLBBOOT 1).whoOf .reeve = some whoReeve := by decide +kernel

/-- A state that owns share 0 of the Allotment, with the words for WCS and the progress `d`. -/
def loads (d : Nat) (words : List Word) : State :=
  ((running [(1, fixWord (v64 d)), (2, rawWord 64)] (wordsLine words)).setReg rCSGRANT 1).setReg rCSOWN 1

/-- O26: a plot that opens and one that may not change so; WCS at its end, on a microword and on a nanoword. -/
theorem witness_PlotsAndControlStore :
    (∀ e ∈ [1, 3], let s := ops (fixWord (v64 32767)) (rawWord (v64 e))
      each2 s (fixWord (v64 32767)) (rawWord (v64 e)) [tEnc 0x15 5 fS false true true 0] ∧
        bit (s.reg (rPLOT 32767)) 8 = false ∧ bit (s.reg (wnwBase (bits (v64 e) 19 16))) 1 = true ∧
        plotChangeOk (s.gcPhase false) (s.reg (rPLOT 32767)) (v64 e) = (e == 1) ∧ bits (v64 e) 19 16 ≤ 11) ∧
    (∀ p ∈ [(0, 0x3000, [rawWord 0x00C00600]), (2 ^ 32, 0x3000, [rawWord 0x00C00600]),
        (2 ^ 32, 2 ^ 16 + 0x1800, [rawWord 0, rawWord 0x0400800010000000, rawWord 0])],
      let d := v64 (p.1 + p.2.1)
      let e := tEnc 0x15 6 fS false true true 0
      let s := coded e (loads (p.1 + p.2.1) p.2.2)
      ready2 s (fixWord d) (rawWord 64) e ∧ bit (s.reg rCSGRANT) 0 = true ∧ shareOwner s 0 = 1 ∧
        targetShare (bits d 17 16) (bits d 13 0) = some 0 ∧ bits d 63 48 = 0 ∧ bits d 31 18 = 0 ∧ bits d 15 14 = 0 ∧
        same (await (s.ctx 0 0) (rawWord 64) s) (rawWord 64) s ∧
        same (wcsWords (s.ctx 0 0) p.2.2.length 64 s) (p.2.2.map (·.val)) s ∧
        loadOk s 1 (bits d 17 16) (bits d 13 0) (p.2.2.map (·.val)) = true) := by decide +kernel

/-- Bin 3 of world 0 with a ring of four slots at the start of bin memory: its control word and its ring positions; core 0
has the bin reference in register 1, an address in 2 and a descriptor in 3. -/
def binned (ctl pos : Nat) (node : Nat) (gr3 : Word) : State :=
  let s := running [(1, mkWord tyBINREF (v64 (node * 2 ^ 48 + 3))), (2, rawWord 64), (3, gr3)]
  (((((s.setReg rCARVE 1).setReg (binBase 3) (v64 ctl)).setReg (binBase 3 + 8) (v64 (0xE000000000 + 2))).setReg
    (binBase 3 + 0x18) (v64 pos)).setReg (binBase 3 + 0x20) (v64 (8 * 2 ^ 32 + 8)))

/-- O27: a BSEND of source bin 3 to bin 4, Active, Disabled and in Error, and to node 7. -/
theorem witness_Bsend :
    (∀ ctl ∈ [1, 3, 4], let e := tEnc 0x14 0 f3 true true true 0
     let r := mkWord tyBINREF 4
     let s := coded e (((binned 0x401 0 0 (fixWord 0x100)).setReg (binBase 4) (v64 ctl)).wrReg 0 0 1 r)
     let m := after (msgWords (s.ctx 0 0) 1 (64 + 8) s)
     let u := (m.takeSeq 3).2
     ready2 s r (rawWord 64) e ∧ Src s 0 0 3 (fixWord 0x100) ∧ s.sourceBin 0 0 = some 3 ∧ bits (0x100 : Val) 63 14 = 0 ∧
       gives (msgWords (s.ctx 0 0) 1 (64 + 8) s) [rawWord 1] ∧ bits r.val 63 48 = m.srcNode ∧ m.binWld 4 = false ∧
       (s.bank 0 0).wait = none ∧ u.binState 4 = ctl ∧ u.pairMode 0 = 0 ∧ (u.bank 0 0).st = 2 ∧
       specLoc (s.core 0).inEsc 0 3 = .gr 3) ∧
    (let e := tEnc 0x14 0 f3 true true true 0
     let s := coded e ((binned 0x401 0 7 (fixWord 0x100)).setReg rFABNODE (2 ^ 16 + 5))
     let r := mkWord tyBINREF (v64 (7 * 2 ^ 48 + 3))
     let m := after (msgWords (s.ctx 0 0) 1 (64 + 8) s)
     let u := (m.takeSeq 3).2
     let o : Ott := { busy := true, node := 7, vc := 2, core := 0, bank := 0, world := false, kind := 7, ref := r }
     let k : WaitRec := { cause := 2, key := 24576, slot := 2 + 3 }
     ready2 s r (rawWord 64) e ∧ s.sourceBin 0 0 = some 3 ∧ gives (msgWords (s.ctx 0 0) 1 (64 + 8) s) [rawWord 1] ∧
       bits r.val 63 48 ≠ m.srcNode ∧ firstKept m (64 + 8) [rawWord 1] = none ∧ m.storesOut 0 0 7 = false ∧
       m.fabUp = true ∧ m.freeOtt = some 24576 ∧
       sendAnswer (((((u.setOtt 24576 o).countEvent 0 13 1).modBank 0 0 fun x => { x with wait := some k }).originate 7 24576
         (mkPacket u.srcNode 7 pMSG false false (mkTtag 0 0 24576) r (rawWord 0)
           [State.msgHdr u.srcNode 3 (m.takeSeq 3).1 2 0, rawWord 1])).bank 0 0) = none) := by decide +kernel

/-- O27: a BSEND that has been answered; BRECV, BPEEK and BCRED on an empty ring and on one message. -/
theorem witness_Brecv :
    (let e := tEnc 0x14 0 f3 true true true 0
     let k : WaitRec := { cause := 2, slot := 5, done := true, res := .answer trueWord }
     let s := (coded e (binned 0x401 0 7 (fixWord 0x100))).modBank 0 0 fun x => { x with wait := some k }
     ready2 s (mkWord tyBINREF (v64 (7 * 2 ^ 48 + 3))) (rawWord 64) e ∧ Src s 0 0 3 (fixWord 0x100) ∧
       (s.bank 0 0).wait = some k) ∧
    (∀ e ∈ [tEnc 0x14 1 f3 true true true 0, tEnc 0x14 2 f2 true true false 0, tEnc 0x14 3 f2 true true false 0],
      (let s := coded e (binned 1 0 0 nilWord)
       ready2 s (mkWord tyBINREF 3) (rawWord 64) e ∧ s.binUsed 3 = 0 ∧ s.binWld 3 = false ∧ s.binState 3 ≠ 0 ∧
         bits (3 : Val) 63 48 = s.srcNode ∧ s.binCore 3 = 0 ∧ s.binBank 3 = 0 ∧ s.sourceBin 0 0 = none ∧ (rawWord 64).imm = false) ∧
      (let h := mkWord tyMSGHDR 0
       let u := coded e (binned 1 1 0 nilWord)
       let s := { u with mem := u.mem.putWord (u.store 0xE000000000) h }
       let t := after (ringHead (s.ctx 0 0) 3 s)
       let i := t.binRd 3 % t.binSlots 3
       let v := after (ringRead (s.ctx 0 0) 3 i 1 0 t)
       let x := after (touchPages (s.ctx 0 0) 64 1 mtNoDev v)
       ready2 s (mkWord tyBINREF 3) (rawWord 64) e ∧ s.binState 3 ≠ 0 ∧ gives (ringHead (s.ctx 0 0) 3 s) (some h) ∧
         gives (ringRead (s.ctx 0 0) 3 i 1 0 t) [h] ∧ (v.bank 0 0).wait = none ∧
         gives (touchPages (s.ctx 0 0) 64 1 mtNoDev v) () ∧ gives (storeUp (s.ctx 0 0) 2 3 [h] 0 64 x) ())) := by
  decide +kernel

/-- O28: a bin in Error, Draining, Disabled and Active, the other world, a full source table, no credit, no room, a
duplicate, and a message whose handler ended in an error. -/
theorem witness_BinArrival :
    ((binned 4 0 0 nilWord).binState 3 = 4 ∧ (binned 2 0 0 nilWord).binState 3 = 2 ∧ (binned 3 0 0 nilWord).binState 3 = 3 ∧
      (binned 1 0 0 nilWord).binState 3 = 1 ∧ (binned 0x81 0 0 nilWord).binWld 3 = true ∧
      bit ((binned 0x81 0 0 nilWord).reg (binBase 3)) 11 = false ∧ (binned 1 0 0 nilWord).binWld 3 = false) ∧
    (let s := (binned 4 0 0 nilWord).modBank 0 0 fun k => { k with wait := some { cause := 2, slot := 5 } }
     s.pairMode (pairOf 0) = 0 ∧ (s.bank 0 0).wait = some { cause := 2, slot := 5 }) ∧
    (let s := (binned 1 0 0 nilWord).setSrcs 0 (List.replicate 4096 ⟨9, 0, 0, false, none, 0, false, 0⟩)
     4096 ≤ (s.srcs (s.binEng 3)).length ∧ ∀ e ∈ (s.srcs (s.binEng 3)).eraseDups, e.bin ≠ 3) ∧
    (let s := (binned 1 0 0 nilWord).setReg (binBase 3 + 0x20) 0
     s.regF (binBase 3 + 0x20) 47 32 < (1 + 7) / 8 ∧ s.srcs (s.binEng 3) = []) ∧
    (let s := binned 1 4 0 nilWord
     (1 + 7) / 8 ≤ s.regF (binBase 3 + 0x20) 47 32 ∧ bit (s.reg (binBase 3)) 9 = false ∧ s.regF (binBase 3) 13 12 = 0 ∧
       s.binFree 3 < 1 ∧ s.srcs (s.binEng 3) = []) ∧
    (let e : SrcEntry := ⟨3, 7, 2, false, some 5, 0, false, 0⟩
     let s := (binned 1 0 0 nilWord).setSrcs 0 [e]
     s.srcs (s.binEng 3) = [e] ∧ e.bin = 3 ∧ e.node = 7 ∧ e.sbin = 2 ∧ e.host = false ∧ e.last = some 5 ∧
       newer16 5 5 = false) := by decide +kernel

/-- O28: for each command a state from which it goes and one from which it does not, with and without messages in flight;
a core of the other world and one at the user level; the host. -/
theorem witness_BinCommands :
    (let fl : Flight := ⟨3, 7, 2, false, 5, [rawWord 0], false, .nobody, false⟩
     ∀ l ∈ [[], [fl]], let w (c : Nat) : State :=
        let s := ({ binned c 0 0 nilWord with reeve := { up := true } } : State).setReg rGLBBOOT 1
        { s with bins := { s.bins with flight := l } }
      (w 0).whoOf .reeve = some whoReeve ∧ (w 0).binState 3 = 0 ∧ (w 0).ringValid 3 = true ∧ (w 0).srcbClash 3 = false ∧
        (w 1).binState 3 = 1 ∧ (w 2).binState 3 = 2 ∧ (w 3).binState 3 = 3 ∧ (w 4).binState 3 = 4 ∧
        (w 4).regF (binBase 3) 23 20 ≠ 1 ∧ (∀ x ∈ (w 2).bins.flight, x.bin = 3 ∧ x.back = .nobody) ∧
        ((w 2).bins.flight = [] ∨ (w 2).bins.flight = [fl])) ∧
    (let s := binned 0x80 0 0 nilWord
     let u := (binned 0 0 0 nilWord).modBank 0 0 fun k => { k with status := { k.status with lvl := false } }
     s.whoOf (.bank 0 0) = some { reeve := false, c := 0, b := 0, w := false, sup := true } ∧ s.binWld 3 ≠ false ∧
       u.whoOf (.bank 0 0) = some { reeve := false, c := 0, b := 0, w := false, sup := false } ∧ u.binWld 3 = false ∧
       s.whoOf .host = none) := by decide +kernel

/-- Core 0 whose bank 0 runs, with bank 1 in state `st1` and the two priorities. -/
def twoBanks (st1 pri0 pri1 : Nat) : State :=
  ((running []).modBank 0 0 fun k => { k with
    pri := BitVec.ofNat 2 pri0, status := { k.status with ml := 0 } }).modBank 0 1 fun k =>
      { k with st := BitVec.ofNat 3 st1, pri := BitVec.ofNat 2 pri1 }

/-- O29: a frozen core, a due item, an idle core without and with a Ready bank, and a Running bank beside a Ready one of a
greater, an equal and a lesser priority, at the end of a quantum and before it. -/
theorem witness_HarrowDecisions :
    (((running []).modCore 0 fun x => { x with frozen := true }).schedules 0 = false) ∧
    (let s := (twoBanks 0 0 0).modCore 0 fun x => { x with mchk0 := [5] }
     s.schedules 0 = true ∧ (s.core 0).inEsc = false ∧ (s.core 0).run = some 0 ∧ (s.bank 0 0).scanPend = false ∧
       (s.bank 0 0).flipPend = false ∧ s.pendingItem 0 0 = some (.mchk 5) ∧ (s.takeItem 0 0 (.mchk 5)).isSome) ∧
    (∀ st ∈ [0, 1], let s := ({ twoBanks st 0 0 with cores := [] } : State).modBank 0 0 fun k => { k with st := 0 }
      s.schedules 0 = true ∧ (s.core 0).run = none ∧ s.routing 0 = none ∧ ((s.bank 0 1).st = 1 ↔ st = 1) ∧
        (∀ k : Fin 4, k ≠ 1 → (s.bank 0 k).st ≠ 1)) ∧
    (∀ p ∈ [(0, 3), (1, 1), (3, 0)], let s := (twoBanks 1 p.1 p.2).setReg (coreBase 0 + 8) 1
      s.schedules 0 = true ∧ (s.core 0).inEsc = false ∧ (s.core 0).run = some 0 ∧ (s.bank 0 0).scanPend = false ∧
        (s.bank 0 0).flipPend = false ∧ s.pendingItem 0 0 = none ∧ s.routing 0 = none ∧ (s.bank 0 0).st = 2 ∧
        (s.bank 0 1).st = 1 ∧ s.quantumOut 0 = false ∧ s.regF (coreBase 0 + 8) 7 0 ≠ 0) ∧
    (let s := running []
     s.schedules 0 = true ∧ s.pendingItem 0 0 = none ∧ (s.bank 0 0).status.ml = 15) := by decide +kernel

/-- O30: a timer at 1, at 2, of a frozen and a halted core; a supervisor timer that TIMEC and TIMEL have reached and one that
they have not, of a pair of each mode. -/
theorem witness_Timers :
    (∀ m ∈ [0, 1, 2], let s := ((running []).modBank 0 3 fun k => { k with btmr := 1 }).setPairMode 0 m
      let s := s.setReg (worldRegs 0 1 + 0x20) 1
      let s := { s.modPair 0 fun p => { p with timel := 256 } with cycle := 2 }
      (s.bank 0 3).btmr = 1 ∧ (s.core 0).frozen = false ∧ (s.core 0).halted = false ∧ s.pairMode (0 / 2) = m ∧
        s.oddBound 0 = false ∧ s.reg (worldRegs 0 1 + 0x20) ≠ 0 ∧ (s.reg (worldRegs 0 1 + 0x20)).toNat ≤ s.cycle ∧
        (s.reg (worldRegs 0 1 + 0x20)).toNat ≤ (s.pair 0).timel.toNat ∧ (m = 2 → s.oddBound 1 = true)) ∧
    (State.reset.bank 0 0).btmr ≠ 1 ∧ State.reset.reg (worldRegs 0 0 + 0x20) = 0 ∧
    (let s := (running []).setReg (worldRegs 0 1 + 0x20) 300
     s.cycle < (s.reg (worldRegs 0 1 + 0x20)).toNat) := by decide +kernel

/-- O30: a core with every condition for gating, one with a miss out, and one that is gated. -/
theorem witness_CorePower :
    (let s := (State.reset.setReg (coreBase 5 + 8) (2 ^ 16 + 2 ^ 8)).modCore 5 fun x => { x with freeBouts := 2 }
     (s.core 5).pg = false ∧ (s.core 5).frozen = false ∧ bit (s.reg (coreBase 5 + 8)) 16 = true ∧ s.pairMode (5 / 2) = 0 ∧
       (∀ b, (s.bank 5 b).st = 0) ∧ bits (s.reg (coreBase 5 + 8)) 15 8 ≤ (s.core 5).freeBouts - 1 ∧ (s.core 5).sb = [] ∧
       s.mem.trans = [] ∧ (∃ y ∈ (s.setTrans 5 1 (some .isD)).mem.trans, y.1 / 2 ^ 34 = 5 ∧ y.2 ≠ some .miA)) ∧
    ((State.reset.modCore 5 fun x => { x with pg := true }).core 5).pg = true := by decide +kernel

/-- O31: a bank of core 1 in each state, written by bank 0 of core 0 of its own world and of the other, and by the Reeve;
with a wait that is over and one that is not; a core that is not enabled. -/
theorem witness_BankCommands :
    (∀ st ∈ [0, 1, 2, 3, 4, 5], let s := (running []).modBank 1 3 fun k => { k with st := BitVec.ofNat 3 st }
      s.whoOf (.bank 0 0) = some { reeve := false, c := 0, b := 0, w := false, sup := true } ∧ s.coreEnabled 1 = true ∧
        s.oddBound 1 = false ∧ (s.bank 1 3).status.wld = false ∧ (s.bank 1 3).st.toNat = st ∧ (s.core 1).pg = false ∧
        (s.bank 1 3).wait = none ∧ (s.bank 1 3).micro = none ∧ (s.bank 1 3).scanPend = false ∧
        (s.bank 1 3).flipPend = false) ∧
    (let k : WaitRec := { cause := 2 }
     let s := (running []).modBank 1 3 fun x => { x with st := 4, wait := some k, status := { x.status with wld := true } }
     (s.bank 1 3).wait = some k ∧ k.done = false ∧ (s.bank 1 3).status.wld ≠ false) ∧
    (let s := ({ running [] with reeve := { up := true } } : State).setReg rGLBBOOT 1
     s.whoOf .reeve = some whoReeve ∧ s.whoOf .host = none ∧ (s.setReg rGLBCLEN 1).coreEnabled 8 = false) := by
  decide +kernel

/-- O32: operand pairs for each case of the tables, with the encodings. -/
theorem witness_GenericArithmetic :
    (∀ p ∈ [(fixWord 7, fixWord 2), (fixWord (-8), fixWord 2), (fixWord 0x7FFFFFFFFFFFFFFF, fixWord 1), (fixWord 7, fixWord 0),
        (floWord 0x3FF8000000000000, fixWord 2), (floWord 0x3FF8000000000000, floWord 0), (mkWord tyBIGNUM 64, fixWord 2),
        (fixWord 2, mkWord tyRATIO 64), (mkWord tyCONS 64, fixWord 2), (fixWord 2, nilWord)],
      each2 (ops p.1 p.2) p.1 p.2 ([0, 1, 2, 3, 4, 5].map fun n => tEnc 0x18 n f3 true true true 0)) ∧
    (∀ x ∈ [fixWord 7, fixWord 0x8000000000000000, floWord 0xBFF8000000000000, mkWord tyBIGNUM 64, nilWord],
      each2 (ops x nilWord) x nilWord ([tEnc 0x18 6 f2 true true false 0, tEnc 0x18 7 f2 true true false 0,
        tEnc 0x1B 0 ⟨3, 1, 0, 0x40⟩ true true false 7] ++ [0, 1, 2, 3].map fun n => tEnc 0x1A n f2 true true false 0)) ∧
    ((ops nilWord nilWord).bank 0 0).micro = none := by decide +kernel

theorem witness_genericTruncation : ∃ n m e, flDecode 0xBFF8000000000000 = .fin n m e ∧ inFix (flTrunc n m e) = true :=
  ⟨_, _, _, rfl, by decide +kernel⟩

/-- O33. -/
theorem witness_GenericCompares :
    ∀ p ∈ [(fixWord 7, fixWord 2), (floWord 0x3FF8000000000000, floWord 0x3FF8000000000000), (mkWord tyCHAR 65, mkWord tyCHAR 66),
        (mkWord tyBIGNUM 64, fixWord 2), (mkWord tyBIGNUM 64, mkWord tyBIGNUM 128), (nilWord, mkWord tyCONS 64), (nilWord, nilWord)],
      each2 (ops p.1 p.2) p.1 p.2 ([0, 1, 2, 3].map fun n => tEnc 0x19 n f3 true true true 0) := by decide +kernel

/-- O34: NIL, a CONS at the last pair of words of granule 1, a REMOTE whose cell has been answered, and another type. -/
theorem witness_Lists :
    ∀ x ∈ [nilWord, mkWord tyCONS 112, far, fixWord 1],
      ∀ e ∈ [tEnc 0x1C 0 f2 true true false 0, tEnc 0x1C 1 f2 true true false 0, tEnc 0x1C 2 fS false true true 0,
        tEnc 0x1C 3 fS false true true 0],
      let k : WaitRec := { cause := 2, done := true, res := .word (rawWord 5) }
      let s := (coded e (ops x (fixWord 9))).modBank 0 0 fun b => { b with wait := if x = far then some k else none }
      ready2 s x (fixWord 9) e ∧ x.type ≠ tyFUTURE ∧ x.imm = false ∧
        same (loadWord (s.ctx 0 0) (112 + v64 (8 * 1)) mtNoDev false s) (rawWord 7) s ∧
        gives (storeWord (s.ctx 0 0) (112 + v64 (8 * 1)) (fixWord 9) mtNoDev true true 2 s) () ∧
        same (wantRemotable (fixWord 9) 2 s) () s ∧
        (x = far → gives (remotePosted (s.ctx 0 0) far (fixWord (v64 1)) (fixWord 9) s) () ∧
          gives (remoteCell (s.ctx 0 0) far 1 s) (rawWord 5)) := by decide +kernel

/-- Core 0 with its allocation pointer and limit. -/
def allocating (p l : Nat) (x y : Word) : State :=
  (ops x y).modBank 0 0 fun k => { k with allocp := v64 p, allocl := v64 l }

/-- O35: a cell and a vector that end at the limit. -/
theorem witness_Allocation :
    (let e := tEnc 0x1C 4 f3 true true true 0
     let s := coded e (allocating 112 128 (fixWord 1) (fixWord 2))
     let s4 := after (initPush (s.ctx 0 0) 112 (112, .cacheable) (fixWord 1) s)
     let s5 := after (initPush (s.ctx 0 0) 120 (120, .cacheable) (fixWord 2) s4)
     ready2 s (fixWord 1) (fixWord 2) e ∧ (s.bank 0 0).allocp.toNat + 16 ≤ (s.bank 0 0).allocl.toNat ∧
       (s.core 0).sb.length ≤ 30 ∧ same (initPrep (s.ctx 0 0) 112 (fixWord 1) s) (112, .cacheable) s ∧
       same (initPrep (s.ctx 0 0) 120 (fixWord 2) s) (120, .cacheable) s ∧
       gives (initPush (s.ctx 0 0) 112 (112, .cacheable) (fixWord 1) s) () ∧
       gives (initPush (s.ctx 0 0) 120 (120, .cacheable) (fixWord 2) s4) () ∧
       same (markNew (s.ctx 0 0) 112 (mkWord tyCONS 112) s5) () s5) ∧
    (∀ e ∈ [tEnc 0x1C 5 f3 true true true 0, iEnc 0x1C 8 ⟨3, 1, 3⟩ true true 12],
     let x := fixWord (v64 (5 * 256 + tyVECTOR))
     let s := coded e (allocating 64 96 x (fixWord 3))
     let h := mkWord tyHEADER (v64 (5 * 2 ^ 48 + 3))
     let s3 := after (initPush (s.ctx 0 0) 64 (64, .cacheable) h s)
     ready2 s x (fixWord 3) e ∧ same (initPrep (s.ctx 0 0) 64 h s) (64, .cacheable) s ∧
       gives (initPush (s.ctx 0 0) 64 (64, .cacheable) h s) () ∧
       same (markNew (s.ctx 0 0) 64 (mkWord tyVECTOR 64) s3) () s3) ∧
    ((running []).bank 0 0).status.mrk = false := by decide +kernel

/-- O35: objects that pass the limit, ones that cross a plot, and the two of a fixed size. -/
theorem witness_AllocationEdges :
    ∀ p ∈ [(112, 127, tyVECTOR), (0x1FFFF8, 0x400000, tyVECTOR), (64, 96, tySYMBOL), (64, 80, tyRATIO)],
      let s := allocating p.1 p.2.1 (fixWord (v64 p.2.2)) (fixWord 0)
      each2 s (fixWord (v64 p.2.2)) (fixWord 0)
        [tEnc 0x1C 4 f3 true true true 0, tEnc 0x1C 5 f3 true true true 0, iEnc 0x1C 8 ⟨3, 1, 2⟩ true true 12] ∧
        same (markNew (s.ctx 0 0) p.1 (mkWord p.2.2 (v64 p.1)) s) () s := by decide +kernel

/-- O36: a vector of three words at granule 1, at its last index and outside; a REMOTE vector and another type. -/
theorem witness_Vectors :
    (∀ i ∈ [-1, 0, 2, 3], ∀ e ∈ [tEnc 0x1D 0 f3 true true true 0, tEnc 0x1D 1 f3 true true true 0, tEnc 0x1D 2 f2 true true false 0],
      let v := mkWord tyVECTOR 64
      let s := coded e (running [(1, v), (2, fixWord (i64 i)), (3, fixWord 9)] (wordsLine [mkWord tyHEADER 3]))
      ready2 s v (fixWord (i64 i)) e ∧ Src s 0 0 3 (fixWord 9) ∧ s.isHeadered tyVECTOR = true ∧ v.imm = false ∧
        same (loadWord (s.ctx 0 0) 64 mtNoDev false s) (mkWord tyHEADER 3) s ∧
        same (loadWord (s.ctx 0 0) (64 + 8 * (1 + 2)) mtNoDev false s) (rawWord 0) s ∧
        gives (storeWord (s.ctx 0 0) (64 + 8 * (1 + 2)) (fixWord 9) mtNoDev true true 3 s) ()) ∧
    (∀ x ∈ [far, mkWord tyCONS 64],
      each2 (ops x (fixWord 0)) x (fixWord 0) [tEnc 0x1D 0 f3 true true true 0, tEnc 0x1D 2 f2 true true false 0]) := by
  decide +kernel

/-- O37: a list at 64 whose first element is NIL or a cell with `rawWord 16` as its key. -/
theorem witness_Searches :
    ∀ p ∈ [(rawWord 16, nilWord, mkWord tyCONS 128), (rawWord 16, mkWord tyCONS 64, mkWord tyCONS 128),
        (rawWord 17, mkWord tyCONS 64, mkWord tyCONS 128), (rawWord 16, mkWord tyCONS 64, nilWord)],
      ∀ e ∈ [longEnc 0 f3 0 false, longEnc 1 f3 0 false],
      let s := coded e (running [(1, p.1), (2, p.2.1)] (wordsLine [p.2.2, mkWord tyCONS 64]))
      let u := s.countEvent 0 15 1
      ready2 s p.1 p.2.1 e ∧ same (listLoad (s.ctx 0 0) 64 u) p.2.2 u ∧ same (listLoad (s.ctx 0 0) 128 u) (rawWord 16) u ∧
        same (nextCursor (s.ctx 0 0) (64 + 8) u) (mkWord tyCONS 64) u := by decide +kernel

/-- O37: counts at 0 and above; a copy and a scan that go on, and a scan that finds its word. -/
theorem witness_CountsAndCopies :
    (∀ p ∈ [(fixWord 0, nilWord), (fixWord 2, nilWord), (fixWord 2, mkWord tyCONS 64), (fixWord 0x7FFFFFFFFFFFFFFE, mkWord tyCONS 64)],
      each2 (running [(1, p.1), (2, p.2)]) p.1 p.2 [longEnc 2 f3 0 false] ∧
        each2 (running [(1, p.2), (2, p.1)]) p.2 p.1 [longEnc 3 f3 0 false]) ∧
    (∀ p ∈ [0, 3], let n := fixWord (v64 p)
      let e := longEnc 4 f3 0 false
      let s := coded e (running [(1, rawWord 72), (2, rawWord 136), (3, n)])
      let u := s.countEvent 0 15 1
      let k := min p (8 - 136 % 64 / 8)
      ready2 s (rawWord 72) (rawWord 136) e ∧ Src s 0 0 3 n ∧ (u.core 0).sb.length + k ≤ 32 ∧
        gives (copyStep (s.ctx 0 0) 2 k 72 136 u) p) ∧
    (∀ n ∈ [0, 3], ∀ e ∈ [longEnc 5 ⟨3, 1, 2, 0x16⟩ 7 false, longEnc 5 ⟨3, 1, 2, 0x56⟩ 7 false],
      let s := coded e (running [(1, rawWord 72), (2, fixWord (v64 n))])
      let u := s.countEvent 0 15 1
      ready2 s (rawWord 72) (fixWord (v64 n)) e ∧ (n = 3 → same (scanRun (s.ctx 0 0) 0x16 false n 0 72 u) (some 0) u ∧
        same (scanRun (s.ctx 0 0) 0x16 true n 0 72 u) none u)) := by decide +kernel

/-- World 0 owns every share; key 0x380 enters the routine of one microword at 0x3000, whose nanoword passes RS1 to rd. -/
def owned : State :=
  let s := (coded ⟨encT 0x38 0 f3, false⟩ (ops (fixWord 4) (fixWord 5))).modCore 0 fun x => { x with dcopy := [(0x380, 0x90003000)] }
  (((((s.setReg rCSOWN 0x55555555).setReg rCSGRANT (-1)).setReg (rDENT 0x380) 0x90003000).setReg (rMWORD 0x3000)
    (v64 (0x1800 * 2048 + 6 * 256))).setReg (rNANO 0x1800 + 8) (v64 (2 ^ 58 + 2 ^ 47 + 2 ^ 28)))

/-- The parts of `Routed` where the prelude changes nothing. -/
def routed (s : State) (e : Enc) (entry : Nat) (rdSrc : Bool) : Bool :=
  decide (s.issuable 0 = some 0) && decide (s.pendingItem 0 0 = none) && same (prelude (s.ctx 0 0) e s) () s &&
    decide (s.pairMode (pairOf 0) ≠ 2) && decide (kindOne s 0 (keyOf e.word) = some (entry, rdSrc))

theorem routed_ok {s : State} {e : Enc} {entry : Nat} {rdSrc : Bool} (h : routed s e entry rdSrc = true) :
    Routed s 0 0 e s entry rdSrc := by
  simp only [routed, Bool.and_eq_true, decide_eq_true_eq] at h
  exact ⟨h.1.1.1.1, h.1.1.1.2, same_eq h.1.1.2, h.1.2, h.2⟩

/-- O38: the routine above. -/
theorem witness_Routine :
    let iw := encT 0x38 0 f3
    let e : Enc := ⟨iw, !(mayRun owned false (keyShare 0x380))⟩
    let mw := owned.reg (rMWORD 0x3000)
    let n := nanoOf (owned.reg (rNANO 0x1800)) (owned.reg (rNANO 0x1800 + 8)) (owned.reg (rNANO 0x1800 + 16))
    routed owned e 0x3000 false ∧ Src owned 0 0 1 (fixWord 4) ∧ Src owned 0 0 2 (fixWord 5) ∧
      gives (runRoutine (owned.ctx 0 0) 0x3000 iw (latchW (owned.ctx 0 0) iw false) owned) .fall ∧
      (owned.bank 0 0).micro = none ∧ bits mw 23 11 = 0x1800 ∧ (microShare 0x3000).isSome = true ∧
      ownedBy owned (shareOwner owned 0) (nanoShare 0x1800) = true ∧ microShare 0x3000 = some 0 ∧ owned.csBad = [] ∧
      bits mw 10 8 = 6 ∧ n.cond = 0 ∧ n.aop = 0 ∧ n.srca = 2 ∧ n.srcb = 0 ∧ n.dst = 1 ∧ n.tsel = 0 ∧ n.mop = 0 ∧
      n.madr = 0 ∧ n.eff = 1 ∧ (owned.core 0).sb = [] := by decide +kernel

/-- O38: a key that the world may not run; a parity error with a good copy and with none; a routine in progress. -/
theorem witness_ControlStore :
    (let iw := encT 0x38 0 f3
     let s := owned.setReg rCSOWN 0
     s.issuable 0 = some 0 ∧ s.pendingItem 0 0 = none ∧ s.pairMode (pairOf 0) ≠ 2 ∧ goesOn (s.bank 0 0) = none ∧
       mayRun s false (keyShare 0x380) = false ∧ same (instrBreak (s.ctx 0 0) s) () s ∧ same (fetch (s.ctx 0 0) s) iw s ∧
       s.csBad = [] ∧ s.dentV 0 0x380 = true) ∧
    (let all : List (Nat × Nat × Nat) := (List.range 12).map fun k => (k, csStoreNo .micro, 7)
     State.reset.issuable 5 = none ∧ (∃ j : Fin 12, j ≠ 3 ∧ (j.val, csStoreNo .micro, 7) ∉ State.reset.csBad) ∧
       (∀ j : Fin 12, j ≠ 3 → (j.val, csStoreNo .micro, 7) ∈ all) ∧ csStoreNo .dispatch = 2 ∧ csStoreNo .micro ≠ 2) ∧
    (let s := owned.modBank 0 0 fun k => { k with micro := some default }
     s.issuable 0 = some 0 ∧ (s.bank 0 0).micro = some default) := by decide +kernel

/-- The Reeve runs firmware, and bank 1 of core 0 is of world 1. -/
def firm : State := (({ running [] with reeve := { up := true } } : State).setReg rGLBBOOT 9).modBank 0 1 fun k => { k with
  status := { k.status with wld := true } }

/-- A world's collection in a phase. -/
def inPhase (w n : Nat) (s : State) : State := s.setRegF (gcBase w + 8) 1 0 n

/-- O39: each writer; each phase; a Normal plot of the world with room and without; the last Winnower in service; and the
boundary's conditions. -/
theorem witness_CollectionControl :
    (firm.whoOf .reeve = some whoReeve ∧ firm.whoOf (.bank 0 0) = some { reeve := false, c := 0, b := 0, w := false, sup := true } ∧
      firm.whoOf (.bank 0 1) = some { reeve := false, c := 0, b := 1, w := true, sup := true } ∧ firm.whoOf .host = none ∧
      (firm.modBank 0 0 fun k => { k with status := { k.status with lvl := false } }).whoOf (.bank 0 0) =
        some { reeve := false, c := 0, b := 0, w := false, sup := false }) ∧
    (∀ n ∈ [0, 1, 2, 3], (inPhase 0 n firm).gcPhase false = n ∧ (inPhase 1 n firm).gcPhase true = n) ∧
    (let s := firm.setReg (rPLOT 32767) 1
     s.plotState 32767 = 1 ∧ bit (s.reg (rPLOT 32767)) 8 = false ∧ (s.wnw 3 false).destq.length < 8 ∧
       ((s.modWnw 3 false fun y => { y with destq := List.replicate 8 5 }).wnw 3 false).destq.length = 8) ∧
    (let s := (List.range 11).foldl (fun s j => s.setReg (wnwBase (j + 1)) 0) (inPhase 0 1 firm)
     s.gcPhase false ≠ 0 ∧ ∀ j : Fin 12, j ≠ 0 → bit (s.reg (wnwBase j.val)) 0 = false ∨ bit (s.reg (wnwBase j.val)) 1 = false) ∧
    (let s := firm.setReg (gcBase 0) 1
     s.gcPhase false = 0 ∧ bit (s.reg (gcBase 0)) 0 = true ∧ bit (s.reg (gcBase 0 + 8)) 7 = false) ∧
    (let s := (inPhase 0 1 firm).modGcW false fun g => { g with failing := true }
     (s.gcW false).newMarks = [] ∧ (s.gcW false).failing = true ∧ s.gcPhase false ≠ 0 ∧ (s.gcW false).abort = false) ∧
    (((inPhase 0 1 firm).modGcW false fun g => { g with abort := true }).gcW false).abort = true ∧
    ((inPhase 0 3 firm).modWnw 3 false fun y => { y with toFix := [(0, 5)] }).anyWnw false (fun y => !y.toFix.isEmpty) = true := by
  decide +kernel

/-- A heap of two plots for world 0, mapped to itself for every Winnower, with a pair at 0x40000100 whose first word names
the pair at 0x40000200. -/
def heaped (n : Nat) : State :=
  let e (k : Nat) : TlbEntry := ⟨false, 0, true, k, 0x100000, k * 0x100000, .cacheable, 0, true, true, true, true⟩
  let s := { running [] with gc := { tlb := (List.range 12).map fun k => (k, [e 0x400, e 0x401, e 0x402, e 0x300]) } }
  let s := ((s.setReg (gcBase 0 + 0x10) 0x40000000).setReg (gcBase 0 + 0x18) 0x30000000).setReg (gcBase 0 + 0x20) 0x40000000
  let s := (s.setReg (rPLOT 0) (if n = 2 then 0x10003 else 0x10001)).setReg (rPLOT 1) 0x10001
  inPhase 0 n { s with mem := (s.mem.putWords 0x40000100 [mkWord tyCONS 0x40000200, fixWord 7]).putWords 0x40000200 [fixWord 7, nilWord] }

/-- A Winnower's access that answers, one that fails, and the state that it leaves. -/
def wgives {α : Type} [DecidableEq α] (r : EStateM.Result (WnwErr × Nat) State α) (a : α) : Bool :=
  match r with
  | .ok x _ => decide (x = a)
  | .error _ _ => false
def wafter {α : Type} (r : EStateM.Result (WnwErr × Nat) State α) : State :=
  match r with
  | .ok _ t => t
  | .error _ t => t
def wfails {α : Type} (r : EStateM.Result (WnwErr × Nat) State α) (e : WnwErr) (va : Nat) : Bool :=
  match r with
  | .ok _ _ => false
  | .error x _ => decide (x = (e, va))

theorem wgives_ok {α : Type} [DecidableEq α] {r : EStateM.Result (WnwErr × Nat) State α} {a : α} (h : wgives r a = true) :
    r = .ok a (wafter r) := by
  unfold wgives at h
  split at h
  · rw [of_decide_eq_true h]; rfl
  · cases h

/-- O40: Winnower 1 marks the pair at 0x40000100 from its stack, and one outside the map; its stack full, and empty. -/
theorem witness_Marking :
    let p := mkWord tyCONS 0x40000100
    let s := (heaped 1).modWnw 1 false fun y => { y with stack := [p] }
    let u := s.modWnw 1 false fun y => { y with stack := [] }
    (s.tripped = false ∧ s.gcPhase false = 1 ∧ (s.gcW false).failing = false ∧ bit (s.reg (wnwBase 1)) 1 = true ∧
      (s.gcW false).draining = false ∧ (s.wnw 1 false).full = false ∧ (s.wnw 1 false).stack = p :: []) ∧
      wgives (scanObj 1 false p u) () ∧ wfails (scanObj 1 false (mkWord tyCONS 0x80000000) u) .xlate 0x80000000 ∧
      WnwErr.xlate.waits = false ∧
      ((s.modWnw 1 false fun y => { y with full := true }).wnw 1 false).full = true ∧
      ((heaped 1).wnw 1 false).stack = [] ∧ spillOf (heaped 1) 1 false = none ∧ ((heaped 1).gcW false).roots = [] ∧
      ((heaped 1).gcW false).exports = [] := by decide +kernel

/-- O40: a slot whose word names an object that is not marked yet. -/
theorem witness_MarkingASlot :
    let y := mkWord tyCONS 0x40000200
    let s := wafter (wRead 1 false 0x40000100 (heaped 1))
    let h := wnwOf s false 0x40000200
    let s := wafter (markBit h false 0x40000200 s)
    let s := wafter (wRead 1 false 0x40000100 s)
    let s1 := wafter (markBit h false 0x40000200 s)
    let s2 := wafter (setMarkBit h false 0x40000200 true s1)
    s.badWord y = none ∧ traced s false y = true ∧ s.isHeadered y.type = false ∧ y.type ≠ tySYMBOL ∧
      wgives (wRead 1 false 0x40000100 s) y ∧ decide (wafter (wRead 1 false 0x40000100 s) = s) ∧
      wgives (markBit h false 0x40000200 s) false ∧ wgives (setMarkBit h false 0x40000200 true s1) () ∧
      (s2.wnw h false).full = false ∧ (s2.wnw h false).stack.length < 4096 := by decide +kernel

/-- O40: a destination that fits, one that ends with its plot, one taken from the queue, and none. -/
theorem witness_Destinations :
    let plot (a : Nat) : Nat := (a - (heaped 2).heapBase false) / 2 ^ 21
    let fits (cur : Nat) : Prop := cur ≠ 0 ∧ plot cur = plot (cur + 8 * 2 - 8)
    fits 0x40000040 ∧ fits 0x401FFFF0 ∧ ¬ fits 0x401FFFF8 ∧ ¬ fits 0 ∧
      (((heaped 2).modWnw 1 false fun y => { y with destq := [1] }).wnw 1 false).destq = 1 :: [] ∧
      ((heaped 2).wnw 1 false).destq = [] := by decide +kernel

/-- O40: Winnower 1 copies a pair to its destination. -/
theorem witness_Copying :
    let s := (heaped 2).modWnw 1 false fun y => { y with toCopy := [0x40000100], cur := 0x40200040 }
    let s := s.modGcW false fun g => { g with marked := [(0x40000100, mkWord tyCONS 0x40000100)] }
    let s1 := wafter (wRead 1 false 0x40000100 s)
    let s2 := wafter (markBit 1 false 0x40000108 s1)
    let s3 := wafter (takeDest 1 false 2 s2)
    let u := setDestWait s3 1 false false
    let s4 := wafter (copyWords 1 false 2 0x40000100 0x40200040 u)
    let s5 := wafter (setMarkBit 1 false 0x40200040 true s4)
    let f : Word := ⟨BitVec.ofNat 8 tyFORWARD, v64 0x40200040⟩
    (s.gcPhase false = 2 ∧ bit (s.reg (wnwBase 1)) 1 = true ∧ (s.gcW false).failing = false ∧ (s.gcW false).draining = false ∧
      (s.wnw 1 false).toCopy = 0x40000100 :: [] ∧ ((s.gcW false).marked.filter (·.1 == 0x40000100)).map (·.2.type) = [tyCONS]) ∧
      wgives (wRead 1 false 0x40000100 s) (mkWord tyCONS 0x40000200) ∧ wgives (markBit 1 false 0x40000108 s1) false ∧
      (s2.gcW false).draining = false ∧ wgives (takeDest 1 false 2 s2) 0x40200040 ∧
      wgives (copyWords 1 false 2 0x40000100 0x40200040 u) () ∧ wgives (setMarkBit 1 false 0x40200040 true s4) () ∧
      wgives (wWrite 1 false 0x40000100 f s5) () ∧ (wafter (wWrite 1 false 0x40000100 f s5)).gcPhase false = 2 := by
  decide +kernel

/-- O40: a pair that has been copied, a phase whose stores are not all performed, and a slot that is fixed up. -/
theorem witness_Fixing :
    (let s := (heaped 2).modWnw 1 false fun y => { y with toCopy := [0x40000100] }
     let s := { s with mem := s.mem.putWords 0x40000100 [mkWord tyFORWARD 0x40200040] }
     s.gcPhase false = 2 ∧ (s.wnw 1 false).toCopy = 0x40000100 :: [] ∧
       wgives (wRead 1 false 0x40000100 s) (mkWord tyFORWARD 0x40200040)) ∧
    (let s := ((heaped 2).modGcW false fun g => { g with draining := true }).modCore 3 fun x => { x with
       sb := [{ buffered false 120 .cacheable with pre := true }] }
     (s.gcW false).draining = true ∧ s.storesLeft false = true) ∧
    (let s := (heaped 3).modWnw 1 false fun y => { y with toFix := [(1, 3)] }
     s.gcPhase false = 3 ∧ (s.wnw 1 false).toFix = (1, 3) :: [] ∧ wgives (rootRange 1 false 3 s) none) ∧
    (let t := (heaped 3).setReg (rPLOT 0) 0x10003
     let t := { t with mem := t.mem.putWords 0x40000200 [mkWord tyFORWARD 0x40200040] }
     let s := match t.plotOf false 0x40000100 with
       | some p => t.addWork p
       | none => t
     let s1 := wafter (wRead 1 false 0x40000100 s)
     let s2 := wafter (wRead 1 false 0x40000200 s1)
     let y := mkWord tyCONS 0x40000200
     wgives (wRead 1 false 0x40000100 s) y ∧ s1.badWord y = none ∧ s1.isPtr y.type = true ∧ s1.inEvac false 0x40000200 = true ∧
       wgives (wRead 1 false 0x40000200 s1) (mkWord tyFORWARD 0x40200040) ∧
       wgives (wWrite 1 false 0x40000100 (mkWord tyCONS 0x40200040) s2) ()) := by decide +kernel

/-- O40: an assist and its reply, and the end of a clearing. -/
theorem witness_Assists :
    (let r : Assist := ⟨1, false, 0x40000100, 0x08, 5, 2, none⟩
     let s := (heaped 2).modWnw 1 false fun y => { y with cur := 0x40200040 }
     let s := { s with gc := { s.gc with assists := [r] } }
     s.tripped = false ∧ (s.gcW false).draining = false ∧ (s.gcW false).failing = false ∧ s.gc.assists.find? (fun r => r.k == 1 && r.result.isNone) = some r ∧ wgives (assistStep 1 s) ()) ∧
    (∀ v ∈ [none, some nilWord], let y : WaitRec := { cause := 4, key := 0x40000100, tagb := 8 }
     let r : Assist := ⟨1, false, 0x40000100, 0x08, 5, 2, v⟩
     let s := { heaped 1 with gc := { (heaped 1).gc with assists := [r] } }.modBank 5 2 fun k => { k with wait := some y }
     (s.bank 5 2).wait = some y ∧ s.gc.assists = [r] ∧ r.core = 5 ∧ r.bank = 2 ∧ r.addr = y.key ∧ r.tagb = y.tagb) ∧
    (let s := (heaped 0).setRegF (gcBase 0 + 8) 7 7 1
     bit (s.reg (gcBase 0 + 8)) 7 = true ∧ bit ((heaped 0).reg (gcBase 0 + 8)) 7 = false ∧
       wgives (State.clearMaps false (s.gcW false).clearing s) ()) := by decide +kernel

/-- O40: a scan that fits and one that does not, a flip and a SATBLOG of bank 2 of core 5. -/
theorem witness_RegisterScans :
    let s := (heaped 1).modBank 5 2 fun k => { k with
      st := 3, wcause := 7, scanPend := true, gr := [(2, mkWord tyCONS 0x40000100)],
      satblog := [mkWord tyCONS 0x40000200, fixWord 7] }
    let l := s.bank 5 2
    let g := (heaped 2).modBank 5 2 fun k => { k with st := 3, wcause := 7, flipPend := true, gr := [(2, fixWord 3)] }
    let full := s.modBank 5 2 fun k => { k with satblog := List.replicate 256 nilWord }
    (l.scanPend = true ∧ l.satblog.length + (scanGo s false l (scanRegs l)).length ≤ 256 ∧
      256 < (full.bank 5 2).satblog.length + (scanGo full false (full.bank 5 2) (scanRegs (full.bank 5 2))).length ∧
      s.isPtr tyCONS = true ∧ s.inScope false 0x40000200 = true ∧ (s.wnw (s.inService (clusterOf 5)) false).full = false ∧
      wgives (markObj false (mkWord tyCONS 0x40000200) s) ()) ∧
      (g.bank 5 2).flipPend = true ∧ (g.gcW false).failing = false ∧ wgives (flipGo 5 2 false (scanRegs (g.bank 5 2)) g) () := by
  decide +kernel

/-- Granule 0x123456 with a directory entry, lines of agents, an L3 line and a transaction. -/
def homed (dir : DirEntry) (l : Tbl (Option AgentLine)) (l3 : Tbl (Option L3Line)) (t : Tbl (Option HomeTxn)) : State :=
  { State.reset with mem := { dir := Tbl.set {} [] 0x123456 dir, lines := l, l3 := l3, txns := t } }

/-- O41: a line nobody holds, in L3 and not; one that agent 9 owns; one that is shared; a modified line of L3. -/
theorem witness_HomeRequests :
    (∀ p ∈ [(({} : DirEntry), ([] : Tbl (Option L3Line))), ({}, [(0x123456, some ⟨true, rawLine 0⟩)]),
        ({ dst := .ex, fwd := some 9, pv := [9] }, []), ({ dst := .sh, fwd := some 100, pv := [9, 100] }, []),
        ({ dst := .sh, fwd := none, pv := [9] }, []), ({ dst := .sh, fwd := some 3, pv := [3] }, [(0x123456, some ⟨false, rawLine 0⟩)])],
      let s := homed p.1 [] p.2 []
      s.inDram (64 * 0x123456) = true ∧ s.tripped = false ∧ s.oddBound 3 = false ∧ s.fenceOwner (64 * 0x123456) = 0 ∧
        s.txn 0x123456 = none ∧ Tbl.get 0 s.mem.upDir 0x123456 = 0 ∧ s.dirVictim 0x123456 = some none ∧
        s.agLine 3 0x123456 = none ∧ s.missOut 3 0x123456 = false ∧ s.dirE 0x123456 = p.1 ∧
        (s.l3Line 0x123456).isSome = !p.2.isEmpty ∧ s.mem.upL3.contains 0x123456 = false ∧
        Tbl.get 0 s.mem.ecc (s.store (64 * 0x123456) / 64) = 0 ∧
        (s.mem.l3.filter fun y => State.home y.1 == State.home 0x123456).length <
          196608 - s.regF (clusterBase (State.home 0x123456) + 0x10018) 15 0) ∧
    (∀ pv ∈ [[3], [3, 9]], let l : AgentLine := ⟨.f, false, rawLine 0⟩
      let s := homed { dst := .sh, fwd := some 3, pv := pv } [(agKey 3 0x123456, some l)] [] []
      s.agLine 3 0x123456 = some l ∧ s.missOut 3 0x123456 = false ∧ (s.dirE 0x123456).pv.contains 3 = true ∧
        (State.byDistance 3 (s.dirE 0x123456).pv = [] ↔ pv = [3])) := by decide +kernel

/-- O41: a line in a transaction with a queue that has room and one that has none; a foreign granule; an odd agent of a
yoked pair, and an address outside memory. -/
theorem witness_HomeQueue :
    (let s := homed {} [] [] [(0x123456, some { req := .rd, agent := 9, world := false, tr := .bm })]
     (s.txn 0x123456).isSome = true ∧ s.mem.queue = [] ∧
       ((List.replicate 64 (⟨0x123456, 20, .rd, false⟩ : QReq)).filter fun x => State.home x.gran == State.home 0x123456).length = 64) ∧
    (let s := State.reset.setReg (rFENCED (64 * 0x123456 / 2 ^ 26)) 1
     s.fenceOwner (64 * 0x123456) ≠ 0 ∧ (s.core 3).frozen = false) ∧
    (State.reset.setPairMode 1 2).oddBound 3 = true ∧ State.reset.inDram (64 * 0x3FFFFFFFF) = false ∧
    State.reset.inBin (64 * 0x3FFFFFFFF) = false := by decide +kernel

/-- Memory state of the coherence protocol alone, with an L2 line of agent 3 in each case. -/
def lineOf3 (st : LineSt) (m : Mem) : State :=
  { State.reset with mem := { m with lines := [(agKey 3 0x123456, some ⟨st, false, rawLine 0⟩)] } }

/-- O42: each probe at a line in each state, at a line that is gone, at a victim, and deferred by a reservation. -/
theorem witness_Probes :
    (∀ p ∈ [Probe.prd 9, .pro 9, .pinv, .pcln, .fdem], ∀ st ∈ [LineSt.m, .e, .s, .f],
      let s := lineOf3 st { probes := [(3, 0x123456, p)] }
      (3, 0x123456, p) ∈ s.mem.probes ∧ s.holdsProbe 3 0x123456 = false ∧ s.mem.upL2.contains (3, 0x123456) = false ∧
        s.agLine 3 0x123456 = some ⟨st, false, rawLine 0⟩ ∧ s.missOut 3 0x123456 = false) ∧
    (let m : Mem := { probes := [(3, 0x123456, .pinv)], victims := [(agKey 3 0x123456, some (rawLine 0))], wbs := [(3, 0x123456, rawLine 0)] }
     let s := { State.reset with mem := m }
     s.agLine 3 0x123456 = none ∧ s.victim 3 0x123456 = some (rawLine 0) ∧ ∃ y ∈ s.mem.wbs, y.1 = 3 ∧ y.2.1 = 0x123456) ∧
    ((lineOf3 .m { probes := [(3, 0x123456, .pinv)] }).modBank 3 1 fun b => { b with resv := some 0x123456 }).holdsProbe 3 0x123456 =
      true := by decide +kernel

/-- O42: an acknowledgement for each reply of the home, and the end of a transaction that waits for it and that does not. -/
theorem witness_Acknowledgements :
    (∀ k ∈ [(⟨3, 0x123456, .prd 9, true, none⟩ : ProbeAck), ⟨3, 0x123456, .pinv, false, some (rawLine 8)⟩],
      ∀ x ∈ [({ req := .rd, agent := 9, world := false, tr := .bp, acks := [3] } : HomeTxn),
        { req := .ro, agent := 9, world := false, tr := .bp, acks := [3, 20] },
        { req := .rd, agent := 9, world := false, tr := .bp, acks := [3], respTry := [20] }],
      let s := { State.reset with mem := { acks := [k], txns := [(0x123456, some x)] } }
      s.mem.acks.find? (fun y => y.agent == 3 && y.gran == 0x123456) = some k ∧ s.txn 0x123456 = some x ∧ s.mem.l3 = [] ∧
        0 < 196608 - s.regF (clusterBase (State.home 0x123456) + 0x10018) 15 0) ∧
    (∀ tr ∈ [HomeTr.bc, .bp], let x : HomeTxn := { req := .rd, agent := 3, world := false, tr := tr }
      let s := { State.reset with mem := { cmps := [(3, 0x123456)], txns := [(0x123456, some x)] } }
      (3, 0x123456) ∈ s.mem.cmps ∧ s.txn 0x123456 = some x ∧ s.mem.queue = []) := by decide +kernel

/-- O42: a grant, data alone and data; a full set with and without a line that may go; a writeback by the owner, by another,
a notice, a writeback's acknowledgement and a request turned away. -/
theorem witness_FillsAndWritebacks :
    (∀ f ∈ [(⟨3, 0x123456, some (rawLine 0), false, .m, false⟩ : FillMsg), ⟨3, 0x123456, some (rawLine 0), false, .e, true⟩],
      let s := { State.reset with mem := { fills := [f] } }
      s.mem.fills.filter (fun f => f.agent == 3 && f.gran == 0x123456) = [f] ∧ s.oddBound 3 = false ∧
        s.waysFull 3 0x123456 = false ∧ s.agLine 3 0x123456 = none ∧ (State.reset.setPairMode 1 2).oddBound 3 = true) ∧
    (let ls : Tbl (Option AgentLine) := (List.range 16).map fun i => (agKey 3 (0x56 + 0x8000 * i), some ⟨.e, false, rawLine 0⟩)
     let s := { State.reset with mem := { lines := ls } }
     let t := s.modCore 3 fun x => { x with locks := (List.range 16).map fun i => 0x56 + 0x8000 * i }
     s.waysFull 3 0x80056 = true ∧ s.evictable 3 0x80056 ≠ [] ∧ t.waysFull 3 0x80056 = true ∧ t.evictable 3 0x80056 = []) ∧
    (∀ d ∈ [({ dst := .ex, fwd := some 3, pv := [3] } : DirEntry), { dst := .sh, fwd := none, pv := [3] },
        { dst := .sh, fwd := some 3, pv := [3, 9] }],
      let s := { State.reset with mem := { dir := [(0x123456, d)], wbs := [(3, 0x123456, rawLine 0)], evns := [(3, 0x123456)] } }
      s.dirE 0x123456 = d ∧ s.mem.wbs = [(3, 0x123456, rawLine 0)] ∧ (3, 0x123456) ∈ s.mem.evns ∧
        (3, 0x123456) ∉ s.mem.wbacks ∧ s.mem.probes = []) ∧
    (3, 0x123456) ∈ ({ State.reset with mem := { wbacks := [(3, 0x123456)] } } : State).mem.wbacks ∧
    (let q : QReq := ⟨0x123456, 3, .rd, false⟩
     let x : HomeTxn := { req := .rd, agent := 9, world := false, tr := .bp }
     let s := { State.reset with mem := { nacked := [q], txns := [(0x123456, some x)] } }
     s.mem.nacked.find? (fun y => y.agent == 3 && y.gran == 0x123456) = some q ∧ (s.txn 0x123456).isSome = true ∧
       s.mem.queue = [] ∧ s.fenceOwner (64 * 0x123456) = wn q.world ∧
       (s.setReg (rFENCED (64 * 0x123456 / 2 ^ 26)) 1).fenceOwner (64 * 0x123456) ≠ wn q.world) := by decide +kernel

/-- O42: an eviction from each state with room in the victim buffer and with none, a locked line and one that is missing;
a scrub that is due. -/
theorem witness_EvictionAndScrub :
    (∀ st ∈ [LineSt.m, .e, .s, .f], let s := lineOf3 st {}
      s.missOut 3 0x123456 = false ∧ 0x123456 ∉ (s.core 3).locks ∧ s.mem.upL2.contains (3, 0x123456) = false ∧
        s.agLine 3 0x123456 = some ⟨st, false, rawLine 0⟩ ∧ s.mem.victims = [] ∧
        (s.setTrans 3 0x123456 (some .isD)).missOut 3 0x123456 = true) ∧
    (let s := lineOf3 .m { victims := (List.range 8).map fun i => (agKey 3 i, some (rawLine 0)) }
     8 ≤ (s.mem.victims.filter fun y => y.1 / 2 ^ 34 == 3).length) ∧
    (let s := (State.reset.setReg rSCRUB 0x80000000).setReg rMCSTAT 0x8000
     bit (s.reg rSCRUB) 31 = true ∧ bit (s.reg rMCSTAT) 15 = true ∧ s.scrubDue 15 = true ∧
       ({ s with mem := { s.mem with scrubAt := [(15, some s.bounds)] } } : State).scrubDue 15 = false) := by decide +kernel

/-- Link 2 in a state, with what it holds. -/
def linked (st : Nat) (f : Link → Link) : State := (State.reset.setRegF (linkBase 2 + 8) 2 0 st).modLink 2 f

/-- A flit of a kind, with its first word, its acknowledgement field and the CRC for a sequence number. -/
def flit (kind w0 w3 ack n : Nat) : Flit :=
  (Flit.ofWords (rawWord (v64 w0)) (rawWord 0) (rawWord 77) (rawWord (v64 w3))).withCtl kind false 0 ack n

/-- O43: each state of the link with nothing to hand back; the sixteenth retrain of a window and one before; four lanes that
name every lane; CTRL parameters that match and that do not. -/
theorem witness_LinkStates :
    (∀ n ∈ List.range 8, let s := linked n id
      s.linkState 2 = n ∧ s.backPackets 2 = [] ∧ s.tripped = false ∧ s.linkFrozen 2 = false ∧
        ∀ v ∈ [0, 1, 2, 3], Tbl.get [] (s.link 2).q v = []) ∧
    (∀ n ∈ [14, 15], let s := linked 5 fun x => { x with retrains := List.replicate n 0 }
      ((s.link 2).retrains.filter fun b => decide (s.bounds - b < 2 ^ 20)).length = n ∧ (s.link 2).disabling = false) ∧
    (let lanes : List LaneInfo := [⟨1, true⟩, ⟨0, false⟩, ⟨3, false⟩, ⟨2, true⟩]
     lanes.length = 4 ∧ ∀ i : Fin 4, ∃ y ∈ lanes, y.map.val = i.val) ∧
    (∀ v ∈ [1, 2], let f := flit 6 1 v 0 0xFFFF
      f.kind = 6 ∧ f.w0.val = 1 ∧ f.crc = f.crcFor 0xFFFF ∧ f.ackv = false ∧ (f.w3.val = 1 ↔ v = 1)) ∧
    ((linked 5 fun x => { x with disabling := true }).link 2).disabling = true ∧ bit ((linked 7 id).reg (linkBase 2)) 5 = true ∧
    (let s := (linked 4 id).setReg (linkBase 2 + 0x10) 5
     s.reg (linkBase 2 + 0x10) ≠ 0 ∧ s.reg (linkBase 2 + 0x10) ≠ (flit 6 1 1 0 0xFFFF).w2.val) := by decide +kernel

/-- A flit in the replay buffer. -/
def sentFlit (n : Nat) : TxFlit := ⟨BitVec.ofNat 10 n, Flit.ofWords (rawWord 1) (rawWord 2) (rawWord 3) (rawWord 4), none⟩

/-- A packet without data for VC 3. -/
def small : Packet := mkPacket 5 3 16 false false 0 (rawWord 0) (rawWord 1) []

/-- O44: a HEAD with the right CRC and with another; CRED, MARK and the CTRL flits. -/
theorem witness_LinkFlits :
    (let s := linked 5 id
     let f := flit 1 0x100 0 0 0
     let p := flitsPacket [f]
     s.tripped = false ∧ s.linkState 2 = 5 ∧ s.flitsPass 2 = true ∧ s.rxExp 2 = 0 ∧ f.kind = 1 ∧ f.crc = f.crcFor 0 ∧ f.ackv = false ∧
       p.len ≠ 0 ∧ p.len ≤ 16 ∧ (s.link 2).rxPart = [] ∧ (flit 1 0x100 0 0 5).crc ≠ (flit 1 0x100 0 0 5).crcFor 0 ∧
       (flitsPacket [flit 1 0 0 0 0]).len = 0 ∧ ((s.link 2).uncorr < 15) ∧ (linked 0 id).flitsPass 2 = false) ∧
    (∀ p ∈ [(3, 9), (4, 0), (5, 0x0001000200030004), (6, 2), (6, 3), (6, 4)], let f := flit p.1 p.2 0 0 0xFFFF
      f.kind = p.1 ∧ f.w0.val = v64 p.2 ∧ f.crc = f.crcFor 0xFFFF ∧ f.ackv = false) ∧
    (let s := State.setRegF (linked 5 id) rBTSTAT 58 56 2
     s.isRoot = false ∧ s.regF rBTSTAT 58 56 = 2 ∧ s.fab.btJumpTo.toNat < (flit 3 9 0 0 0xFFFF).w0.val.toNat) ∧
    (let s := (linked 6 id).setReg (linkBase 2 + 0x80) 0x10
     s.linkState 2 = 6 ∧ s.flitsPass 2 = true ∧ (s.link 2).replay = [] ∧ (s.link 2).disabling = false) := by decide +kernel

/-- O44: an acknowledged, an outstanding and an unknown flit; the replay timer below and at the eighth. -/
theorem witness_Replay :
    (∀ n ∈ [0, 7], let s := linked 5 fun x => { x with replay := [sentFlit 7, sentFlit 8], stalls := n }
      let seqs := (s.link 2).replay.map fun y => y.seq.toNat
      (s.link 2).stalls = n ∧ seqs = [7, 8] ∧ (flit 4 0 0 7 0xFFFF).ack = 7 ∧ (flit 4 0 0 50 0xFFFF).ack = 50 ∧
        (s.link 2).retrains = []) ∧
    (let s := linked 5 fun x => { x with replay := [sentFlit 7] }
     (sentFlit 7).seq.toNat = ((flit 4 0 0 8 0xFFFF).ack + 1023) % 1024 ∧
       ((s.link 2).replay.map fun y => y.seq.toNat) = [7] ∧ (flit 4 0 0 8 0xFFFF).ack = 8) := by decide +kernel

/-- O44: a MARK by the link to the parent, whose deviation the module follows. -/
theorem witness_Marks :
    let s := ((linked 5 id).setRegF rBTSTAT 58 56 2).setReg (rLNKCLS 2) 0
    let n : Neigh := ⟨0, true, 1, 7, false, 1⟩
    let s := { s with fab := { s.fab with neigh := [(2, some n)], bestSelf := false, bestPref := true } }
    let f := (flit 3 9 (2 ^ 63) 0 0xFFFF)
    bit f.w3.val 63 = true ∧ s.isRoot = false ∧ s.regF rBTSTAT 58 56 = 2 ∧ n.period = s.regF rBTCTL 1 0 ∧
      s.parent.any (fun y => decide (y.2 = n)) = true := by decide +kernel

/-- O44: each thing a slot may send. -/
theorem witness_Slots :
    ((linked 5 fun x => { x with markDue := true }).link 2).markDue = true ∧
    ((linked 5 fun x => { x with nakDue := true, nakWait := true }).link 2).nakDue = true ∧
    (let x := (linked 5 fun x => { x with credDue := true, freed := [(0, 5)] }).link 2
     x.credDue = true ∧ x.markDue = false ∧ x.nakDue = false ∧ x.ctrlDue = []) ∧
    (let x := (linked 5 fun x => { x with cur := [flit 1 0 0 0 0], curVc := 1 }).link 2
     x.cur = flit 1 0 0 0 0 :: [] ∧ x.replayAt = none ∧ x.replay.length < 512 ∧ x.credDue = false) ∧
    (let s := linked 5 fun x => { x with q := [(3, [small])], limit := [(3, 64)] }
     Tbl.get [] (s.link 2).q 3 = [small] ∧ small.flits ≤ s.linkCredit 2 3 ∧ (s.link 2).quiesceTx = false ∧ (s.link 2).cur = []) := by
  decide +kernel

/-- O44, O56: a codeword of four flits of data, without errors and with a wrong byte; 164 bytes too far from any codeword. -/
def codeword : List Byte := rsEncode ((List.range 160).map fun i => BitVec.ofNat 8 (7 * i))

theorem witness_Codewords :
    codeword.length = 164 ∧ rsSyndromes codeword = (0, 0, 0, 0) := by decide +kernel
theorem witness_Corrected : rsDecode codeword = some codeword ∧ rsDecode (fixByte codeword 7 5) = some codeword ∧
    codeword ≠ fixByte codeword 7 5 := by decide +kernel
theorem witness_Uncorrectable : rsDecode ((List.replicate 4 3) ++ List.replicate 160 0) = none := by decide +kernel

/-- A module with node number 5, links 2 and 3 up and fabric links. -/
def fabric : State :=
  let s := (State.reset.setReg rFABNODE 0x10005).setRegF (linkBase 2 + 8) 2 0 5
  (((s.setRegF (linkBase 3 + 8) 2 0 5).setReg (rLNKCLS 2) 0).setReg rFABCTL 4).setReg rGLBBOOT 1

/-- A packet from node 9 with an order number; a management packet has no transaction number. -/
def from9 (dst ty : Nat) (loc : Bool) (oseq : Nat) (w2 w3 : Word) (d : List Word) : Packet :=
  (mkPacket 9 dst ty loc false (if vcOf ty = 3 then 0 else 3) w2 w3 d).set1 63 48 oseq

/-- O45: a packet of each type that may be taken; one for another node; one that is malformed; one by an isolated link. -/
theorem witness_Packets :
    (let s := fabric
     s.tripped = false ∧ s.linkState 2 = 5 ∧ (s.link 2).rxHeld = [] ∧ (s.link 2).rxOld = [] ∧ s.linkFrozen 2 = false ∧ s.fabUp = true ∧
       s.nodeNo = 5 ∧ s.reeve.inbox = [] ∧ s.reeve.fwWait = false ∧ State.reset.fabUp = false) ∧
    (∀ p ∈ [from9 5 pRLOAD false 0 far (fixWord 0) [], from9 5 pRDATA false 0 far (rawWord 0) [], from9 5 pRACK false 0 (rawWord 0) (rawWord 0) [],
        from9 5 pRERR false 0 (rawWord 4) (rawWord 0) [], from9 5 pBANS false 0 trueWord (rawWord 0) [],
        from9 0 pDISC true 0 (rawWord 77) (rawWord 0x8001000900000000) [], from9 0 pJOIN true 0 (rawWord 77) (rawWord 0x001280000000) [],
        from9 0 pASSIGN true 0 (rawWord 0) (rawWord 0x001200090000) [], from9 5 pRESYNC false 0 (rawWord 0x30007) (rawWord 0) [],
        from9 5 pRSACK false 0 (rawWord 0x30007) (rawWord 0) [], from9 5 pEPOCH false 0 (rawWord 2) (rawWord 0) [],
        from9 0 pNBOOT true 0 (rawWord 0x0100000000000000) (rawWord 0) []],
      fabric.packetOk p = true ∧ fabric.linkRights 2 p = .accept ∧ (p.isLocal = true ∨ p.dst = fabric.nodeNo) ∧ p.src = 9) ∧
    fabric.packetOk (from9 5 0x7F false 0 (rawWord 0) (rawWord 0) []) = false ∧
    (from9 6 pRLOAD false 0 far (fixWord 0) []).dst ≠ fabric.nodeNo ∧
    (fabric.setReg (rLNKCLS 2) 2).linkRights 2 (from9 5 pRLOAD false 0 far (fixWord 0) []) = .violation ∧
    ((fabric.setRegF rFABSTAT 7 7 1).isRoot = true ∧ (fabric.setRegF rFABSTAT 7 7 1).addrFree 0x12 = true ∧ fabric.discovers = true ∧
      (State.reset.setReg rFABCTL 0).discovers = false ∧ fabric.linkClass 2 = 0 ∧
      (from9 5 pRTUPD false 0 (rawWord 3) (rawWord 0x203) []).src ≠ fabric.regF rFABSTAT 31 16) ∧
    (let s := (({ fabric with reeve := { fabric.reeve with fwWait := true } } : State).setReg rGLBSTRAP 2)
     s.reeve.fwWait = true ∧ s.regF rGLBSTRAP 1 0 = 2) := by decide +kernel

/-- O45: a request in order, out of order, a duplicate, and from a source that is not known; a reply to its transaction. -/
theorem witness_PacketOrder :
    (let s := fabric.setSrcOrd 9 { valid := true }
     let r (n : Nat) : Packet := from9 5 pRLOAD false n far (fixWord 0) []
     (s.srcOrd 9).valid = true ∧ (fabric.srcOrd 9).valid = false ∧ (s.srcOrd 9).heldReq = [] ∧ (s.srcOrd 9).heldMsg = [] ∧
       (r 0).oseq = (s.srcOrd 9).req ∧ newer16 (r 3).oseq (s.srcOrd 9).req = true ∧ newer16 (r 0xFFFE).oseq (s.srcOrd 9).req = false ∧
       (s.performReq (r 0)).any (fun t => decide (t.srcOrd 9 = s.srcOrd 9)) = true) ∧
    (∀ k ∈ [0, 2, 7], let y := mkPacket 5 9 1 false false 3 far (fixWord 0) []
      let o : Ott := { busy := true, kind := k, node := 9, packet := some y }
      let s := { fabric with fab := { fabric.fab with ott := [(3, o)] } }
      let d := from9 5 pRDATA false 0 far (rawWord 0) []
      s.ott (d.ttag % 2 ^ 17) = o ∧ y.ttag = d.ttag ∧ s.fab.ott = [(3, o)]) := by decide +kernel

/-- O46: the conditions of each event at their limits and below. -/
theorem witness_FabricTime :
    (∀ n ∈ [255, 256], let s := { fabric with fab := { fabric.fab with lastDisc := n, elect := 16 } }
      s.tripped = false ∧ s.discovers = true ∧ s.fab.bestSelf = true ∧ s.isRoot = false ∧ s.fab.lastDisc = n ∧ s.fab.joinAge = 0) ∧
    (∀ n ∈ [16383, 16384], let s := ({ fabric with fab := { fabric.fab with addrs := [(9, { held := true, age := n })] } } : State).setRegF rFABSTAT 7 7 1
      s.isRoot = true ∧ (s.addrOf 9).held = true ∧ (s.addrOf 9).age = n) ∧
    (∀ n ∈ [63, 64], let p := from9 5 pRLOAD false 3 far (fixWord 0) []
      let s := { fabric with fab := { fabric.fab with joins := [(2, some (77, n))], resend := [(9, 2, 3, n - 64)] } }
      let s := s.setSrcOrd 9 { valid := true, heldReq := [(3, 2, p)], gapReq := n }
      Tbl.get none s.fab.joins 2 = some (77, n) ∧ (s.srcOrd 9).heldReq = (3, 2, p) :: [] ∧ (s.srcOrd 9).gapReq = n ∧
        s.fab.resend = (9, 2 * 1, 3, 0) :: [] ∧ 0 ≤ s.cycle ∧ s.fab.ott = []) ∧
    (State.reset.isPtr 0x04 = false ∧ State.reset.isPtr tyCONS = true ∧ ptrRule 0x1000 = true ∧ ptrRule 1 = false ∧
      expEn State.reset false = false) ∧
    (let e : Ott := { busy := true, packet := some small, node := 3, bouts := 0xFFFF }
     let s := { State.reset with fab := { State.reset.fab with ott := [(131071, e)] } }
     s.ott 131071 = e ∧ e.packet.isSome = true ∧ s.regF (gcBase (wn e.world) + 0x60) 47 32 ≤ e.bouts) ∧
    (let s := { State.reset with fab := { State.reset.fab with lease0 := { on := true } } }
     (s.lease false).on = true ∧ s.lsCount false ≤ (s.lease false).pos ∧ (State.reset.lease false).on = false) := by decide +kernel

/-- Exports of world 0: eight entries at 0x100000, the third as given. -/
def exporting (w : Word) : State :=
  let t : TlbEntry := ⟨false, 0, true, 1, 0x100000, 0x100000, .cacheable, 0, true, true, true, true⟩
  let s := ((State.reset.setReg (gcBase 0 + 0x50) 0x100000).setReg (gcBase 0 + 0x58) 8).setRegF (gcBase 0 + 0x60) 16 16 1
  let s := { s with gc := { s.gc with tlb := (List.range 12).map fun k => (k, [t]) } }
  let s := { s with mem := s.mem.putWords (0x100000 + 16 * 3) [rawWord 4, w] }
  wafter (wRead (s.inService (3 % 12)) false (exportAddr s false 3 + 8) (s.setReg rBTNUM 5))

/-- O46: an entry that is free, one that lives and one that has expired; a sweep at its start and at its end. -/
theorem witness_ExportSweep :
    (∀ v ∈ [0, 0x8000000000000009, 0x8000000000000001], let w := rawWord (v64 v)
      let s := exporting w
      let r := wRead (s.inService (3 % 12)) false (exportAddr s false 3 + 8) s
      expEn s false = true ∧ 0 < expCount s false ∧ wgives r w ∧ wafter r = s ∧ (v ≠ 0 → (expired s w = true ↔ v = 0x8000000000000001)) ∧
        (bit w.val 63 = true ↔ v ≠ 0)) ∧
    (let s := exporting (rawWord 0x8000000000000001)
     wgives (freeExport (s.inService (3 % 12)) false 3 (rawWord 0x8000000000000001) s) ()) ∧
    (let y : Sweep := { State.reset.sweep false with left := 4 }
     (State.reset.sweep false).left = 0 ∧ 0 < (((exporting nilWord).setSweep false y).sweep false).left) := by
  decide +kernel

/-- A module whose Reeve runs its firmware. -/
def awake : State := ({ State.reset with reeve := { up := true } } : State).setReg rGLBBOOT 0xF

/-- A port with replies that wait. -/
def replies (p : Port) (l : List (List Byte)) (s : State) : State :=
  s.setPort p { s.port p with queue := l.map fun x => ⟨x, some 3⟩ }

/-- O47: targets that have started and that have not; an address and none; replies that wait; write lengths at 15 and 16;
the JTAG register CMDDATA with each form of a byte, and a reply at its first and its last byte. -/
theorem witness_I3CAndJtag :
    (State.reset.reeve.up = false ∧ State.reset.reeve.inbox = [] ∧ awake.reeve.up = true ∧ awake.bsh.on = true ∧
      ({ State.reset with bsh := { on := false } } : State).bsh.on = false ∧ awake.reeve.inbox = [] ∧
      ([1, 2, 3] : List Byte).length ≤ awake.reeve.mwl.toNat ∧ awake.reeve.dyn = none ∧ awake.bsh.dyn = none ∧
      (awake.port .mgmt).queue = [] ∧ awake.bsh.as < 16 ∧ awake.jtag.ir ≠ 0x20) ∧
    (let s := { awake with reeve := { awake.reeve with dyn := some 5 }, bsh := { awake.bsh with dyn := some 7 } }
     s.reeve.dyn = some 5 ∧ s.bsh.dyn = some 7) ∧
    ((replies .mgmt [[1, 2]] awake).port .mgmt).queue = ⟨[1, 2], some 3⟩ :: [] ∧
    ((16 ≤ (16 : BitVec 16).toNat) ∧ (15 : BitVec 16).toNat < 16 ∧ 1 < (2 : Byte).toNat ∧ (1 : Byte).toNat ≤ 1) ∧
    (let s := { awake.setReg rGLBSTRAP 0x10 with jtag := { ir := 0x20, rx := [1, 2] } }
     let t := replies .debug [[9, 8], [7]] s
     s.jtag.ir = 0x20 ∧ (0x012 : BitVec 10).getLsbD 9 = false ∧ (0x212 : BitVec 10).getLsbD 9 = true ∧ (0x212 : BitVec 10).getLsbD 8 = false ∧
       (0x312 : BitVec 10).getLsbD 8 = true ∧ bit (s.reg rGLBSTRAP) 4 = true ∧ s.jtag.rx.length < 1032 ∧ s.jtag.cur = none ∧
       (s.port .debug).queue = [] ∧ (t.port .debug).queue = ⟨[9, 8], some 3⟩ :: [⟨[7], some 3⟩] ∧ ([8] : List Byte) ≠ [] ∧
       ({ t with jtag := { t.jtag with cur := some ⟨[9, 8], some 3⟩, tx := [8] } } : State).jtag.tx = [8]) := by decide +kernel

/-- The host's window 1 at BAR2 offset 2^23, of 2 MB at address 2^21, with rights. -/
def window (rights : Nat) : State :=
  ((((awake.setRegF rHPSTAT 2 2 1).setReg (hostWin 1) 1).setReg (hostWin 1 + 8) 1).setReg (hostWin 1 + 0x10) 2).setReg (hostWin 1 + 0x18) (v64 rights)

/-- A doorbell of channel 3 at the BAR2 offset 2^23 with a length. -/
def door (len : Nat) : Val := v64 (3 * 2 ^ 56 + len * 2 ^ 42 + 65536)

/-- O48: each state of the mailboxes for each writer; the host's mailbox; a port that is down. -/
theorem witness_MailboxAndHostPort :
    (State.reset.whoOf .reeve = none ∧ awake.whoOf .reeve = some whoReeve ∧ bit (1 : Val) 0 = true ∧
      awake.whoOf (.bank 0 1) = some { reeve := false, c := 0, b := 1, w := false } ∧
      (awake.modBank 0 1 fun k => { k with status := { k.status with lvl := false } }).whoOf (.bank 0 1) =
        some { reeve := false, c := 0, b := 1, w := false, sup := false } ∧ bit (awake.reg (mailBase 0)) 0 = false ∧
      bit (awake.reg (mailBase 0)) 1 = false) ∧
    (let s := replies (.core 0) [[1]] (awake.setReg (mailBase 0) 2)
     bit (s.reg (mailBase 0)) 1 = true ∧ (s.port (.core 0)).queue.length ≤ 1 ∧ (s.port (.core 0)).queue = ⟨[1], some 3⟩ :: []) ∧
    (awake.host.cmdb = false ∧ awake.host.rplv = false ∧ awake.hostFrozen = false ∧ awake.hostUp = false) ∧
    (let s := replies .host [[1], [2]] { awake with host := { awake.host with rplv := true } }
     s.host.rplv = true ∧ s.hostFrozen = false ∧ (s.port .host).queue = ⟨[1], some 3⟩ :: [⟨[2], some 3⟩]) ∧
    (State.reset.running = false ∧ ({ State.reset with pins := { resetN := true } } : State).running = true) := by
  decide +kernel

/-- O48: a live port and one that is frozen; a BAR2 offset in the window with the right and without, and in none; tags that
may be written and that may not. -/
theorem witness_HostWindows :
    ((window 15).hostUp = true ∧ (window 15).hostFrozen = false ∧ ((window 15).setRegF rFRZP 8 8 1).hostFrozen = true) ∧
    ((window 2).winBad (2 ^ 23) 72 0 = some (2 ^ 23, some 1) ∧ (window 15).winBad 0 1 1 = some (0, none) ∧
      (window 15).winBad (2 ^ 23) 72 0 = none ∧ (window 15).winBad (2 ^ 23) 72 1 = none ∧ (window 15).winBad 0 0 1 = none ∧
      (window 15).winBad (2 ^ 23 + 5) 1 1 = none) ∧
    (let s := window 15
     let good : List Byte := List.replicate 64 5 ++ List.replicate 8 0x16
     let p := { s with mem := { s.mem with poison := [2 ^ 21 / 64] } }
     s.winAt (2 ^ 23) = some 1 ∧ s.winPa 1 (2 ^ 23) = 2 ^ 21 ∧ good.length = 72 ∧ (s.mcRead (2 ^ 21) false).2 = s ∧
       (s.mcRead (2 ^ 21) false).1.poison = false ∧ (p.mcRead (2 ^ 21) false).1.poison = true ∧ (p.mcRead (2 ^ 21) false).2 = p ∧
       (∀ i, i < 8 → s.tagOk (bit (s.reg (hostWin 1 + 0x18)) 3) (good.getD (64 + i) 0) = true) ∧ s.tagOk false tyCONS = false) := by
  decide +kernel

/-- O48: doorbells of each kind, a host bin, and a channel with an answer. -/
theorem witness_Doorbells :
    (let s := window 15
     let bad (v : Val) : Bool := bits v 63 61 != 0 || bits v 41 29 != 0 || (s.chan (bits v 60 56)).busy
     (bad (v64 (2 ^ 61)) = true ∧ bad (door 9) = false ∧ bits (door 9) 28 0 * 128 = 2 ^ 23 ∧ bad 0 = false ∧ s.winAt 0 = none) ∧
       bit (s.reg (hostWin 1 + 0x18)) 1 = true ∧ bit ((window 1).reg (hostWin 1 + 0x18)) 1 = false ∧
       s.winAt (2 ^ 23 + 128 * (9 / 8)) = some 1 ∧ s.winAt (2 ^ 23 + 2 ^ 22) ≠ some 1) ∧
    (let t := window 15
     let s := { t with mem := t.mem.putWords (2 ^ 21) [mkWord tyCONS 64] }
     let d := t.doorWords (2 ^ 21) 2
     let y := s.doorWords (2 ^ 21) 2
     (y.1.any fun x => s.keptLocal x && !(s.reservedType x.type)) = true ∧ d.2.1 = false ∧
       (d.1.any fun x => t.keptLocal x || t.reservedType x.type || t.malformed x) = false ∧
       ({ t with mem := { t.mem with poison := [2 ^ 21 / 64] } }.doorWords (2 ^ 21) 2).2.1 = true) ∧
    (let s := ((window 15).setReg (binBase 7 + 0x10) 0x7F).setReg (binBase 7 + 0x18) 2
     s.binCore 7 = 0x7F ∧ 1 ≤ (2 : Val).toNat ∧ (2 : Val).toNat ≤ s.binUsed 7 ∧ s.binUsed 7 < (3 : Val).toNat) ∧
    (let s := { awake with host := { awake.host with chans := [(3, { busy := true, answer := some 5, next := 9 })], msix := [(3, 0)] } }
     (s.chan 3).answer = some 5 ∧ (s.chan 4).answer = none ∧ bit (Tbl.get 1 s.host.msix 3) 0 = false ∧ (s.chan 3).next ≠ 0) := by decide +kernel

/-- A command that is done with a status and data, and the state that it leaves. -/
def done (r : CmdRes) (st : Byte) (data : List Byte) : Bool :=
  match r with
  | .done a d _ => decide (a = st) && decide (d = data)
  | .wait _ => false
def left (r : CmdRes) (s : State) : State :=
  match r with
  | .done _ _ t => t
  | .wait _ => s

/-- Link 2 of an awake module in Active, of a class. -/
def peer (cls : Nat) : State := (awake.setRegF (linkBase 2 + 8) 2 0 5).setReg (rLNKCLS 2) (v64 cls)

/-- A port after 16 commands whose numbers are not acknowledged. -/
def fullOf (p : Port) (s : State) : State := s.setPort p { s.port p with out := List.replicate 16 9 }

/-- O49: each port open and shut. -/
theorem witness_Ports :
    ((∀ p ∈ [Port.mgmt, .debug, .host, .core 0, .link 2 9], (peer 0).hears p = true ∧ State.reset.hears p = false) ∧
      awake.reeve.inbox = [] ∧ ([] : List Byte).length + 8 ≤ awake.reeve.mwl.toNat ∧
      bit ((awake.setReg rGLBSTRAP 0x10).reg rGLBSTRAP) 4 = true ∧ bit (awake.reg rGLBSTRAP) 4 = false ∧
      awake.host.cmdb = false ∧ awake.host.rplv = false ∧ awake.hostFrozen = false ∧
      ({ awake with host := { awake.host with cmdb := true } } : State).host.cmdb = true ∧
      awake.regF (mailBase 1) 1 0 = 0 ∧ (awake.setReg (mailBase 1) 1).regF (mailBase 1) 1 0 ≠ 0 ∧
      (peer 0).linkState 2 = 5 ∧ awake.linkState 2 ≠ 5) := by decide +kernel

/-- O49: the next number, another, and one whose reply is kept or is not ready yet; 16 outstanding and 15. -/
theorem witness_SequenceNumbers :
    (∀ p ∈ [Port.mgmt, .debug, .host, .core 0, .link 2 9], let s := peer 0
      (0 : BitVec 16) = (s.port p).lastAcc + 1 ∧ (3 : BitVec 16) ≠ (s.port p).lastAcc + 1 ∧ s.rights p 0 [] = true ∧
        (s.port p).out.length < 16 ∧ ¬ ((fullOf p (s.hearNode 2 9)).port p).out.length < 16 ∧ 11 + ([] : List Byte).length ≤ s.replyLimit p) ∧
    (let y : PortSt := { kept := [(3, 0, some [1]), (4, 0, none)] }
     y.kept.find? (fun k => k.1 == 3 && k.2.1 == 0) = some (3, 0, some [1]) ∧
       y.kept.find? (fun k => k.1 == 4 && k.2.1 == 0) = some (4, 0, none) ∧ y.kept.find? (fun k => k.1 == 5 && k.2.1 == 0) = none) := by decide +kernel

/-- O49: before the firmware; a right that a link lacks; a Tripped module; a HALT that is not over. -/
theorem witness_CommandRights :
    (bit (awake.reg rGLBBOOT) 0 = true ∧ bit (State.reset.reg rGLBBOOT) 0 = false ∧ 0x11 ∉ State.bootOps ∧ 0x10 ∈ State.bootOps ∧
      0x20 ∉ State.tripOps ∧ 0x11 ∈ State.tripOps ∧ (peer 2).rights (.link 2 9) 0x21 [] = false) ∧
    (awake.reeve.todo = [] ∧ awake.reeve.exec = none ∧ awake.tripped = false ∧ ({ awake with tripped := true } : State).tripped = true) ∧
    (let s := { awake with reeve := { awake.reeve with exec := some (.halt .mgmt 4 5) } }
     s.reeve.exec = some (.halt .mgmt 4 5) ∧ (s.core 5).halted = false ∧ s.reeve.todo = []) := by decide +kernel

/-- O49: a command that is done, a reply that fits and one that does not; a port of 32 replies and one of fewer. -/
theorem witness_Replies :
    (let r := awake.runCmd .mgmt ⟨0x00, 0, []⟩
     done r stOK [] = true ∧ (left r awake).reeve.exec = none) ∧
    (let s := { awake with reeve := { awake.reeve with mrl := 11 } }
     s.replyLimit .mgmt < 11 + ([0] : List Byte).length ∧ 8 ≤ s.reeve.mwl.toNat) ∧
    (let s := replies .mgmt (List.replicate 32 []) awake
     32 ≤ (s.port .mgmt).queue.length ∧ (awake.port .mgmt).queue.length < 32) := by decide +kernel

/-- A staged image of a kind with an empty body; the signature is Config's. -/
def stagedOf (kind : Nat) (s : State) : State :=
  { s with reeve := { s.reeve with staging := [(0, 0x43), (1, 0x4B), (2, 0x49), (3, 0x4D), (4, BitVec.ofNat 8 kind), (6, 5)] } }

/-- The image that the staging area then holds. -/
def imageOf (kind : Nat) : Image := ⟨kind, 5, [], [0x43, 0x4B, 0x49, 0x4D, BitVec.ofNat 8 kind, 0, 5] ++ List.replicate 121 0⟩

theorem image_read (k : Nat) (h : Config.signatureOk (imageOf k).bytes = true) (g : k = 1 ∨ k = 2) :
    readImage (imageOf k).bytes = some (imageOf k) := by
  have e : (imageOf k).bytes.take (64 + leNat (((imageOf k).bytes.drop 8).take 4) + 64) = (imageOf k).bytes := by
    rcases g with rfl | rfl <;> decide +kernel
  unfold readImage
  simp only [e, h, Bool.and_true]
  rcases g with rfl | rfl <;> decide +kernel

/-- O50: a core with its bank in each state; a fence, a plot, a share with and without a routine in progress, a bin and a
script in each state. -/
theorem witness_Targets :
    (bit ((awake.setReg rCLOSED 1).reg rCLOSED) 0 = true ∧ bit (awake.reg rCLOSED) 0 = false ∧ awake.coreOk 95 = true ∧
      awake.coreOk 96 = false ∧ (awake.bank 5 1).st = 0 ∧ ((awake.modBank 5 1 fun k => { k with st := 2 }).bank 5 1).st ≠ 0 ∧
      awake.oddBound 5 = false ∧ ((awake.setRegF (pairBase 2) 1 0 2).oddBound 5 = true) ∧ (awake.bank 5 1).status.wld = false) ∧
    (awake.regF rBTCTL 1 0 ≠ (3 : Val).toNat ∧ (awake.setReg rBTCTL 3).regF rBTCTL 1 0 = (3 : Val).toNat) ∧
    (awake.plotState 32767 = 0 ∧ (awake.setReg (rPLOT 0) 1).plotState 0 ≠ 0 ∧ awake.binState 4095 = 0 ∧
      (awake.setReg (binBase 7) 1).binState 7 ≠ 0) ∧
    ((awake.shareClose 15).shareRuns 15 = false ∧
      (((awake.modBank 0 0 fun k => { k with micro := some { u := 0x3000, entry := 0x3000, rd := nilWord, rs1 := nilWord, rs2 := nilWord, iw := 0 } }).shareClose 0).shareRuns 0 = true)) ∧
    ((awake.script 3).on = false ∧ ((awake.setScript 3 { on := true }).script 3).on = true) := by decide +kernel

/-- O50: each range of memory, with and without its initialisation and poison; loads that pass and fail; the boot bits with
and without. -/
theorem witness_MemoryAndImages :
    (awake.memRange 0 (8 * 113) = true ∧ awake.memRange 4 8 = false ∧ awake.memRange 0xEF00000000 8 = false ∧ awake.memReady = true ∧
      State.reset.memReady = false ∧ awake.partPoison 0 8 = false ∧
      ({ awake with mem := { poison := [0] } } : State).partPoison 0 8 = true ∧ awake.memRange 64 64 = true ∧ awake.store 64 % 64 = 0) ∧
    ((∀ j ∈ [targetShare 0 0], j = none) ∧ targetShare 0 0x3000 = some 0 ∧
      loadOk ((owned.setReg rGLBBOOT 9)) (shareOwner owned 0) 0 0x3000 [v64 (0x1800 * 2048 + 6 * 256)] = true ∧
      loadOk owned (shareOwner owned 0) 0 0x3000 [v64 (0x1800 * 2048 + 7 * 256)] = false) ∧
    (awake.reeve.fwWait = false ∧ ({ awake with reeve := { fwWait := true } } : State).reeve.fwWait = true ∧ awake.stagedImage = none ∧
      bit (awake.reg rGLBBOOT) 3 = true ∧ bit (State.reset.reg rGLBBOOT) 3 = false ∧ awake.regF rGLBBOOT 2 0 = 7 ∧
      State.reset.regF rGLBBOOT 2 0 ≠ 7 ∧ bit (awake.reg rCSPATCH) 16 = false ∧
      bit ((awake.setReg rCSPATCH 0x10005).reg rCSPATCH) 16 = true ∧ 5 ≤ (awake.setReg rCSPATCH 0x10005).regF rCSPATCH 15 0) := by decide +kernel

/-- O50: the staging area gives an image of each kind, if its signature is right. -/
theorem witness_StagedImages (k : Nat) (g : k = 1 ∨ k = 2) (h : Config.signatureOk (imageOf k).bytes = true) :
    (stagedOf k awake).stagedImage = some (imageOf k) := by
  have e : (stagedOf k awake).staged 0 (64 + 0 + 64) = (imageOf k).bytes ∧ leNat ((stagedOf k awake).staged 8 4) = 0 := by
    rcases g with rfl | rfl <;> decide +kernel
  unfold State.stagedImage
  rw [e.2]
  dsimp only
  rw [if_pos (by omega), e.1]
  exact image_read k h g

/-- O51: cores that are frozen, bound and running; a fault in the escape; bank commands that are taken and rejected; a bin; the
own node. -/
theorem witness_ReeveTargets :
    (let x := (awake.modCore 5 fun y => { y with frozen := true, frzWhy := vESCFAULT }).core 5
     x.frozen = true ∧ x.frzWhy = vESCFAULT ∧ (awake.core 5).frozen = false ∧ awake.pairMode 2 = 0 ∧
       (awake.setRegF (pairBase 2) 1 0 3).pairMode 2 = 3 ∧ ((awake.freezeCore 5 1 5 4).core 5).frozen = true ∧
       ((awake.freezeCore 5 1 5 4).core 5).frzWhy ≠ vESCFAULT) ∧
    (let u := (awake.bankCmd 5 1 1)
     let w := (awake.bankCmd 5 1 7)
     (u.bank 5 1).rej = false ∧ (w.bank 5 1).rej = true) ∧
    (let s := awake.setReg (binBase 3) 4
     s.binState 3 = 4 ∧ s.regF (binBase 3) 23 20 ≠ 1 ∧ (s.setRegF (binBase 3) 23 20 1).regF (binBase 3) 23 20 = 1 ∧
       (s.setRegF (binBase 3) 23 20 1).binState 3 = 4) ∧
    (awake.fabUp = false ∧ ((awake.setReg rFABNODE 0x10005).fabUp = true) ∧ 7 ≠ (awake.setReg rFABNODE 0x10005).nodeNo) := by decide +kernel

/-- O51: a core that is gated, halted, running; registers and counts at their limits. -/
theorem witness_DebugTargets :
    ((awake.core 5).pg = false ∧ ((awake.modCore 5 fun y => { y with pg := true }).core 5).pg = true ∧ (awake.core 5).halted = false ∧
      ((awake.modCore 5 fun y => { y with halted := true }).core 5).halted = true ∧ (awake.core 5).run = none ∧
      (awake.core 5).inEsc = false ∧ ((awake.modCore 5 fun y => { y with run := some 1 }).core 5).run ≠ none) ∧
    (srAssigned 0 = true ∧ srAssigned 0x7F = false) ∧
    (bits (3 : Val) 5 0 = 3 ∧ bits (48 : Val) 5 0 = 48 ∧ bits (v64 0xFFFFFFFFFFFC) 63 48 = 0 ∧ bits (v64 0xFFFFFFFFFFFC) 1 0 = 0) := by decide +kernel

/-- Bytes of one script instruction. -/
def insn (op rd ra rb imm : Nat) : List Byte :=
  [BitVec.ofNat 8 op, BitVec.ofNat 8 rd, BitVec.ofNat 8 ra, BitVec.ofNat 8 rb] ++ leBytes 4 imm

/-- O52: an instruction of each opcode and one past the code; addresses that a script may use and may not; jumps inside the
code, at its end and below it; a wait at its last bout; a budget at its limit. -/
theorem witness_Scripts :
    (∀ op ∈ [1, 2, 3, 4, 5, 6, 7, 8, 9, 0x10, 0x11, 0x18, 0x19, 0x1A, 0x20, 0x21, 0x22, 0x23],
      let i := insn op 15 1 2 8
      State.scriptInsn { code := i } = some i ∧ scriptOp op = true ∧ par i 0 1 = op ∧ par i 1 1 ≤ 15 ∧ par i 2 1 ≤ 15 ∧ par i 3 1 ≤ 15) ∧
    (State.scriptInsn { code := insn 1 0 0 0 0, pc := 1 } = none ∧ scriptOp 0x24 = false) ∧
    (∀ imm ∈ [0, 0x0FFFFFF8], ((0 : Val) + i64 (sext 32 imm)).toNat % 8 = 0 ∧ ((0 : Val) + i64 (sext 32 imm)).toNat ≤ 0x0FFFFFF8) ∧
    (¬ ((0 : Val) + i64 (sext 32 4)).toNat % 8 = 0 ∧ ¬ ((0 : Val) + i64 (sext 32 0x10000000)).toNat ≤ 0x0FFFFFF8) ∧
    (sext 32 0xFFFFFFFF < 0 ∧ (((insn 0x23 0 0 0 0).length / 8 : Nat) : Int) ≤ sext 32 1 ∧ 0 ≤ sext 32 0 ∧
      sext 32 0 < (((insn 0x23 0 0 0 0).length / 8 : Nat) : Int)) ∧
    (let s := awake.setScript 2 { on := true, wait := 1, cut := 64 }
     (s.script 2).on = true ∧ (s.script 2).wait = 1 ∧ 64 ≤ (s.script 2).cut ∧ (awake.script 2).on = false ∧ (awake.script 2).cut < 64) := by decide +kernel

/-- O52: debug units in each state; a HALT and a FABSEND in progress; a full counter. -/
theorem witness_DebugEvents :
    (let s := awake.setRegF (dbgBase 5) 1 1 1
     bit (s.reg (dbgBase 5)) 1 = true ∧ (s.core 5).stepLeft = 0 ∧ (s.core 5).inEsc = false ∧ s.pairMode 2 = 0 ∧ s.reeve.exec = none ∧
       s.reeve.todo = [] ∧ bit (awake.reg (dbgBase 5)) 1 = false) ∧
    (let x := (awake.modCore 5 fun y => { y with stopReq := true }).core 5
     x.stopReq = true ∧ x.halted = false ∧ x.inEsc = false ∧ x.frozen = false ∧ (awake.core 5).stopReq = false) ∧
    (let s := { awake with reeve := { awake.reeve with exec := some (.halt .mgmt 4 5), fabsend := [⟨.mgmt, 3, 9⟩] } }
     s.reeve.exec = some (.halt .mgmt 4 5) ∧ (s.core 5).halted = false ∧ s.reeve.todo = [] ∧ s.reeve.fabsend = ⟨.mgmt, 3, 9⟩ :: [] ∧
       awake.reeve.fabsend = [] ∧ awake.reeve.exec = none) ∧
    (let o := dbgBase 5 + 0x200 + 8 * 7
     let s := (awake.setRegF o 12 12 1).setRegF (o + 0x40) 47 0 (2 ^ 48 - 1)
     bit (s.reg o) 12 = true ∧ s.regF (o + 0x40) 47 0 = 2 ^ 48 - 1 ∧ s.oddBound 5 = false ∧ bit (awake.reg o) 12 = false) := by decide +kernel

/-- A Bushel after a change. -/
def meter (f : Bushel → Bushel) : State := { State.reset with bsh := f State.reset.bsh }

/-- A private write to the Bushel: an address, a length and data, with their CRC. -/
def pwrite (a len : Nat) (d : List Byte) : List Byte :=
  let h := leBytes 2 a ++ leBytes 2 len ++ d
  h ++ leBytes 2 (crc16 0xFFFF h).toNat

/-- O53: a die without power, with a record that waits for it; a span at its last tick and below; a frame that is right, and
one that is not; sealed, not sealed, with no record left; ARM in time, too late and not taken. -/
theorem witness_BushelRecords :
    ((meter fun k => { k with on := false, pendRec := some 0 }).bsh.on = false ∧ State.reset.bsh.on = true ∧ 0 < 16 ∧
      (meter fun k => { k with pendRec := some 0 }).bsh.pendRec = some 0 ∧ State.reset.bsh.regF 0x60 31 0 + 1 < 2 ^ 32) ∧
    ((meter fun k => { k with segs := [(4095, 0, 0)] }).bsh.span = 4095 ∧ State.reset.bsh.span < 4096 ∧ 4096 ≤ 4095 + 1) ∧
    (readFrame (countFrame 7 0 [(0, { c := 5, w := 9 })]) ≠ none ∧ readFrame [] = none) ∧
    (bit ((meter fun k => k.setReg 0x28 0x2000).bsh.reg 0x28) 13 = true ∧ bit (State.reset.bsh.reg 0x28) 13 = false) ∧
    ((meter fun k => k.setReg 0x28 0x8000).bsh.isSealed = true ∧ State.reset.bsh.isSealed = false ∧
      State.reset.bsh.regF 0x28 7 4 < 8 ∧ 8 ≤ (meter fun k => k.setReg 0x28 0x80).bsh.regF 0x28 7 4) ∧
    (let k := (meter fun k => { (k.setReg 0x28 0x4010).setReg 0x40 12000000 with armed := some 0 }).bsh
     k.isSealed = false ∧ k.armed = some 0 ∧ (k.reg 0x40).toNat ≤ 0 + 12000000 ∧ bit (k.reg 0x28) 14 = true ∧
       0 + 12000000 < ((k.setReg 0x40 12000001).reg 0x40).toNat ∧ State.reset.bsh.armed = none ∧ bit (State.reset.bsh.reg 0x28) 14 = false) := by decide +kernel

/-- O53: private writes of each form; a range read whole and in part; an account at its limit. -/
theorem witness_BushelReads :
    (∀ bs ∈ [pwrite 0xF8 1024 [], pwrite 0xF8 0 [], pwrite 0x80 8 (leBytes 8 5), pwrite 0x84 8 (leBytes 8 5)],
      6 ≤ bs.length ∧ par bs (bs.length - 2) 2 = (crc16 0xFFFF (bs.take (bs.length - 2))).toNat) ∧
    (par (pwrite 0xF8 1024 []) 2 2 = 1024 ∧ par (pwrite 0x80 8 (leBytes 8 5)) 2 2 = 8 ∧ par (pwrite 0x80 8 (leBytes 8 5)) 0 2 % 8 = 0 ∧
      par (pwrite 0x84 8 (leBytes 8 5)) 0 2 % 8 ≠ 0) ∧
    (let s := { meter fun k => { k with rdSet := true } with reeve := { up := true } }
     s.reeve.up = true ∧ s.bsh.rdSet = true ∧ s.bsh.rdLen.toNat + 2 ≤ 538 ∧ s.bsh.rdLen.toNat ≤ 1024 ∧ State.reset.bsh.rdSet = false) ∧
    (let k := (meter fun k => k.setReg 0x100 (-1)).bsh
     min (2 ^ 64 - 1) ((k.reg 0x100).toNat + 1) = 2 ^ 64 - 1) := by decide +kernel

/-- A module out of Reset. -/
def powered (f : State → State) : State := f { State.reset with pins := { resetN := true } }

/-- O54: in and out of Reset, with a rail that failed, held hot; each boot step's conditions with and without; no image in flash. -/
theorem witness_PowerAndBoot :
    (State.reset.pins.resetN = false ∧ (powered id).pins.resetN = true ∧ (powered id).pins.railBad = false ∧ (powered id).running = true ∧
      (powered id).reeve.up = false ∧ State.reset.tooHot = false ∧ State.reset.running = false ∧
      (powered fun s => { s with pins := { s.pins with railBad := true } }).pins.railBad = true ∧ awake.reeve.up = true ∧
      (powered fun s => { s with hotHold := true }).hotHold = true) ∧
    (∀ n ∈ [0, 1, 2, 3], (State.reset.setReg rGLBSTRAP (v64 n)).regF rGLBSTRAP 1 0 = n) ∧
    (bit (State.reset.reg rMCSTAT) 16 = false ∧ bit ((powered fun s => s.setReg rMCSTAT 0x1FFFF).reg rMCSTAT) 16 = true ∧
      (powered fun s => s.setReg rMCSTAT 0x1FFFF).reg rMCSTAT = 0x1FFFF ∧ bit (State.reset.reg rGLBBOOT) 2 = false ∧
      bit (awake.reg rGLBBOOT) 2 = true ∧ (State.reset.reg rMCSTAT) ≠ 0x1FFFF) ∧
    (let s := (awake.setReg rGLBSTRAP 1).setReg rGLBBOOT 0
     s.reeve.up = true ∧ s.regF rGLBSTRAP 1 0 = 1 ∧ s.reeve.fwWait = false ∧ bit (s.reg rGLBBOOT) 0 = false ∧
       readImage (({ s with flash := some [] } : State).flash.getD []) = none) ∧
    (let s := ({ awake with reeve := { awake.reeve with fwWait := true } } : State).setReg rGLBSTRAP 2
     s.reeve.up = true ∧ s.reeve.fwWait = true ∧ s.regF rGLBSTRAP 1 0 = 2) := by decide +kernel

/-- O54: readings on both sides of each threshold; a sensor that is silent. -/
theorem witness_Thermal :
    (State.reset.validReadings [] = [] ∧ State.reset.validReadings (List.replicate 13 (some 100)) ≠ [] ∧
      (∀ y ∈ State.reset.validReadings (List.replicate 13 (some 100)), y.2 ≤ 100) ∧
      (0, (100 : Int)) ∈ State.reset.validReadings (List.replicate 13 (some 100))) ∧
    (let s := powered id
     s.thresh 15 8 < 421 ∧ ¬ s.thresh 15 8 < 100 ∧ s.thresh 23 16 < 421 ∧ s.thresh 31 24 < 601 ∧ 100 ≤ s.thresh 31 24) ∧
    (let s := { awake with thMiss := [(12, 16)] }
     s.sensorBad 12 = false ∧ 16 ≤ Tbl.get 0 s.thMiss 12 ∧ Tbl.get 0 awake.thMiss 12 < 16) := by decide +kernel

/-- O54: flash with an image of each kind, if its signature is right. -/
theorem witness_FlashImage (k : Nat) (g : k = 1 ∨ k = 2) (h : Config.signatureOk (imageOf k).bytes = true) :
    readImage (({ awake with flash := some (imageOf k).bytes } : State).flash.getD []) = some (imageOf k) ∧ (imageOf k).kind = k :=
  ⟨image_read k h g, rfl⟩

/-- O55: each writer; an offset that is mapped and one that is not; a world's register to which the other world writes; the
Reeve's own; a bank's; the host's block. -/
theorem witness_RegisterWrites :
    (awake.whoOf .reeve = some whoReeve ∧ whoReeve.reeve = true ∧ State.reset.whoOf .reeve = none ∧
      awake.whoOf (.bank 5 1) = some { reeve := false, c := 5, b := 1, w := false } ∧ RegSrc.reeve ≠ .host) ∧
    (let x : Who := { reeve := false, c := 5, b := 1, w := false }
     awake.regViolation x (mailBase 1) true = true ∧ awake.regViolation x (mailBase 0) true = false ∧ isCoreBlk 0 = false ∧
       isClusterBlk 0 = false ∧ isBinBlk 0 = false ∧ isEvReg 0 = false ∧ isMailBlk 0 = false) ∧
    (∀ o ∈ [rMERR 0, rSCRUB, rNBCTL, rFABCTL, rLNKCLS 5, hostWin 7, rRTSEG 1023, rRTMOD 63, modCtr 5, rTHCTL, rFABNODE, 0, rGLBBOOT],
      o % 8 = 0 ∧ o < 0x10000000 ∧ awake.regViolation whoReeve o true = false) ∧
    ((awake.setReg rFABNODE 0x10005).fabUp = true ∧ 4 % 8 ≠ 0 ∧ 70 ≤ bits (v64 0x464600) 23 16 ∧ bits (v64 0x6E4600) 23 16 ≤ 110 ∧
      110 < bits (v64 0x6F4600) 23 16) ∧
    (awake.coreEnabled 5 = true ∧ awake.oddBound 5 = false ∧ coreBase 5 + 0x100 + 0x40 < 0x10000000) ∧
    (let s := ({ awake with host := { awake.host with pba := [(3, 1)] } } : State).setRegF rHPSTAT 2 2 1
     s.hostUp = true ∧ s.hostFrozen = false ∧ awake.hostUp = false ∧ Tbl.get 0 s.host.pba 3 ≠ 0 ∧ Tbl.get 0 s.host.pba 4 = 0 ∧
       bit (0x100000000 : Val) 32 = true ∧ bit (0 : Val) 32 = false) := by decide +kernel

/-- O55: the boundary's jump and period; the edge of BOUTREF near and far; a frozen core, an empty one and a tenant's. -/
theorem witness_Time :
    ((powered id).running = true ∧ (powered id).tripped = false ∧ (powered fun s => { s with tripped := true }).tripped = true ∧
      State.reset.running = false ∧ (State.reset.bout + 1).toNat < (9 : Val).toNat) ∧
    (let s := powered fun s => s.setRegF rFABSTAT 7 7 1
     s.isRoot = true ∧ s.regF rBTCTL 3 2 ≠ 2 ∧ (s.setRegF rBTCTL 3 2 2).regF rBTCTL 3 2 = 2 ∧ 100 * (24 : Int).natAbs ≤ s.period ∧
       s.period < 100 * (-100000 : Int).natAbs) ∧
    (let s := (awake.modBank 5 1 fun k => { k with btmr := 7, tenant := 0x85 }).modCore 5 fun x => { x with run := some 1 }
     (s.bank 5 1).btmr ≠ 0 ∧ (s.bank 5 1).btmr ≠ 1 ∧ (s.core 5).frozen = false ∧ s.pairMode 2 = 0 ∧ (s.core 5).run = some 1 ∧
       (awake.core 5).run = none ∧ (awake.bank 5 1).btmr = 0 ∧ awake.pending = []) := by decide +kernel

/-- O1, O59, O60: a queue that holds two commands; the form of memory at reset, and one that is out of its form; a step that
answers a next state. -/
theorem witness_StepsOfTheQueue :
    (let s := { State.reset with pending := [.testLogicReset, .arm] }
     s.pending = .testLogicReset :: [.arm] ∧ (match step s with | .next t => decide (t.pending = [.arm]) | _ => false) = true) ∧
    (State.reset.mem.wf = true ∧ (match step State.reset with | .next t => t.mem.wf && t.pending.isEmpty | _ => false) = true ∧
      ({ vals := [(8, 1), (4, 1)] } : Mem).wf = false) := by decide +kernel

/-- O56, O57: a message of 160 bytes; a codeword with one error, with two, and with three, which is not decoded; lanes and bytes
at the ends of their ranges; a partial codeword that the bytes fill and that they do not. -/
theorem witness_LineCode :
    (let m : List Byte := (List.range 160).map (BitVec.ofNat 8)
     let w := rsEncode m
     m.length = 160 ∧ w.length = 164 ∧ rsDecode (fixByte w 163 1) = some w ∧ rsDecode (fixByte (fixByte w 0 0xFF) 163 0x80) = some w ∧
       rsDecode (fixByte (fixByte w 7 5) 7 5) = some w ∧ rsDecode (fixByte (fixByte (fixByte w 0 1) 1 1) 2 1) ≠ some w) ∧
    (3 < 4 ∧ 0 < (List.replicate 4 (0 : Byte)).length / 4 ∧ bit ((State.reset.setReg (linkBase 2 + 8) 0x100).reg (linkBase 2 + 8)) 8 = true ∧
      bit (State.reset.reg (linkBase 2 + 8)) 8 = false) ∧
    (let q := (State.reset.modLink 2 fun k => { k with txCw := List.replicate 120 7 }).link 2
     160 ≤ (q.txCw ++ List.replicate 40 7).length ∧ ¬ 160 ≤ (q.txCw ++ List.replicate 39 7).length) := by decide +kernel

/-- R68-R72: a word of each major, written out by the formats, and the instruction that it names: T is major, rd, rs1, rs2, ext,
func; I and M major, rd, rs1 or base, immediate or displacement, func; B major, rs, disp17, func. -/
def wordsByFormat : List (Nat × Instr) :=
  [
    (0b00000100011000010001000000000000, .addF 5 (.t ⟨3, 1, 2, 0⟩)),
    (0b00001000011000011111111111110001, .subF 5 (.i ⟨3, 1, -1⟩)),
    (0b00001100011000010001000000000011, .divFl 5 ⟨3, 1, 2, 0⟩),
    (0b00010000011000010001000000001000, .cmpFeq 5 ⟨3, 1, 2, 0⟩),
    (0b00010100011000010111111111110110, .cmpTy 5 ⟨3, 1, 0x7FF⟩),
    (0b00011000011000010000000000000000, .mov 5 ⟨3, 1, 0, 0⟩),
    (0b00011000011000010111111111111001, .settag 5 ⟨3, 1, 0x7FF⟩),
    (0b00011100011000010001000000000010, .divS 5 ⟨3, 1, 2, 0⟩),
    (0b00100000011000011111111110000000, .ldW 5 ⟨3, 1, -8⟩),
    (0b00100100011000010110000000010011, .stS 5 ⟨3, 1, 0x601⟩),
    (0b00101000011000010111111111110001, .ldm 5 ⟨3, 1, 0x7FF⟩),
    (0b00101100000000010000000000000000, .pref 5 ⟨0, 1, 0⟩),
    (0b00110000011000010001000000000010, .cas 5 ⟨3, 1, 2, 0⟩),
    (0b00110100000000010000000000001001, .cinvA 5 ⟨0, 1, 0, 0⟩),
    (0b00111000000000010001000000000010, .tlbinvVa 5 ⟨0, 1, 2, 0⟩)] ++
  [
    (0b00111100000000010000000111100001, .mts 5 ⟨0, 1, 0x1E⟩),
    (0b01000001001111111111111111010101, .bltz 5 ⟨9, -3⟩),
    (0b01000100000000000000010000000000, .call 5 ⟨0, 64⟩),
    (0b01001001111000010000000000010000, .jmpl 5 ⟨15, 1, 0, 1⟩),
    (0b01001101110011101111110000000000, .save 5 ⟨14, 14, 0xFC0⟩),
    (0b01010000011000010001000000000001, .brecv 5 ⟨3, 1, 2, 0⟩),
    (0b01010100000000000000000011110010, .waite 5 ⟨0, 0, 15⟩),
    (0b01011000011000010111111111110000, .saveh 5 ⟨3, 1, 0x7FF⟩),
    (0b01100000011000010001000000000101, .remG 5 ⟨3, 1, 2, 0⟩),
    (0b01100100011000010001000000000011, .cmpGEql 5 ⟨3, 1, 2, 0⟩),
    (0b01101000011000010000000000000001, .truncG 5 ⟨3, 1, 0, 0⟩),
    (0b01101100011000000000000001111000, .escrd 5 ⟨3, 0, 0, 7⟩),
    (0b01110000011000010001000000000100, .cons 5 ⟨3, 1, 2, 0⟩),
    (0b01110000011000010111111111111000, .allocI 5 ⟨3, 1, 0x7FF⟩),
    (0b01110100011000010001000000000001, .vset 5 ⟨3, 1, 2, 0⟩),
    (0b01111000011000010001000000000010, .nthcdr 5 ⟨3, 1, 2, 0⟩)]

/-- R68, R71 and its example: each of those words names its instruction, and is the word of it; major 0x38, func 2, rd 9, rs1 24 and
rs2 23 is 0xE138B802. -/
theorem test_instruction_words :
    (∀ p ∈ wordsByFormat, decodeInsn 5 p.1 = some p.2 ∧ encodeInsn p.2 = some (5, p.1)) ∧
    decodeInsn 5 0xE138B802 = some (.allotmentInstruction 5 0 2 ⟨9, 24, 23, 0⟩) ∧ keyOf 0xE138B802 = 0x382 := by decide +kernel

/-- R69, R70: the all-zero word, an unassigned func and the reserved majors name no instruction. -/
theorem test_no_instruction :
    decodeInsn 5 0 = none ∧ decodeInsn 5 0b00000100011000010001000000001111 = none ∧
    (∀ m ∈ [0x00, 0x17, 0x1F, 0x20, 0x37, 0x3C, 0x3F], ∀ f < 16, decodeInsn 5 (m * 2 ^ 26 + f) = none) := by decide +kernel

/-- An instruction whose word is not the one at the program counter has no effect. -/
theorem test_word_in_memory :
    (let e := aEnc 0x01 0x02 0 (.t f3) 12
     (match exec (.subF 0 (.t f3)) (coded e (ops (fixWord 4) (fixWord 5))) with
      | .next t => (t.bank 0 0).pc == 0 && decide (t.rdReg 0 0 3 = nilWord)
      | _ => false) = true) := by decide +kernel

/-- The opcode table gives no row any bits, so a word puts no command in the queue. -/
theorem test_no_word_spells_a_command : decodeTableWord 32 0x4DCEFC00 = none ∧
    State.reset.withFetchWord 32 0x4DCEFC00 = State.reset := by decide +kernel

/-! Ill-formed commands, one for each check of WellFormed, each refused; and the longest that is let through. -/

theorem test_ill_lanes : WellFormed.check (.alignComplete 0 [⟨0, false⟩]) = false := by decide
theorem test_ill_codeword : WellFormed.check (.sequencedFlitReceive 0 (List.replicate 160 0) []) = false := by decide +kernel
theorem test_ill_rails : WellFormed.check (.converterSample 1 ⟨[(0, 0)]⟩) = false := by decide
theorem test_ill_sensors : WellFormed.check (.thermalSample [none]) = false := by decide
theorem test_ill_fabsend : WellFormed.check (.fabsend .mgmt 0 1 (List.replicate 1023 0)) = false := by decide +kernel
theorem test_ill_regwr : WellFormed.check (.regwr .mgmt 0 0 (List.replicate 128 0)) = false := by decide +kernel
theorem test_ill_memwr : WellFormed.check (.memwr .mgmt 0 0 (List.replicate 114 nilWord)) = false := by decide +kernel
theorem test_ill_aload : WellFormed.check (.aload .mgmt 0 0 0 0 (List.replicate 128 0)) = false := by decide +kernel
theorem test_ill_imgload : WellFormed.check (.imgload .mgmt 0 0 (List.replicate 1021 0)) = false := by decide +kernel
theorem test_ill_scrload : WellFormed.check (.scrload .mgmt 0 0 (List.replicate 1022 0)) = false := by decide +kernel
theorem test_ill_binprog : WellFormed.check (.binprog .mgmt 0 0 0 (List.replicate 255 0)) = false := by decide +kernel
theorem test_ill_statewr : WellFormed.check (.statewr .mgmt 0 0 0 0 0 (List.replicate 114 nilWord)) = false := by decide +kernel
theorem test_ill_host_write : WellFormed.check (.hostBar2Write 0 [] 0) = false := by decide
theorem test_ill_host_read : WellFormed.check (.hostBar2Read 0 4097 0) = false := by decide
theorem test_ill_packet : WellFormed.check (.rload 0 (mkPacket 0 0 0 false false 0 nilWord nilWord [nilWord] |> fun p => { p with data := [nilWord] })) = false := by
  decide +kernel
theorem test_well_formed : WellFormed.check (.memwr .mgmt 0 0 (List.replicate 113 nilWord)) = true ∧
    WellFormed.check (.rload 0 small) = true
    ∧ WellFormed.check (.sequencedFlitReceive 0 (List.replicate 160 0) [0, 0, 0, 0]) = true ∧ WellFormed.check (.hostBar2Read 0 4096 0) = true := by decide +kernel

/-! Values that the manual's own examples and rules give. -/


/-- R68 and the example of a call, a SAVE and a return: the three words. -/
theorem test_encodings : (iEnc 0x13 0 ⟨14, 14, 0xFC0⟩ true true 12).word = 0x4DCEFC00 ∧ encB 0x11 0 ⟨0, 0x40⟩ = 0x44000400 := by decide

/-- R272 and its example: the granule 0x00114040 has its home at slice 4. -/
theorem test_home_slice : State.home 0x114040 = 4 := by decide

/-- R36 and the example of a small list: the tag bytes follow the values. -/
theorem test_packed_granule :
    packWords [mkWord 0x10 2, fixWord 6, rawWord 0x79656C726162, fixWord 7, mkWord 0x08 0x40001028, mkWord 0x0B 0x40001000, nilWord, nilWord] =
      [2, 0, 0, 0, 0, 0, 0, 0, 6, 0, 0, 0, 0, 0, 0, 0, 0x62, 0x61, 0x72, 0x6C, 0x65, 0x79, 0, 0, 7, 0, 0, 0, 0, 0, 0, 0,
       0x28, 0x10, 0, 0x40, 0, 0, 0, 0, 0, 0x10, 0, 0x40, 0, 0, 0, 0] ++ List.replicate 16 0 ++ [0x10, 1, 0x16, 1, 8, 0x0B, 0, 0] := by
  decide +kernel

/-- R406 and the example of a board controller: the CRC of a SYNC. -/
theorem test_sync_crc : crc16 0xFFFF [0xC7, 0x01, 0, 0, 0, 0] = 0xD230 := by decide +kernel

/-- R343 and its example: the control field of a HEAD flit on the message channel that acknowledges 0x1F3. -/
theorem test_flit_control : ((Flit.ofWords nilWord nilWord nilWord nilWord).withCtl 1 true 2 0x1F3 0).ctl = 0x39F3 := by decide +kernel

/-- The example of a saturating add: nanoword 0x1802 as three words. -/
theorem test_nanoword : let n := nanoOf 0 0x4434300000000000 0xC
    n.cond = 3 ∧ n.aop = 1 ∧ n.srca = 2 ∧ n.srcb = 3 ∧ n.dst = 8 ∧ n.tsel = 3 := by decide +kernel

/-- R445 and the example of one bout: the shares of VDD_CORE's 147 and of VDD_MEM's 46 µJ. -/
theorem test_bout_shares :
    let k := (meter fun k => { k.setReg 0x28 0x4010 with otp := [[0, 0, 0, 0, 0, 0, 0, 0, 16, 40, 1, 5]] }).bsh
    let xs : State.Counts := [(3, 120000, 0), (7, 48000, 9600), (64, 12000, 0), (65, 48000, 0)]
    ((State.divide k 8 (some xs) 147).filter (·.2 != 0)) = [(3, 70), (7, 42), (64, 7), (65, 28)] ∧
      ((State.divide k 10 (some xs) 46).filter (·.2 != 0)) = [(3, 20), (7, 16), (64, 2), (65, 8)] := by decide +kernel

/-! Single steps. -/

/-- R78: 4 + 5 is 9, and the program counter moves on by 4. -/
theorem test_add : (match exec (.addF 0 (.t f3)) (coded (aEnc 0x01 0x02 0 (.t f3) 12) (ops (fixWord 4) (fixWord 5))) with
    | .next t => decide (t.rdReg 0 0 3 = fixWord 9) && (t.bank 0 0).pc == 4
    | _ => false) = true := by decide +kernel

/-- R78, R98: a destination that is also a source is read before it is written. -/
theorem test_sub_in_place : (match exec (.subF 0 (.t ⟨1, 1, 2, 0⟩)) (coded (aEnc 0x01 0x02 1 (.t ⟨1, 1, 2, 0⟩) 12) (ops (fixWord 4) (fixWord 5))) with
    | .next t => decide (t.rdReg 0 0 1 = fixWord (-1))
    | _ => false) = true := by decide +kernel

/-- The example of a SAVE with seven resident windows: the trap is entered in window 7, with CWP 6 saved. -/
theorem test_save_overflow :
    let s := (running []).modBank 0 0 fun k => { k with twp := 7, status := { k.status with cwp := 6, ml := 0 } }
    (match exec (.save 0 ⟨14, 14, 0xFC0⟩) (coded (iEnc 0x13 0 ⟨14, 14, 0xFC0⟩ true true 12) (s.wrReg 0 0 14 (rawWord 0x7FFFF000))) with
    | .next t => (t.bank 0 0).cause == 0x0B && (t.bank 0 0).status.cwp == 7 && (t.bank 0 0).twp == 7
    | _ => false) = true := by decide +kernel

/-- R470: Test-Logic-Reset selects IDCODE. -/
theorem test_idcode : (match exec .testLogicReset State.reset with
    | .next t => t.jtag.ir == 0x01 && t.jtag.dr == 0x100969CB
    | _ => false) = true := by decide +kernel

/-- R379: the bout number goes up by one at a boundary. -/
theorem test_bout : (match exec .boutBoundary (powered fun s => { s with tripped := true }) with
    | .next t => t.bout == 1
    | _ => false) = true := by decide +kernel

end Sys2Proof.Tests
end

section
/-! SUPPORT. Fields of a 64-bit value. -/
namespace Sys2Proof.Proofs

open Sys2Proof Sys2Proof.Machine Sys2Proof.Laws

/-- Two conditionals agree when their conditions and their branches do. -/
theorem ite_of_iff {α : Type} {p q : Prop} [Decidable p] [Decidable q] {a b c d : α} (h : p ↔ q) (hac : a = c)
    (hbd : b = d) : (if p then a else b) = if q then c else d :=
  ite_congr (propext h) (fun _ => hac) fun _ => hbd

/-- A field is decided by its bits. -/
theorem bits_congr {u v : Val} {hi lo : Nat} (h : ∀ i, lo ≤ i → i ≤ hi → u.getLsbD i = v.getLsbD i) :
    bits u hi lo = bits v hi lo := by
  unfold bits
  apply Nat.eq_of_testBit_eq
  intro i
  simp only [Nat.testBit_mod_two_pow, Nat.testBit_shiftRight]
  by_cases hi' : i < hi + 1 - lo
  · simpa [hi', BitVec.testBit_toNat] using h (lo + i) (by omega) (by omega)
  · simp [hi']

theorem bits_lt (v : Val) (hi lo : Nat) : bits v hi lo < 2 ^ (hi + 1 - lo) := Nat.mod_lt _ (Nat.two_pow_pos _)

@[simp] theorem bits_all (v : Val) : bits v 63 0 = v.toNat := by
  simp [bits, Nat.mod_eq_of_lt v.isLt]

/-- Every bit after a field write: those of the field are the written ones, the others stay. -/
theorem getLsbD_setBits (v : Val) {hi lo : Nat} (x : Nat) (hhi : hi < 64) (i : Nat) :
    (setBits v hi lo x).getLsbD i =
      if lo ≤ i ∧ i ≤ hi then x.testBit (i - lo) else v.getLsbD i := by
  have hm : (2 ^ (hi + 1 - lo) - 1) <<< lo < 2 ^ 64 := by
    rcases Nat.lt_or_ge hi lo with h | h
    · simp [show hi + 1 - lo = 0 by omega]
    · calc (2 ^ (hi + 1 - lo) - 1) <<< lo = (2 ^ (hi + 1 - lo) - 1) * 2 ^ lo := Nat.shiftLeft_eq ..
        _ < 2 ^ (hi + 1 - lo) * 2 ^ lo :=
          Nat.mul_lt_mul_of_pos_right (Nat.sub_lt (Nat.two_pow_pos _) Nat.one_pos) (Nat.two_pow_pos _)
        _ = 2 ^ (hi + 1) := by rw [← Nat.pow_add]; congr 1; omega
        _ ≤ 2 ^ 64 := Nat.pow_le_pow_right (by decide) (by omega)
  unfold setBits
  dsimp only
  rw [Nat.sub_sub, Nat.add_comm 1]
  simp only [BitVec.getLsbD_ofNat, Nat.testBit_or, Nat.testBit_and, Nat.testBit_two_pow_sub_succ hm,
    Nat.testBit_shiftLeft, Nat.testBit_two_pow_sub_one, Nat.testBit_mod_two_pow, BitVec.testBit_toNat]
  by_cases h64 : i < 64
  · by_cases h : lo ≤ i ∧ i ≤ hi
    · simp [h, h64, show i - lo < hi + 1 - lo by omega]
    · rw [if_neg h]
      rcases Nat.lt_or_ge i lo with hl | hl
      · simp [h64, show ¬ lo ≤ i by omega]
      · simp [h64, show ¬ i - lo < hi + 1 - lo by omega]
  · simp [h64, show ¬ i ≤ hi by omega, BitVec.getLsbD_of_ge _ _ (Nat.le_of_not_lt h64)]

/-- A field that was written reads as the value modulo its size. -/
theorem bits_setBits_same (v : Val) {hi lo : Nat} (x : Nat) (hhi : hi < 64) :
    bits (setBits v hi lo x) hi lo = x % 2 ^ (hi + 1 - lo) := by
  unfold bits
  apply Nat.eq_of_testBit_eq
  intro i
  simp only [Nat.testBit_mod_two_pow, Nat.testBit_shiftRight, BitVec.testBit_toNat, getLsbD_setBits v x hhi]
  by_cases h : i < hi + 1 - lo
  · simp [h, show lo + i ≤ hi by omega]
  · simp [h]

/-- A field keeps its value when a field apart from it is written. -/
theorem bits_setBits_apart (v : Val) {hi lo hi' lo' : Nat} (x : Nat) (hhi : hi < 64) (h : hi' < lo ∨ hi < lo') :
    bits (setBits v hi lo x) hi' lo' = bits v hi' lo' :=
  bits_congr fun i h1 h2 => by rw [getLsbD_setBits v x hhi, if_neg (by omega)]

/-- A bit outside a written field stays. -/
theorem bit_setBits_apart (v : Val) {hi lo i : Nat} (x : Nat) (hhi : hi < 64) (h : i < lo ∨ hi < i) :
    bit (setBits v hi lo x) i = bit v i := by
  unfold bit; rw [getLsbD_setBits v x hhi, if_neg (by omega)]

/-- A bit of a field that is written. -/
theorem bit_setBits_field (v : Val) {hi lo i : Nat} (x : Nat) (hhi : hi < 64) (h : lo ≤ i ∧ i ≤ hi) :
    bit (setBits v hi lo x) i = x.testBit (i - lo) := by
  unfold bit; rw [getLsbD_setBits v x hhi, if_pos h]

/-- Writing the field of a single bit. -/
theorem bit_setBits_one (v : Val) {i : Nat} (b : Bool) (hi : i < 64) : bit (setBits v i i (b2n b)) i = b := by
  rw [bit_setBits_field v _ hi ⟨Nat.le_refl i, Nat.le_refl i⟩]
  cases b <;> simp [b2n]

/-- The field that is the whole value. -/
theorem setBits_all (v : Val) (x : Nat) : setBits v 63 0 x = BitVec.ofNat 64 x := by
  apply BitVec.eq_of_getLsbD_eq
  intro i hi
  rw [getLsbD_setBits v x (by decide), if_pos (by omega)]
  simp [BitVec.getLsbD_ofNat, hi, -BitVec.getLsbD_eq_getElem]

/-- A masked write takes the bits of the mask from the written value and keeps the others. -/
theorem getLsbD_masked (a v m : Val) {i : Nat} (hi : i < 64) :
    ((a &&& ~~~m) ||| (v &&& m)).getLsbD i = if m.getLsbD i then v.getLsbD i else a.getLsbD i := by
  cases h : m.getLsbD i <;>
    simp only [BitVec.getLsbD_or, BitVec.getLsbD_and, BitVec.getLsbD_not, h, hi, decide_true, Bool.not_true, Bool.not_false,
      Bool.and_true, Bool.and_false, Bool.or_false, Bool.false_or, if_true, Bool.false_eq_true, if_false]

/-- A field inside the mask is written. -/
theorem bits_masked_in (a v m : Val) {hi lo : Nat} (hhi : hi < 64)
    (h : ∀ i, i < 64 → lo ≤ i → i ≤ hi → m.getLsbD i = true) : bits ((a &&& ~~~m) ||| (v &&& m)) hi lo = bits v hi lo :=
  bits_congr fun i h1 h2 => by rw [getLsbD_masked _ _ _ (by omega), h i (by omega) h1 h2, if_pos rfl]

/-- A field outside the mask stays. -/
theorem bits_masked_out (a v m : Val) {hi lo : Nat} (hhi : hi < 64)
    (h : ∀ i, i < 64 → lo ≤ i → i ≤ hi → m.getLsbD i = false) : bits ((a &&& ~~~m) ||| (v &&& m)) hi lo = bits a hi lo :=
  bits_congr fun i h1 h2 => by
    rw [getLsbD_masked _ _ _ (by omega), h i (by omega) h1 h2, if_neg Bool.false_ne_true]

/-- A write through an empty mask changes nothing. -/
theorem masked_none (a v : Val) : (a &&& ~~~v64 0) ||| (v &&& v64 0) = a := by
  have : v64 0 = 0#64 := rfl
  simp only [this, BitVec.not_zero, BitVec.and_allOnes, BitVec.and_zero, BitVec.or_zero]

end Sys2Proof.Proofs
end

section
/-! SUPPORT. Register fields and counters of the module register space, the replies that wait at a port, and what a host
vector leaves alone. -/
namespace Sys2Proof.Proofs

open Sys2Proof Sys2Proof.Machine Sys2Proof.Laws

variable (s : State)

@[simp] theorem reg_setRegF_same (o hi lo x : Nat) : (s.setRegF o hi lo x).reg o = setBits (s.reg o) hi lo x :=
  reg_setReg_same ..

theorem reg_setRegF_other {o p : Nat} (hi lo x : Nat) (h : p ≠ o) : (s.setRegF o hi lo x).reg p = s.reg p :=
  reg_setReg_other _ _ h

theorem regF_setRegF_same (o : Nat) {hi lo : Nat} (x : Nat) (hhi : hi < 64) :
    (s.setRegF o hi lo x).regF o hi lo = x % 2 ^ (hi + 1 - lo) := by
  unfold State.regF; rw [reg_setRegF_same, bits_setBits_same _ _ hhi]

theorem regF_setRegF_apart (o : Nat) {hi lo hi' lo' : Nat} (x : Nat) (hhi : hi < 64) (h : hi' < lo ∨ hi < lo') :
    (s.setRegF o hi lo x).regF o hi' lo' = s.regF o hi' lo' := by
  unfold State.regF; rw [reg_setRegF_same, bits_setBits_apart _ _ hhi h]

/-- A 64-bit counter counts modulo 2^64. -/
theorem reg_incF_one (o : Nat) : (s.incF o 63 0 1).reg o = s.reg o + 1 := by
  unfold State.incF State.regF
  rw [reg_setRegF_same, setBits_all, bits_all]
  apply BitVec.eq_of_toNat_eq
  simp

theorem reg_incF_other {o p : Nat} (hi lo n : Nat) (h : p ≠ o) : (s.incF o hi lo n).reg p = s.reg p :=
  reg_setRegF_other _ _ _ _ h

/-- A register write with the value that the register holds shows nowhere. -/
theorem reg_setReg_self (o p : Nat) : (s.setReg o (s.reg o)).reg p = s.reg p := by
  by_cases h : p = o
  · subst h; exact reg_setReg_same ..
  · exact reg_setReg_other _ _ h

/-- A fold keeps what each of its steps keeps. -/
theorem foldl_setReg_keeps {β : Type} (p : State → β) (h : ∀ s o v, p (State.setReg s o v) = p s) (f : Nat → Nat)
    (g : Nat → Val) (l : List Nat) : p (l.foldl (fun s k => s.setReg (f k) (g k)) s) = p s :=
  foldl_keeps p _ (fun _ _ => h ..) l s

/-- The interrupt that a doorbell delivers reaches one register of its core or the latch of a pair. -/
theorem deliver_ipend_keeps {β : Type} (p : State → β) (c i : Nat) (w : Bool)
    (h1 : ∀ s k f, p (State.modPair s k f) = p s) (h2 : ∀ s v, p (State.setReg s (worldRegs c (wn w) + 8) v) = p s) :
    p (s.deliver c (.ipend w i)) = p s := by
  unfold State.deliver
  dsimp only
  split
  · exact h1 ..
  · exact h2 ..

/-- The replies that wait at a port with a key of its own. -/
def repliesAt (k : Nat) : List Reply := (Tbl.get ({} : PortSt) s.reeve.ports k).queue

/-- The delivery of a reply takes it from its queue. -/
theorem popReply_repliesAt (k : Nat) : repliesAt (s.popReply k) k = (repliesAt s k).tail := by
  unfold State.popReply repliesAt
  dsimp only
  split
  · next h => rw [h]; rfl
  · next r q h => rw [h, Tbl.get_set_same]; cases r.seq <;> rfl

theorem popReply_keeps {β : Type} (p : State → β) (h : ∀ (s : State) r, p { s with reeve := r } = p s) (k : Nat) :
    p (s.popReply k) = p s := by
  unfold State.popReply
  dsimp only
  split
  · rfl
  · exact h ..

/-- A host vector leaves the host function's fields apart from the pending bits and the vectors sent. -/
theorem sendVector_host {β : Type} (f : HostPort → β)
    (h : ∀ (x : HostPort) p v, f { x with pba := p, vectors := v } = f x) (v : Nat) :
    f (s.sendVector v).host = f s.host := by
  unfold State.sendVector
  split
  · rfl
  · split
    · exact h s.host _ s.host.vectors
    · exact h s.host s.host.pba _

/-- While the port is frozen no vector is sent (R437). -/
theorem sendVector_frozen {v : Nat} (h : s.hostFrozen = true) : s.sendVector v = s := if_pos h

/-- A vector that is not masked is sent (R436). -/
theorem sendVector_sent {v : Nat} (h : s.hostFrozen = false) (hm : bit (Tbl.get 1 s.host.msix v) 0 = false) :
    s.sendVector v = { s with host := { s.host with vectors := s.host.vectors ++ [v] } } := by
  have h' : bit (s.reg rFRZP) 8 = false := h
  unfold State.sendVector
  rw [h', hm]
  rfl

end Sys2Proof.Proofs
end

section
/-! SUPPORT. A register write by its source: who writes, the violation of a foreign register, the registers of the mailboxes
(R4, R170, R416). -/
namespace Sys2Proof.Proofs

open Sys2Proof Sys2Proof.Machine Sys2Proof.Laws

variable {s : State} {r : RegSrc} {x : Who} {o : Nat} {v : Val}

theorem whoOf_ne_host (h : s.whoOf r = some x) : r ≠ .host := by
  rintro rfl; cases h

theorem regCmd_none (h : s.whoOf r = none) : s.regCmd r o v = s := by
  unfold State.regCmd; rw [h]

theorem regCmd_violation (h : s.whoOf r = some x) (hv : s.regViolation x o true = true) :
    s.regCmd r o v = s.freezeCore x.c x.b 0x05 (v64 o) := by
  unfold State.regCmd; rw [h]; exact if_pos hv

theorem regCmd_write (h : s.whoOf r = some x) (hv : s.regViolation x o true = false) :
    s.regCmd r o v = s.regWrite x o v := by
  unfold State.regCmd; rw [h]; simp [hv]

/-- The Reeve writes registers of both worlds (R170). -/
theorem regViolation_reeve (h : x.reeve = true) : s.regViolation x o true = false := by
  simp [State.regViolation, h]

/-- A register with no world is no violation (R170). -/
theorem regViolation_shared (h1 : s.regWorld (s.evRedirect o) = none) (h2 : State.progIndex o = none) :
    s.regViolation x o true = false := by
  simp [State.regViolation, h1, h2]

theorem regViolation_world {w : Bool} (h1 : s.regWorld (s.evRedirect o) = some w) :
    s.regViolation x o true = (!x.reeve && w != x.w) := by
  simp [State.regViolation, h1]

/-- Only the event counters of a bound core are found elsewhere (R480). -/
theorem evRedirect_plain (h : isEvReg o = false) : s.evRedirect o = o := by
  simp [State.evRedirect, h]

section Mailbox

variable {w : Fin 2}

/-- MBGO and MBDONE are the two command registers of a mailbox. -/
def isMailCmd (a : Nat) : Prop := a = 0x10 ∨ a = 0x18

variable {a : Nat} (ha : isMailCmd a)
include ha

/-- Where a command register of a mailbox lies. -/
theorem mailCmd_place (w : Fin 2) :
    mailBase w.val + a < 0x10000000 ∧ isCoreBlk (mailBase w.val + a) = false ∧
      isClusterBlk (mailBase w.val + a) = false ∧ isBinBlk (mailBase w.val + a) = false ∧
      isEvReg (mailBase w.val + a) = false ∧ isMailBlk (mailBase w.val + a) = true ∧
      (mailBase w.val + a) % 0x10000 = a ∧ decide (0x0F010000 ≤ mailBase w.val + a) = (w == 1) ∧
      (mailBase w.val + a - 0x0F000000) / 0x10000 = w.val := by
  revert w
  rcases ha with rfl | rfl <;> decide

theorem regWorld_mail : s.regWorld (s.evRedirect (mailBase w.val + a)) = some (w == 1) := by
  obtain ⟨-, hc, hk, hb, he, hm, hr, hw, -⟩ := mailCmd_place ha w
  have ha' : a ≤ 0x18 := by rcases ha with rfl | rfl <;> decide
  rw [evRedirect_plain he]
  simp [State.regWorld, hc, hk, hb, he, hm, hr, hw, ha']

/-- A mailbox belongs to supervisor code: a user-level write is ignored (log entry 135). -/
theorem regWrite_mail : s.regWrite x (mailBase w.val + a) v =
    if x.reeve = false ∧ x.sup = false then s else s.writeMail (mailBase w.val + a) v := by
  obtain ⟨hl, hc, hk, hb, he, hm, -, -, -⟩ := mailCmd_place ha w
  unfold State.regWrite
  rw [evRedirect_plain he]
  simp [hc, hk, hb, he, hm, Nat.not_le.2 hl, State.supervisorReg]

/-- A core of the other world that writes a mailbox freezes (R170). -/
theorem regCmd_mail_foreign (h : s.whoOf r = some x) (hr : x.reeve = false) (hw : x.w ≠ (w == 1)) :
    s.regCmd r (mailBase w.val + a) v = s.freezeCore x.c x.b 0x05 (v64 (mailBase w.val + a)) := by
  refine regCmd_violation h ?_
  rw [regViolation_world (regWorld_mail ha), hr]
  simpa using hw.symm

theorem regCmd_mail_user (h : s.whoOf r = some x) (hr : x.reeve = false) (hw : x.w = (w == 1)) (hs : x.sup = false) :
    s.regCmd r (mailBase w.val + a) v = s := by
  rw [regCmd_write h (by rw [regViolation_world (regWorld_mail ha), hw]; simp), regWrite_mail ha, if_pos ⟨hr, hs⟩]

theorem regCmd_mail (h : s.whoOf r = some x) (hx : x.reeve = true ∨ x.w = (w == 1) ∧ x.sup = true) :
    s.regCmd r (mailBase w.val + a) v = s.writeMail (mailBase w.val + a) v := by
  have hv : s.regViolation x (mailBase w.val + a) true = false := by
    rw [regViolation_world (regWorld_mail ha)]
    rcases hx with hx | ⟨hx, -⟩ <;> simp [hx]
  have hu : ¬ (x.reeve = false ∧ x.sup = false) := by
    rcases hx with hx | ⟨-, hx⟩ <;> simp [hx]
  rw [regCmd_write h hv, regWrite_mail ha, if_neg hu]

end Mailbox

end Sys2Proof.Proofs
end

section
/-! SUPPORT. The mailboxes and the host's command window (R416, R435): what their two command registers do, and what they
leave alone. -/
namespace Sys2Proof.Proofs

open Sys2Proof Sys2Proof.Machine Sys2Proof.Laws

variable {s : State} {r : RegSrc} {x : Who} {v : Val} {w : Fin 2}

@[simp] theorem serveNew_same (s : State) : s.serveNew s = s := by
  unfold State.serveNew
  split
  · exact if_neg (Nat.lt_irrefl _)
  · rfl

/-- The packet that a row put in the inbox is taken from it and handled. -/
theorem serveNew_inbox {u : State} {p : Port} {bs : List Byte} (hu : u.reeve.inbox = s.reeve.inbox) :
    s.serveNew { u with reeve := { u.reeve with inbox := s.reeve.inbox ++ [(p, bs)] } } = u.serveBytes p bs false := by
  unfold State.serveNew
  simp only [List.getLast?_append, List.getLast?_singleton, Option.some_or, List.length_append, List.length_singleton,
    Nat.lt_succ_self, if_true, List.dropLast_concat, ← hu]

theorem exec_mbgo (h : r ≠ .host) :
    exec (.mbgoWrite r w v) s = .next (s.serveNew (s.regCmd r (mailBase w.val + 0x10) v)) :=
  match r, h with
  | .reeve, _ => rfl
  | .bank _ _, _ => rfl

theorem exec_mbdone (h : r ≠ .host) :
    exec (.mbdoneWrite r w v) s = .next (s.regCmd r (mailBase w.val + 0x18) v) :=
  match r, h with
  | .reeve, _ => rfl
  | .bank _ _, _ => rfl

/-- MBSTAT lets a command go: none is in the mailbox and no reply waits there (R416). -/
abbrev MayGo (s : State) (w : Fin 2) (v : Val) : Prop :=
  bit v 0 = true ∧ bit (s.reg (mailBase w.val)) 0 = false ∧ bit (s.reg (mailBase w.val)) 1 = false

theorem writeMail_go (s : State) (w : Fin 2) (v : Val) : s.writeMail (mailBase w.val + 0x10) v =
    if MayGo s w v then
      let u := s.setReg (mailBase w.val) (setBits (s.reg (mailBase w.val)) 0 0 1)
      { u with reeve := { u.reeve with inbox := s.reeve.inbox ++ [(.core w,
        (List.range 129).flatMap fun k => leBytes 8 (s.reg (mailBase w.val + 0x1000 + 8 * k)).toNat)] } }
    else s := by
  obtain ⟨-, -, -, -, -, -, hr, -, hw⟩ := mailCmd_place (.inl rfl : isMailCmd 0x10) w
  have hp : Fin.ofNat 2 w.val = w := Fin.ext (Nat.mod_eq_of_lt w.isLt)
  unfold State.writeMail
  simp only [hr, hw, hp]
  refine (if_pos rfl).trans (ite_of_iff ?_ rfl rfl)
  simp [and_assoc]

theorem writeMail_done (s : State) (w : Fin 2) (v : Val) : s.writeMail (mailBase w.val + 0x18) v =
    if bit v 0 = true ∧ bit (s.reg (mailBase w.val)) 1 = true then
      ((s.setReg (mailBase w.val) (setBits (s.reg (mailBase w.val)) 1 1 0)).popReply (3 + w.val)).showMail w.val
    else s := by
  obtain ⟨-, -, -, -, -, -, hr, -, hw⟩ := mailCmd_place (.inr rfl : isMailCmd 0x18) w
  unfold State.writeMail
  simp only [hr, hw]
  refine (if_neg (by decide)).trans ((if_pos rfl).trans (ite_of_iff ?_ rfl rfl))
  simp

/-- What shows a waiting reply in its mailbox leaves everything but registers and latches alone. -/
theorem showMail_keeps {β : Type} (p : State → β) (h1 : ∀ s k f, p (State.modPair s k f) = p s)
    (h2 : ∀ s o v, p (State.setReg s o v) = p s) (s : State) (w : Nat) : p (s.showMail w) = p s := by
  unfold State.showMail
  dsimp only
  split
  · rfl
  · split
    · rfl
    · have hf := fun g => foldl_setReg_keeps s p h2 (fun k => mailBase w + 0x2000 + 8 * k) g (List.range 130)
      split
      · exact (deliver_ipend_keeps _ p _ _ _ h1 fun s v => h2 s _ v).trans ((h2 ..).trans (hf _))
      · exact (h2 ..).trans (hf _)

theorem showMail_empty {k : Nat} (h : repliesAt s (3 + k) = []) : s.showMail k = s := by
  unfold repliesAt at h
  unfold State.showMail
  simp only [h, ite_self]

/-- No interrupt register of a core is a mailbox register. -/
theorem worldRegs_ne_mail (s : State) {c k : Nat} (w : Nat) (hc : c < 128) (hk : k < 2) :
    mailBase w ≠ worldRegs (s.rep c) k + 8 := by
  have hr : s.rep c ≤ c := by unfold State.rep; split <;> omega
  have hw : worldRegs (s.rep c) k + 8 < 0x0F000000 := by unfold worldRegs coreBase; omega
  exact Nat.ne_of_gt (Nat.lt_of_lt_of_le hw (Nat.le_add_right _ _))

/-- A waiting reply is shown: RPLV is set (R416). -/
theorem showMail_rplv {k : Nat} (h : repliesAt s (3 + k) ≠ []) : bit ((s.showMail k).reg (mailBase k)) 1 = true := by
  unfold repliesAt at h
  unfold State.showMail
  dsimp only
  split
  · next hs => exact hs
  · split
    · next hq => exact absurd hq h
    · have hset : ∀ t : State, bit ((t.setReg (mailBase k) 2).reg (mailBase k)) 1 = true := fun t => by
        rw [reg_setReg_same]; decide
      split
      · have hk : wn (k == 1) < 2 := by cases (k == 1) <;> decide
        rw [deliver_ipend_keeps _ (fun t => t.reg (mailBase k)) _ _ _ (fun _ _ _ => rfl)
          fun t u => reg_setReg_other t u (worldRegs_ne_mail _ _ (bits_lt _ 6 0) hk)]
        exact hset _
      · exact hset _

/-- MBDONE delivers the oldest reply and shows the next one, if there is one (R416). -/
theorem writeMail_done_delivers (h : bit v 0 = true ∧ bit (s.reg (mailBase w.val)) 1 = true) :
    let z := s.writeMail (mailBase w.val + 0x18) v
    z.mem = s.mem ∧ repliesAt z (3 + w.val) = (repliesAt s (3 + w.val)).tail ∧
      (bit (z.reg (mailBase w.val)) 1 = true ↔ (repliesAt s (3 + w.val)).tail ≠ []) := by
  rw [writeMail_done, if_pos h]
  generalize ht : s.setReg (mailBase w.val) (setBits (s.reg (mailBase w.val)) 1 1 0) = t
  have hq : repliesAt (t.popReply (3 + w.val)) (3 + w.val) = (repliesAt s (3 + w.val)).tail := by
    rw [popReply_repliesAt, ← ht]; rfl
  refine ⟨?_, ?_, fun hb hn => ?_, fun hn => showMail_rplv (hq ▸ hn)⟩
  · rw [showMail_keeps State.mem (fun _ _ _ => rfl) (fun _ _ _ => rfl),
      popReply_keeps t State.mem (fun _ _ => rfl), ← ht]
    rfl
  · rw [showMail_keeps (repliesAt · _) (fun _ _ _ => rfl) (fun _ _ _ => rfl), hq]
  · rw [showMail_empty (hq.trans hn), popReply_keeps t (State.reg · _) (fun _ _ => rfl), ← ht, reg_setReg_same,
      bit_setBits_field _ _ (by decide) (by decide)] at hb
    cases hb

/-- The command that MBGO takes is handled at once (R416). -/
theorem serveNew_writeMail_go (h : MayGo s w v) :
    s.serveNew (s.writeMail (mailBase w.val + 0x10) v) =
      (s.setReg (mailBase w.val) (setBits (s.reg (mailBase w.val)) 0 0 1)).serveBytes (.core w)
        ((List.range 129).flatMap fun k => leBytes 8 (s.reg (mailBase w.val + 0x1000 + 8 * k)).toNat) false := by
  rw [writeMail_go, if_pos h]
  exact serveNew_inbox rfl

/-- The host's window lets a command go: none is in it, no reply waits there and the port is not frozen (R435, R437). -/
abbrev HostMayGo (s : State) (v : Val) : Prop :=
  bit v 0 = true ∧ s.host.cmdb = false ∧ s.host.rplv = false ∧ s.hostFrozen = false

theorem hostGo_held (h : ¬ HostMayGo s v) : s.hostGo v = s := by
  unfold State.hostGo
  exact if_neg (by simpa [State.hostFrozen, and_assoc] using h)

theorem serveNew_hostGo (h : HostMayGo s v) :
    s.serveNew (s.hostGo v) = ({ s with host := { s.host with cmdb := true } } : State).serveBytes .host
      ((List.range 129).flatMap fun k => leBytes 8 (Tbl.get (0 : Val) s.host.mbcmd k).toNat) false := by
  obtain ⟨h0, h1, h2, h3⟩ := h
  have h3 : bit (s.reg rFRZP) 8 = false := h3
  unfold State.hostGo
  rw [if_pos (by simp [h0, h1, h2, h3])]
  exact serveNew_inbox (u := { s with host := { s.host with cmdb := true } }) rfl

/-- What shows a waiting reply to the host touches the host function only. -/
theorem showHost_keeps {β : Type} (p : State → β) (h : ∀ (s : State) x, p { s with host := x } = p s) (s : State) :
    p s.showHost = p s := by
  unfold State.showHost
  dsimp only
  split
  · rfl
  · split
    · rfl
    · exact (sendVector_keeps p h _ _).trans (h ..)

theorem showHost_empty (h : repliesAt s 2 = []) : s.showHost = s := by
  unfold repliesAt at h
  unfold State.showHost
  simp only [h, ite_self]

theorem showHost_rplv (h : repliesAt s 2 ≠ []) : s.showHost.host.rplv = true := by
  unfold repliesAt at h
  unfold State.showHost
  split
  · next hr => exact hr
  · split
    · next hq => exact absurd hq h
    · exact sendVector_host _ HostPort.rplv (fun _ _ _ => rfl) _

theorem hostDone_held (h : ¬ (bit v 0 = true ∧ s.host.rplv = true ∧ s.hostFrozen = false)) : s.hostDone v = s := by
  unfold State.hostDone
  exact if_neg (by simpa [State.hostFrozen, and_assoc] using h)

/-- MBDONE of the host's window delivers the oldest reply and shows the next one, if there is one (R435). -/
theorem hostDone_delivers (h : bit v 0 = true ∧ s.host.rplv = true ∧ s.hostFrozen = false) :
    let z := s.hostDone v
    (z.mem = s.mem ∧ z.banks = s.banks ∧ z.cores = s.cores) ∧ z.regs = s.regs ∧
      repliesAt z 2 = (repliesAt s 2).tail ∧ (z.host.rplv = true ↔ (repliesAt s 2).tail ≠ []) := by
  obtain ⟨h0, h1, h2⟩ := h
  generalize ht : ({ s with host := { s.host with rplv := false } } : State) = t
  have he : s.hostDone v = (t.popReply 2).showHost := by
    have h2 : bit (s.reg rFRZP) 8 = false := h2
    unfold State.hostDone
    rw [if_pos (by simp [h0, h1, h2]), ← ht]
  have hq : repliesAt (t.popReply 2) 2 = (repliesAt s 2).tail := by rw [popReply_repliesAt, ← ht]; rfl
  have hk : ∀ {β : Type} (p : State → β), (∀ (s : State) x, p { s with host := x } = p s) →
      (∀ (s : State) x, p { s with reeve := x } = p s) → p (t.popReply 2).showHost = p s := fun p hh hr =>
    (showHost_keeps p hh _).trans ((popReply_keeps t p hr 2).trans (ht ▸ hh s _))
  dsimp only
  rw [he]
  refine ⟨⟨hk State.mem ?_ ?_, hk State.banks ?_ ?_, hk State.cores ?_ ?_⟩, hk State.regs ?_ ?_, ?_, fun hb hn => ?_,
    fun hn => showHost_rplv (hq ▸ hn)⟩
  any_goals exact fun _ _ => rfl
  · rw [showHost_keeps (repliesAt · _) (fun _ _ => rfl), hq]
  · rw [showHost_empty (hq.trans hn), popReply_keeps t (fun u => u.host.rplv) (fun _ _ => rfl), ← ht] at hb
    cases hb

end Sys2Proof.Proofs
end

section
/-! SUPPORT. The windows of the host data port (R430, R431): which registers they stand in, and what a write and a read of
BAR2 do to a granule. -/
namespace Sys2Proof.Proofs

open Sys2Proof Sys2Proof.Machine Sys2Proof.Laws

theorem any_congr_mem {α : Type} {l : List α} {p q : α → Bool} (h : ∀ a ∈ l, p a = q a) : l.any p = l.any q := by
  rw [Bool.eq_iff_iff, List.any_eq_true, List.any_eq_true]
  exact exists_congr fun a => and_congr_right fun ha => by rw [h a ha]

theorem find?_congr_mem {α : Type} {p q : α → Bool} {l : List α} (h : ∀ a ∈ l, p a = q a) : l.find? p = l.find? q := by
  induction l with
  | nil => rfl
  | cons a l ih =>
    rw [List.find?_cons, List.find?_cons, h a List.mem_cons_self, ih fun b hb => h b (List.mem_cons_of_mem _ hb)]

section Windows

variable {s t : State}

/-- The window registers and the carve-out are the same in both states. -/
structure SameWindows (s t : State) : Prop where
  regs : ∀ a, hostWin 0 ≤ a → a < hostWin 8 → t.reg a = s.reg a
  carved : t.reg rCARVE = s.reg rCARVE

/-- A write of a register behind the windows, the carve-out apart, leaves the windows alone. -/
theorem sameWindows_setReg (s : State) {o : Nat} (v : Val) (h : hostWin 8 ≤ o) (hc : o < rCARVE) :
    SameWindows s (s.setReg o v) where
  regs _ _ ha := reg_setReg_other _ _ (Nat.ne_of_lt (Nat.lt_of_lt_of_le ha h))
  carved := reg_setReg_other _ _ (Nat.ne_of_gt hc)

namespace SameWindows

variable (h : SameWindows s t)
include h

theorem reg_win {n a : Nat} (hn : n < 8) (ha : a < 0x20) : t.reg (hostWin n + a) = s.reg (hostWin n + a) :=
  h.regs _ (by unfold hostWin; omega) (by unfold hostWin; omega)

theorem regF_win {n a : Nat} (hn : n < 8) (ha : a < 0x20) (hi lo : Nat) :
    t.regF (hostWin n + a) hi lo = s.regF (hostWin n + a) hi lo := by
  unfold State.regF; rw [h.reg_win hn ha]

theorem regF_base {n : Nat} (hn : n < 8) (hi lo : Nat) : t.regF (hostWin n) hi lo = s.regF (hostWin n) hi lo :=
  h.regF_win (a := 0) hn (by decide) hi lo

theorem carve : t.carve = s.carve := by unfold State.carve; rw [h.carved]

theorem store (a : Nat) : t.store a = s.store a := by unfold State.store; rw [h.carve]

theorem winOverlap {n : Nat} (hn : n < 8) : t.winOverlap n = s.winOverlap n := by
  unfold State.winOverlap
  dsimp only
  congr 1
  · rw [h.regF_win hn (a := 8) (by decide)]
  · refine any_congr_mem fun k hk => ?_
    have hk := List.mem_range.1 hk
    simp only [h.regF_win hk (a := 8) (by decide), h.regF_win hk (a := 0x10) (by decide),
      h.regF_win hn (a := 8) (by decide), h.regF_win hn (a := 0x10) (by decide)]

theorem winOn {n : Nat} (hn : n < 8) : t.winOn n = s.winOn n := by
  unfold State.winOn State.inDram State.inBin
  dsimp only
  simp only [h.regF_base hn, h.regF_win hn (a := 8) (by decide), h.winOverlap hn, h.carve]

theorem winAt (o : Nat) : t.winAt o = s.winAt o := by
  unfold State.winAt
  refine find?_congr_mem fun n hn => ?_
  have hn := List.mem_range.1 hn
  simp only [h.winOn hn, h.regF_win hn (a := 8) (by decide), h.regF_win hn (a := 0x10) (by decide)]

theorem winPa {n : Nat} (hn : n < 8) (o : Nat) : t.winPa n o = s.winPa n o := by
  unfold State.winPa
  rw [h.regF_base hn, h.regF_win hn (a := 0x10) (by decide)]

end SameWindows

/-- There are eight windows. -/
theorem winAt_lt {o k : Nat} (h : s.winAt o = some k) : k < 8 := List.mem_range.1 (List.mem_of_find?_eq_some h)

end Windows

section Granule

variable {s : State} {o k : Nat} {bs : List Byte}

/-- The tag bytes at the end of a packed granule are ones that its window accepts (R431). -/
abbrev TagsOk (s : State) (k : Nat) (bs : List Byte) : Prop :=
  ∀ i, i < 8 → s.tagOk (bit (s.reg (hostWin k + 0x18)) 3) (bs.getD (64 + i) 0) = true

theorem getElem?_getD {i : Nat} (h : i < bs.length) : bs[i]? = some (bs.getD i 0) := by
  rw [List.getD_eq_getElem?_getD, List.getElem?_eq_getElem h]; rfl

/-- A list of known length is what a table of its optional entries gives. -/
theorem map_range_getElem? (bs old : List Byte) (n : Nat) (h : bs.length = n) :
    (List.range n).map (fun i => bs[i]?.getD (old.getD i 0)) = bs := by
  apply List.ext_getElem
  · simp [h]
  · intro i h1 h2
    simp [List.getElem?_eq_getElem h2]

/-- A write of a whole granule (R431): its tags are checked, then its poison; what stands behind a refusal is one count. -/
theorem granuleWrite_whole {l : Line} {t : State} (hw : s.winAt o = some k) (ho : o % 128 = 0) (hl : bs.length = 72)
    (hm : s.mcRead (s.winPa k o) false = (l, t)) :
    s.granuleWrite o bs =
      if TagsOk s k bs then
        if l.poison then t.incF rHBADTAG 63 0 1
        else (t.modMem fun m => m.putLine (t.store (s.winPa k o) / 64) ⟨unpackWords 8 bs, false⟩).breakResv
          (s.winPa k o / 64) none
      else s.incF rHBADTAG 63 0 1 := by
  have hat : ∀ i, i < 72 → bs[i]? = some (bs.getD i 0) := fun i hi => getElem?_getD (by rw [hl]; exact hi)
  rw [show @State.granuleWrite = _ by delta State.granuleWrite; rfl]
  simp only [hw, ho, hm, Nat.not_lt_zero, if_false, Nat.sub_zero]
  refine (if_neg ?_).trans ?_
  · rw [Bool.not_eq_true, List.all_eq_false]
    exact ⟨0, List.mem_range.2 (by decide), by rw [hat 0 (by decide)]; exact Bool.false_ne_true⟩
  · rw [map_range_getElem? bs _ 72 hl]
    by_cases ht : TagsOk s k bs
    · rw [if_pos ht]
      refine if_neg ?_
      rw [Bool.not_eq_true, Bool.not_eq_false', List.all_eq_true]
      intro i hi
      have hi := List.mem_range.1 hi
      rw [hat (64 + i) (by omega)]
      exact ht i hi
    · rw [if_neg ht]
      refine if_pos ?_
      rw [Bool.not_eq_true', List.all_eq_false]
      obtain ⟨i, hi⟩ := Classical.not_forall.1 ht
      obtain ⟨hi, hn⟩ := Classical.not_imp.1 hi
      refine ⟨i, List.mem_range.2 hi, ?_⟩
      rw [hat (64 + i) (by omega)]
      exact hn

end Granule
end Sys2Proof.Proofs
end

section
/-! SUPPORT. Requests of BAR2, doorbells, slot releases and the channels of the host data port (R431, R433, R434, R437). -/
namespace Sys2Proof.Proofs

open Sys2Proof Sys2Proof.Machine Sys2Proof.Laws

section Requests

variable {s : State} {o k : Nat} {bs : List Byte}

/-- A write of one granule is no more than that granule. -/
theorem bar2Write_granule (ho : o % 128 = 0) (hl : bs.length = 72) :
    s.bar2Write o bs (bs.length + 1) = s.granuleWrite o bs := by
  have hne : bs.isEmpty = false := by cases bs <;> simp_all
  rw [hl]
  simp [State.bar2Write, hne, ho, List.take_of_length_le (show bs.length ≤ 128 by omega),
    List.drop_eq_nil_of_le (show bs.length ≤ 128 by omega)]

/-- A structural recursion on a number steps from the number before. -/
theorem brecOn_succ {α : Type} (F : (x : Nat) → Nat.below (motive := fun _ => α) x → α) (n : Nat) :
    ∃ f, Nat.brecOn (motive := fun _ => α) (n + 1) F = F (n + 1) f ∧ f.1 = Nat.brecOn (motive := fun _ => α) n F :=
  ⟨_, rfl, rfl⟩

/-- A byte of a read in no window. (The search of the windows is put to its answer before the recursion's step is
evaluated: the kernel does not come to an end in comparing two steps that both wait for it.) -/
theorem bar2Read_none (n : Nat) (hw : s.winAt o = none) : s.bar2Read o (n + 1) =
    (0 :: (s.bar2Read (o + 1) n).1, (s.bar2Read (o + 1) n).2.1, (s.bar2Read (o + 1) n).2.2) := by
  obtain ⟨f, hs, hf⟩ := brecOn_succ State.bar2Read._f n
  rw [show @State.bar2Read = _ by delta State.bar2Read; rfl, hs, ← hf,
    show @State.bar2Read._f = _ by delta State.bar2Read._f; rfl, hw]
  simp only [Bool.false_or]

/-- A byte of a read in a window is that of its granule, and a poisoned granule is reported (R430, R431). -/
theorem bar2Read_some {l : Line} {t : State} (n : Nat) (hw : s.winAt o = some k)
    (hm : s.mcRead (s.winPa k o) false = (l, t)) : s.bar2Read o (n + 1) =
      ((packWords l.words).getD (o % 128) 0 :: (t.bar2Read (o + 1) n).1, l.poison || (t.bar2Read (o + 1) n).2.1,
        (t.bar2Read (o + 1) n).2.2) := by
  obtain ⟨f, hs, hf⟩ := brecOn_succ State.bar2Read._f n
  rw [show @State.bar2Read = _ by delta State.bar2Read; rfl, hs, ← hf,
    show @State.bar2Read._f = _ by delta State.bar2Read._f; rfl, hw]
  simp only [hm]

theorem bar2Read_length (s : State) (o n : Nat) : (s.bar2Read o n).1.length = n := by
  induction n generalizing s o with
  | zero => rfl
  | succ n ih =>
    cases hw : s.winAt o with
    | none => rw [bar2Read_none n hw, List.length_cons, ih]
    | some k => rw [bar2Read_some n hw rfl, List.length_cons, ih]

end Requests

section Doorbells

variable {s : State} {n : Nat} {v : Val} {rid : BitVec 16}

/-- A doorbell that is ignored: a reserved field, or its channel is busy (R433). -/
abbrev BadDoor (s : State) (v : Val) : Prop :=
  bits v 63 61 ≠ 0 ∨ bits v 41 29 ≠ 0 ∨ (s.chan (bits v 60 56)).busy = true

theorem doorbell_bad (h : BadDoor s v) : s.doorbell n v rid = s.incF rHDBIGN 63 0 1 := by
  rw [show @State.doorbell = _ by delta State.doorbell; rfl]
  exact if_pos (by simpa [or_assoc] using h)

/-- A doorbell that is not ignored, by the window of its first word (R433). -/
theorem doorbell_nowhere (h : ¬ BadDoor s v) (hw : s.winAt (bits v 28 0 * 128) = none) :
    s.doorbell n v rid = s.hostViolation (bits v 28 0 * 128) none rid 0x60 := by
  rw [show @State.doorbell = _ by delta State.doorbell; rfl]
  refine (if_neg (by simpa [or_assoc] using h)).trans ?_
  rw [hw]

theorem doorbell_window {k : Nat} (h : ¬ BadDoor s v) (hw : s.winAt (bits v 28 0 * 128) = some k) :
    s.doorbell n v rid =
      let o := bits v 28 0 * 128
      let last := o + 128 * (bits v 47 42 / 8)
      let d := s.doorWords (s.winPa k o + 8) (bits v 47 42)
      if bit (s.reg (hostWin k + 0x18)) 1 = false then s.hostViolation o (some k) rid 0x60
      else if s.winAt last ≠ some k then s.hostViolation last (s.winAt last) rid 0x60
      else d.2.2.doorSend n (bits v 60 56) (bits v 55 48) d.1 d.2.1 (bit (s.reg (hostWin k + 0x18)) 2) := by
  rw [show @State.doorbell = _ by delta State.doorbell; rfl]
  refine (if_neg (by simpa [or_assoc] using h)).trans ?_
  rw [hw]
  refine ite_of_iff (by simp) rfl (ite_of_iff (by simp) rfl ?_)
  generalize s.doorWords (s.winPa k (bits v 28 0 * 128) + 8) (bits v 47 42) = d
  rfl

variable {c kind : Nat} {ws : List Word} {bad w : Bool}

/-- A word that R35 keeps on its module stands among the words of a message. -/
abbrev HoldsLocal (s : State) (ws : List Word) : Prop :=
  (ws.any fun a => s.keptLocal a && !(s.reservedType a.type)) = true

/-- A word of a message was poisoned, or is reserved or malformed. -/
abbrev HoldsBad (s : State) (ws : List Word) (bad : Bool) : Prop :=
  bad = true ∨ (ws.any fun a => s.reservedType a.type || s.malformed a) = true

@[simp] theorem chan_setChan_same (s : State) (c : Nat) (x : Chan) : (s.setChan c x).chan c = x := Tbl.get_set_same ..

/-- A message with a local word is refused at once with the reason of R433. -/
theorem doorSend_local (h : HoldsLocal s ws) : s.doorSend n c kind ws bad w =
    s.setChan c { s.chan c with busy := true, v := false, answer := some 0x0010000A } := if_pos h

/-- A malformed or poisoned word is refused with a reason that is left open (log entry 96). -/
theorem doorSend_bad (h : ¬ HoldsLocal s ws) (hb : HoldsBad s ws bad) : s.doorSend n c kind ws bad w =
    s.freeVal.2.setChan c { s.chan c with
      busy := true, v := false, answer := some (BitVec.ofNat 32 (0x00100000 + s.freeVal.1.toNat % 16)) } :=
  (if_neg h).trans (if_pos (by rwa [Bool.or_eq_true]))

/-- Any other message is sent under the channel's next number. -/
theorem doorSend_sent (h : ¬ HoldsLocal s ws) (hb : ¬ HoldsBad s ws bad) : s.doorSend n c kind ws bad w =
    (s.setChan c { s.chan c with
      busy := true, v := false, answer := none, seq := (s.chan c).next, next := (s.chan c).next + 1 }).binArrive
      (Flight.mk n s.srcNode c true (s.chan c).next
        (State.msgHdr s.srcNode c (s.chan c).next (ws.length + 1) kind :: ws) w (.chan c) false) :=
  (if_neg h).trans (if_neg (by rwa [Bool.or_eq_true]))

end Doorbells

section Releases

variable {s : State} {n : Nat} {v : Val}

/-- A slot release that a bin takes: the bin is the host's, and so many slots are in use (R434). -/
abbrev MayRelease (s : State) (n : Nat) (v : Val) : Prop :=
  s.binCore n = 0x7F ∧ 1 ≤ v.toNat ∧ v.toNat ≤ s.binUsed n

theorem slotRelease_taken (h : MayRelease s n v) :
    s.slotRelease n v = s.setRegF (binBase n + 0x18) 63 32 (s.binRd n + v.toNat) :=
  if_pos (by simpa [and_assoc] using h)

theorem slotRelease_ignored (h : ¬ MayRelease s n v) : s.slotRelease n v = s.incF rHDBIGN 63 0 1 :=
  if_neg (by simpa [and_assoc] using h)

end Releases

section Resets

/-- What a reset of the port leaves of a channel: the number of its next message (R437). -/
theorem get_cleared (t : Tbl Chan) (k : Nat) :
    let x : Chan := Tbl.get {} t k
    let y : Chan := Tbl.get {} ((t.map fun (i, x) => (i, ({ next := x.next } : Chan))).filter fun (_, x) => x != ({} : Chan)) k
    y.busy = false ∧ y.answer = none ∧ (x.next ≠ 0 → y.next = x.next) := by
  induction t with
  | nil => exact ⟨rfl, rfl, fun h => absurd rfl h⟩
  | cons a t ih =>
    obtain ⟨i, c⟩ := a
    dsimp only at ih ⊢
    rw [List.map_cons, List.filter_cons]
    by_cases hc : ({ next := c.next } : Chan) = {}
    · rw [if_neg (by rw [bne_iff_ne]; exact not_not_intro hc)]
      rw [Tbl.get]
      by_cases hi : i = k
      · rw [if_pos hi]
        exact ⟨ih.1, ih.2.1, fun hn => absurd (congrArg Chan.next hc) hn⟩
      · rw [if_neg hi]
        exact ih
    · rw [if_pos (bne_iff_ne.2 hc), Tbl.get, Tbl.get]
      by_cases hi : i = k
      · rw [if_pos hi, if_pos hi]
        exact ⟨rfl, rfl, fun _ => rfl⟩
      · rw [if_neg hi, if_neg hi]
        exact ih

theorem chan_hostFlr (s : State) (k : Nat) : (s.hostFlr.chan k).busy = false ∧ (s.hostFlr.chan k).answer = none ∧
    ((s.chan k).next ≠ 0 → (s.hostFlr.chan k).next = (s.chan k).next) :=
  get_cleared s.host.chans k

end Resets
end Sys2Proof.Proofs
end

section
/-! SUPPORT. The commands of the host data port on a live port and on one that is not (R428, R437), and the statement of the
mailboxes and the port. -/
namespace Sys2Proof.Proofs

open Sys2Proof Sys2Proof.Machine Sys2Proof.Laws

variable {s : State} {v : Val} {off : BitVec 36} {n : Nat} {bs : List Byte} {rid : BitVec 16} {m : Fin 4096}

/-- The port takes requests: its link is up and it is not frozen. -/
abbrev Live (s : State) : Prop := s.hostUp = true ∧ s.hostFrozen = false

theorem live_iff (s : State) : (!s.hostUp || s.hostFrozen) = true ↔ ¬ Live s := by
  rw [Bool.or_eq_true, Bool.not_eq_true', Classical.not_and_iff_not_or_not, Bool.not_eq_true, Bool.not_eq_false]

theorem exec_dead (h : ¬ Live s) : exec (.hostBar2Write off bs rid) s = .next s ∧
    exec (.hostDoorbell m v rid) s = .next s ∧ exec (.slotRelease m v) s = .next s :=
  have h := (live_iff s).2 h
  ⟨congrArg _ (if_pos h), congrArg _ (if_pos h), congrArg _ (if_pos h)⟩

theorem exec_doorbell_live (h : Live s) : exec (.hostDoorbell m v rid) s = .next (s.doorbell m.val v rid) :=
  congrArg _ (if_neg fun hd => (live_iff s).1 hd h)

theorem exec_slotRelease_live (h : Live s) : exec (.slotRelease m v) s = .next (s.slotRelease m.val v) :=
  congrArg _ (if_neg fun hd => (live_iff s).1 hd h)

theorem exec_bar2Write_bad {o : Nat} {k : Option Nat} (h : Live s) (hb : s.winBad off.toNat bs.length 0 = some (o, k)) :
    exec (.hostBar2Write off bs rid) s = .next (s.hostViolation o k rid 0x60) := by
  refine congrArg _ ((if_neg fun hd => (live_iff s).1 hd h).trans ?_)
  rw [hb]

theorem exec_bar2Write_good (h : Live s) (hb : s.winBad off.toNat bs.length 0 = none) :
    exec (.hostBar2Write off bs rid) s =
      .next ((s.incF (modCtr 3) 63 0 bs.length).bar2Write off.toNat bs (bs.length + 1)) := by
  refine congrArg _ ((if_neg fun hd => (live_iff s).1 hd h).trans ?_)
  rw [hb]

theorem exec_bar2Read_down (h : s.hostUp = false) : exec (.hostBar2Read off n rid) s = .next s :=
  congrArg _ (if_pos (by simp [h]))

theorem exec_bar2Read_frozen (h : s.hostUp = true) (hf : s.hostFrozen = true) :
    exec (.hostBar2Read off n rid) s = .next { s with host := { s.host with readOut := none, readEp := false } } :=
  congrArg _ ((if_neg (by simp [h])).trans (if_pos hf))

theorem exec_bar2Read_bad {o : Nat} {k : Option Nat} (h : Live s) (hb : s.winBad off.toNat n 1 = some (o, k)) :
    let t := s.hostViolation o k rid 0x20
    exec (.hostBar2Read off n rid) s = .next { t with host := { t.host with readOut := none, readEp := false } } := by
  refine congrArg _ ((if_neg (by simp [h.1])).trans ((if_neg (by simp [h.2])).trans ?_))
  rw [hb]

theorem exec_bar2Read_good (h : Live s) (hb : s.winBad off.toNat n 1 = none) :
    let d := (s.incF (modCtr 4) 63 0 n).bar2Read off.toNat n
    exec (.hostBar2Read off n rid) s =
      .next { d.2.2 with host := { d.2.2.host with readOut := some d.1, readEp := d.2.1 } } := by
  refine congrArg _ ((if_neg (by simp [h.1])).trans ((if_neg (by simp [h.2])).trans ?_))
  rw [hb]

/-- The bytes that a request counts are in no register that a window depends on (R481). -/
theorem sameWindows_write (s : State) (n : Nat) : SameWindows s (s.incF (modCtr 3) 63 0 n) :=
  sameWindows_setReg _ _ (by decide) (by decide)

theorem sameWindows_read (s : State) (n : Nat) : SameWindows s (s.incF (modCtr 4) 63 0 n) :=
  sameWindows_setReg _ _ (by decide) (by decide)

/-- A write of a whole granule on a live port (R431): the granule is written when its tags are accepted and it holds no
poison; otherwise the write is one count of HBADTAG. -/
theorem bar2Write_effect {k pa : Nat} (hw : s.winAt off.toNat = some k) (hp : s.winPa k off.toNat = pa)
    (ho : off.toNat % 128 = 0) (hl : bs.length = 72) :
    let u := s.incF (modCtr 3) 63 0 bs.length
    let z := u.bar2Write off.toNat bs (bs.length + 1)
    let tagged : Prop := ∀ i, i < 8 → u.tagOk (bit (s.reg (hostWin k + 0x18)) 3) (bs.getD (64 + i) 0) = true
    (u.mcRead pa false).2 = u →
    (tagged → (u.mcRead pa false).1.poison = false →
      z.mem = s.mem.putLine (s.store pa / 64) ⟨unpackWords 8 bs, false⟩ ∧ z.regs = u.regs) ∧
    (¬ tagged ∨ (u.mcRead pa false).1.poison = true →
      (z.mem = s.mem ∧ z.banks = s.banks ∧ z.cores = s.cores) ∧ z.reg rHBADTAG = s.reg rHBADTAG + 1) := by
  intro u z tagged hm
  have hs : SameWindows s u := sameWindows_write s _
  have hk : k < 8 := winAt_lt hw
  have htag : TagsOk u k bs ↔ tagged := by
    unfold TagsOk; rw [hs.reg_win hk (a := 0x18) (by decide)]
  have hz : z = if tagged then
      if (u.mcRead pa false).1.poison then u.incF rHBADTAG 63 0 1
      else (u.modMem fun m => m.putLine (s.store pa / 64) ⟨unpackWords 8 bs, false⟩).breakResv (pa / 64) none
      else u.incF rHBADTAG 63 0 1 := by
    have hg := granuleWrite_whole (s := u) (l := (u.mcRead pa false).1) (t := u) ((hs.winAt _).trans hw) ho hl
      (by rw [hs.winPa hk, hp]; exact Prod.ext rfl hm)
    rw [hs.winPa hk, hp, hs.store] at hg
    exact (bar2Write_granule ho hl).trans (hg.trans (ite_of_iff htag rfl rfl))
  have hbad : (u.incF rHBADTAG 63 0 1).reg rHBADTAG = s.reg rHBADTAG + 1 := by
    rw [reg_incF_one, reg_incF_other _ _ _ _ (by decide)]
  refine ⟨fun ht hq => ?_, fun h => ?_⟩
  · rw [if_pos ht, hq] at hz
    rw [hz]
    exact ⟨breakResv_mem .., breakResv_regs ..⟩
  · have hz : z = u.incF rHBADTAG 63 0 1 := by
      rcases h with ht | hq
      · rw [hz, if_neg ht]
      · rw [hz, hq, if_pos rfl, ite_self]
    rw [hz]
    exact ⟨⟨rfl, rfl, rfl⟩, hbad⟩

/-- A read on a live port reports the poison of its first granule and answers with the bytes that stand there (R431). -/
theorem bar2Read_effect {k : Nat} (hw : s.winAt off.toNat = some k) :
    let u := s.incF (modCtr 4) 63 0 n
    let l := (u.mcRead (s.winPa k off.toNat) false).1
    let d := u.bar2Read off.toNat n
    (0 < n → l.poison = true → d.2.1 = true) ∧ (n = 1 → d.1 = [(packWords l.words).getD (off.toNat % 128) 0]) := by
  intro u l d
  have hs : SameWindows s u := sameWindows_read s _
  have hd : ∀ i, n = i + 1 → d = ((packWords l.words).getD (off.toNat % 128) 0 ::
      (((u.mcRead (s.winPa k off.toNat) false).2).bar2Read (off.toNat + 1) i).1, _, _) := fun i hi => by
    have := bar2Read_some (s := u) i ((hs.winAt _).trans hw) (Prod.ext rfl rfl)
    rw [hs.winPa (winAt_lt hw)] at this
    exact (congrArg _ hi).trans this
  refine ⟨fun hn hp => ?_, fun hn => ?_⟩
  · obtain ⟨i, hi⟩ := Nat.exists_eq_add_of_lt hn
    rw [hd i (by omega)]
    exact Bool.or_eq_true_iff.2 (.inl hp)
  · rw [hd 0 hn]; rfl

end Sys2Proof.Proofs
end

section
/-! The statement of the mailboxes and the host data port. -/
namespace Sys2Proof.Proofs

open Sys2Proof Sys2Proof.Machine Sys2Proof.Laws

variable {s : State} {v : Val} {n : Nat} {ch : Fin 32}

/-- One count of a doorbell or a slot release that is ignored. -/
theorem ignored_counts (s : State) :
    let z := s.incF rHDBIGN 63 0 1
    z.reg rHDBIGN = s.reg rHDBIGN + 1 ∧ ∀ o, o ≠ rHDBIGN → z.reg o = s.reg o :=
  ⟨reg_incF_one .., fun _ h => reg_incF_other _ _ _ _ h⟩

/-- RD advances by the slots released, and WR stays (R434). -/
theorem slotRelease_advances (h : MayRelease s n v) :
    (s.slotRelease n v).regF (binBase n + 0x18) 63 32 = (s.binRd n + v.toNat) % 2 ^ 32 ∧
      (s.slotRelease n v).regF (binBase n + 0x18) 31 0 = s.regF (binBase n + 0x18) 31 0 := by
  rw [slotRelease_taken h]
  exact ⟨regF_setRegF_same _ _ _ (by decide), regF_setRegF_apart _ _ _ (by decide) (by decide)⟩

/-- The answer of a channel as HOST_CHANNEL_ANSWER delivers it (R433). -/
theorem exec_answer {a : BitVec 32} (h : (s.chan ch.val).answer = some a) :
    exec (.hostChannelAnswer ch) s = .next ((s.setChan ch.val
      { s.chan ch.val with busy := false, v := true, result := a, answer := none }).sendVector ch.val) := by
  rw [exec_hostChannelAnswer]
  unfold execHostChannelAnswer
  dsimp only
  rw [h]

theorem exec_answer_none (h : (s.chan ch.val).answer = none) : exec (.hostChannelAnswer ch) s = .next s := by
  rw [exec_hostChannelAnswer]
  unfold execHostChannelAnswer
  dsimp only
  rw [h]

/-- The whole of a write of a register field of one bit. -/
theorem setBit_effect (s : State) (o i : Nat) (b : Bool) (hi : i < 64) :
    let z := s.setRegF o i i (b2n b)
    bit (z.reg o) i = b ∧ ∀ j, j ≠ o → z.reg j = s.reg j := by
  refine ⟨?_, fun j hj => reg_setRegF_other _ _ _ _ hj⟩
  rw [reg_setRegF_same, bit_setBits_one _ _ hi]

theorem exec_linkChange (s : State) (up : Bool) : exec (.pciExpressLinkChange up) s =
    .next (if s.running = true then s.setRegF rHPSTAT 2 2 (b2n up) else s) := rfl

/-- A delivered answer stands in its channel, and its vector is sent unless it is masked or the port is frozen (R433). -/
theorem answer_effect (s : State) (c : Nat) (a : BitVec 32) :
    let y : Chan := { s.chan c with busy := false, v := true, result := a, answer := none }
    let z := (s.setChan c y).sendVector c
    (z.mem = s.mem ∧ z.banks = s.banks ∧ z.cores = s.cores) ∧ z.regs = s.regs ∧ z.chan c = y ∧
      (s.hostFrozen = true → z.host.vectors = s.host.vectors) ∧
      (s.hostFrozen = false → bit (Tbl.get 1 s.host.msix c) 0 = false → z.host.vectors = s.host.vectors ++ [c]) := by
  intro y z
  have hk : ∀ {β : Type} (p : State → β), (∀ (s : State) h, p { s with host := h } = p s) → p z = p s := fun p h =>
    (sendVector_keeps p h _ _).trans (h ..)
  refine ⟨⟨hk State.mem ?_, hk State.banks ?_, hk State.cores ?_⟩, hk State.regs ?_, ?_, fun hf => ?_, fun hf hm => ?_⟩
  any_goals exact fun _ _ => rfl
  · exact (sendVector_host (s.setChan c y) (fun h => Tbl.get ({} : Chan) h.chans c) (fun _ _ _ => rfl) c).trans
      (chan_setChan_same s c y)
  · show z.host.vectors = (s.setChan c y).host.vectors
    exact congrArg (fun t : State => t.host.vectors) (sendVector_frozen (s.setChan c y) hf)
  · exact congrArg (fun t : State => t.host.vectors) (sendVector_sent (s.setChan c y) hf hm)

/-- The reason of an answer is its low four bits. -/
theorem answer_reason (n : Nat) : BitVec.ofNat 32 (0x00100000 + n % 16) = 0x00100000 + (BitVec.ofNat 4 n).setWidth 32 := by
  apply BitVec.eq_of_toNat_eq
  rw [BitVec.toNat_ofNat, BitVec.toNat_add, BitVec.toNat_setWidth, BitVec.toNat_ofNat]
  simp

theorem tail_of_length_le_one {α : Type} {l : List α} (h : l.length ≤ 1) : l.tail = [] :=
  List.eq_nil_of_length_eq_zero (by rw [List.length_tail]; omega)

/-- Settles O48: each command is reduced to the model's operation on a port in that state, and the lemmas of the mailbox, the
windows, the doorbells and the resets say what that operation leaves. -/
theorem mailboxAndHostPort : Obligations.MailboxAndHostPort := by
  intro s r x w v off n bs rid m ch up
  dsimp only
  have hgo : isMailCmd 0x10 := .inl rfl
  have hdone : isMailCmd 0x18 := .inr rfl
  refine ⟨fun hr hn => ?_, fun hx hr hw => ?_, fun hx hr hw hs => ?_, fun hx hp => ⟨?_, ?_, ?_, ?_⟩, ⟨?_, ?_, ?_, ?_⟩,
    exec_dead, exec_bar2Read_down, ?_, fun hl => ⟨?_, ?_, ?_, ?_, ⟨?_, ?_, ?_⟩, ?_, ⟨?_, ?_⟩⟩, exec_answer_none, ?_, ?_, ?_, ?_, ?_⟩
  · rw [exec_mbgo hr, exec_mbdone hr, regCmd_none hn, regCmd_none hn, serveNew_same]
    exact ⟨rfl, rfl⟩
  · have hn := whoOf_ne_host hx
    rw [exec_mbgo hn, exec_mbdone hn, regCmd_mail_foreign hgo hx hr hw, regCmd_mail_foreign hdone hx hr hw]
    exact ⟨rfl, rfl⟩
  · have hn := whoOf_ne_host hx
    rw [exec_mbgo hn, exec_mbdone hn, regCmd_mail_user hgo hx hr hw hs, regCmd_mail_user hdone hx hr hw hs, serveNew_same]
    exact ⟨rfl, rfl⟩
  · intro hg
    rw [exec_mbgo (whoOf_ne_host hx), regCmd_mail hgo hx hp, writeMail_go, if_neg hg, serveNew_same]
  · intro hg
    rw [exec_mbgo (whoOf_ne_host hx), regCmd_mail hgo hx hp, serveNew_writeMail_go hg]
  · intro hd
    rw [exec_mbdone (whoOf_ne_host hx), regCmd_mail hdone hx hp, writeMail_done, if_neg]
    rintro ⟨h0, h1⟩
    rcases hd with hd | hd
    · exact Bool.false_ne_true (hd.symm.trans h0)
    · exact Bool.false_ne_true (hd.symm.trans h1)
  · intro h0 h1
    obtain ⟨hm, hq, hb⟩ := writeMail_done_delivers (s := s) (v := v) ⟨h0, h1⟩
    refine ⟨_, by rw [exec_mbdone (whoOf_ne_host hx), regCmd_mail hdone hx hp], hm, ?_, ?_⟩
    · rintro p rfl hl
      have ht : (repliesAt s (3 + w.val)).tail = [] := tail_of_length_le_one hl
      exact ⟨by rw [Bool.eq_false_iff, Ne, hb, ht]; exact not_not_intro rfl, hq.trans ht⟩
    · intro y q hy
      have ht : (repliesAt s (3 + w.val)).tail = q := congrArg List.tail hy
      exact ⟨hq.trans ht, fun hn => hb.2 (ht ▸ hn)⟩
  · intro hg
    exact congrArg _ ((congrArg _ (hostGo_held hg)).trans (serveNew_same s))
  · intro hg
    exact congrArg _ (serveNew_hostGo hg)
  · intro hf
    exact congrArg _ (hostDone_held hf)
  · intro hf
    obtain ⟨hk, hr, hq, hb⟩ := hostDone_delivers hf
    refine ⟨_, rfl, hk, hr, fun hl => ?_, fun y q hy => ?_⟩
    · have ht : (repliesAt s 2).tail = [] := tail_of_length_le_one hl
      rw [Bool.eq_false_iff, Ne, hb, ht]
      exact not_not_intro rfl
    · have ht : (repliesAt s 2).tail = q := congrArg List.tail hy
      exact ⟨hq.trans ht, fun hn => hb.2 (ht ▸ hn)⟩
  · intro hu hf
    exact ⟨_, exec_bar2Read_frozen hu hf, ⟨rfl, rfl, rfl⟩, rfl, rfl⟩
  · intro o k hb
    exact exec_bar2Write_bad hl hb
  · intro hb
    exact ⟨_, exec_bar2Write_good hl hb, fun k pa hw hp ho hn hm => bar2Write_effect hw hp ho hn hm⟩
  · intro o k hb
    exact ⟨_, exec_bar2Read_bad hl hb, rfl, rfl⟩
  · intro hb
    exact ⟨_, _, exec_bar2Read_good hl hb, rfl, bar2Read_length .., fun k hw => (bar2Read_effect hw).1,
      fun k hw => (bar2Read_effect hw).2⟩
  · intro hb
    refine ⟨_, exec_doorbell_live hl, ?_⟩
    rw [doorbell_bad hb]
    exact ⟨⟨rfl, rfl, rfl⟩, rfl, (ignored_counts s).1⟩
  · intro hb hw
    rw [exec_doorbell_live hl, doorbell_nowhere hb hw]
  · intro hb k hw
    have hd := doorbell_window (n := m.val) (rid := rid) hb hw
    rw [exec_doorbell_live hl]
    refine ⟨fun h1 => ?_, fun h1 h2 => ?_, fun h1 h2 => ?_⟩
    · rw [hd, if_pos h1]
    · rw [hd, if_neg (by rw [h1]; decide), if_pos h2]
    · rw [hd, if_neg (by rw [h1]; decide), if_neg (not_not_intro h2)]
  · intro ws bad kind
    refine ⟨doorSend_local, fun hn hb => ?_, doorSend_sent⟩
    rw [doorSend_bad hn hb]
    refine ⟨BitVec.ofNat 4 s.freeVal.1.toNat, rfl, rfl, ?_⟩
    rw [chan_setChan_same, answer_reason]
  · intro hok
    refine ⟨_, exec_slotRelease_live hl, ?_, slotRelease_advances hok⟩
    rw [slotRelease_taken hok]
    exact ⟨rfl, rfl, rfl⟩
  · intro hok
    refine ⟨_, exec_slotRelease_live hl, ?_⟩
    rw [slotRelease_ignored hok]
    exact ⟨⟨rfl, rfl, rfl⟩, ignored_counts s⟩
  · intro a ha
    exact ⟨_, exec_answer ha, answer_effect s ch.val a⟩
  · exact ⟨_, rfl, ⟨rfl, rfl, rfl⟩, rfl, rfl, rfl, rfl, rfl, rfl, _, rfl, ⟨rfl, rfl, rfl⟩, rfl,
      setBit_effect s.hostFlr rHPSTAT 2 false (by decide)⟩
  · rintro k z ⟨⟩
    exact chan_hostFlr s k
  · intro hr
    rw [exec_linkChange, if_neg (by simp [hr])]
  · intro hr
    exact ⟨s.setRegF rHPSTAT 2 2 (b2n up), by rw [exec_linkChange, if_pos hr], ⟨rfl, rfl, rfl⟩, setBit_effect s rHPSTAT 2 up (by decide)⟩

end Sys2Proof.Proofs
end

section
/-! SUPPORT. Plain register writes by the Reeve and by a bank (R4, R17, R170): the registers that take a masked write and
nothing else, the registers of a bank, and those with an effect of their own. -/
namespace Sys2Proof.Proofs

open Sys2Proof Sys2Proof.Machine Sys2Proof.Laws

variable {s : State} {r : RegSrc} {x : Who} {off : BitVec 32} {o : Nat} {v : Val}

/-- A register write by the Reeve or a bank at an aligned offset in the space. -/
theorem exec_regCmd (hr : r ≠ .host) (h8 : off.toNat % 8 = 0) (hl : off.toNat < 0x10000000) :
    exec (.registerWrite r off v) s = .next (s.regCmd r off.toNat v) := by
  have hc : (off.toNat % 8 == 0 && decide (off.toNat < 0x10000000)) = true := by simp [h8, hl]
  match r, hr with
  | .reeve, _ => exact congrArg _ (if_pos hc)
  | .bank _ _, _ => exact congrArg _ (if_pos hc)

theorem exec_unmapped (hr : r ≠ .host) (h : off.toNat % 8 ≠ 0 ∨ 0x10000000 ≤ off.toNat) :
    exec (.registerWrite r off v) s = .next s := by
  have hc : ¬ (off.toNat % 8 == 0 && decide (off.toNat < 0x10000000)) = true := by
    simp only [Bool.and_eq_true, beq_iff_eq, decide_eq_true_eq]; omega
  match r, hr with
  | .reeve, _ => exact congrArg _ (if_neg hc)
  | .bank _ _, _ => exact congrArg _ (if_neg hc)

/-- What a masked write puts in a register. -/
def masked (s : State) (o : Nat) (v : Val) : Val :=
  (s.reg o &&& ~~~v64 (rwMask o)) ||| (v &&& v64 (rwMask o))

/-- In no block with a decoder of its own: cores, clusters, bins, event counters, mailboxes. -/
def NoBlock (o : Nat) : Prop :=
  isCoreBlk o = false ∧ isClusterBlk o = false ∧ isBinBlk o = false ∧ isEvReg o = false ∧ isMailBlk o = false

/-- Outside those blocks a core's write does nothing (R4). -/
theorem regWrite_core (hx : x.reeve = false) (ho : NoBlock o) : s.regWrite x o v = s := by
  obtain ⟨hc, hk, hb, he, hm⟩ := ho
  unfold State.regWrite
  rw [evRedirect_plain he]
  simp [hc, hk, hb, he, hm, hx]

/-- A register whose write is a masked write and nothing else. -/
def PlainReg (o : Nat) : Prop :=
  o < 0x10000000 ∧ NoBlock o ∧ isLinkBlk o = false ∧ isTraceBlk o = false ∧
    ¬ (0x00300000 ≤ o ∧ o < 0x00401000) ∧ o ≠ rBTCTL ∧ o ≠ rTHCTL ∧ o ≠ rFABNODE ∧ o ≠ rFABRTF

theorem regWrite_plain (hx : x.reeve = true) (ho : PlainReg o) : s.regWrite x o v = s.setReg o (masked s o v) := by
  obtain ⟨hl, ⟨hc, hk, hb, he, hm⟩, hlk, ht, hv, h1, h2, h3, h4⟩ := ho
  have hvl : o ≠ rVLCLR := by unfold rVLCLR; omega
  have hd : ¬ (rFENCED 0 ≤ o ∧ o < rFENCED 768) := by unfold rFENCED; omega
  have hbn : ¬ (rFENCEB 0 ≤ o ∧ o < rFENCEB 64) := by unfold rFENCEB; omega
  have hp : ¬ (0x00400000 ≤ o ∧ o < pairBase 48) := by unfold pairBase; omega
  unfold State.regWrite
  rw [evRedirect_plain he]
  simp [hc, hk, hb, he, hm, hx, hlk, ht, h1, h2, h3, h4, hvl, hd, hbn, hp, Nat.not_le.2 hl, masked]

/-- What a masked write leaves: that register, and nothing else. -/
theorem masked_effect (s : State) (o : Nat) (v : Val) :
    let z := s.setReg o (masked s o v)
    z.reg o = masked s o v ∧ ∀ j, j ≠ o → z.reg j = s.reg j :=
  ⟨reg_setReg_same .., fun _ hj => reg_setReg_other _ _ hj⟩

/-- The settings of the module that the Reeve writes whole: the error cores, the scrub, the network boot, the fabric, the
link classes, the host windows, the route tables and the module counters. -/
abbrev Setting (o : Nat) : Prop :=
  o = rMERR 0 ∨ o = rSCRUB ∨ o = rNBCTL ∨ o = rFABCTL ∨ (∃ l, l < 6 ∧ o = rLNKCLS l) ∨ (∃ n, n < 8 ∧ o = hostWin n) ∨
    (∃ i, i < 1024 ∧ o = rRTSEG i) ∨ (∃ i, i < 64 ∧ o = rRTMOD i) ∨ (∃ i, i < 6 ∧ o = modCtr i)

/-- Registers that no write changes. -/
abbrev ReadOnly (o : Nat) : Prop := o = 0 ∨ o = rGLBBOOT ∨ o = rPWRSTAT ∨ o = rBTNUM ∨ o = rHPSTAT

/-- Where plain registers lie: below the violation log, or between the blocks. -/
theorem plainReg_of_range (h : o < 0x100000 ∨ o = rBTNUM ∨ o = rPWRSTAT ∨ o = rNBCTL ∨ (0x09000000 ≤ o ∧ o < 0x0A000000) ∨
    (0x0B100000 ≤ o ∧ o < 0x0E000000 ∧ o ≠ rFABNODE ∧ o ≠ rFABRTF) ∨ (0x0E6C0000 ≤ o ∧ o < 0x0F000000)) : PlainReg o := by
  unfold rBTNUM rPWRSTAT rNBCTL rFABNODE rFABRTF at h
  unfold PlainReg NoBlock
  simp only [isCoreBlk, isClusterBlk, isBinBlk, isEvReg, isDbgBlk, isMailBlk, isLinkBlk, isTraceBlk, rBTCTL, rTHCTL, rFABNODE,
    rFABRTF, Bool.and_eq_false_iff, decide_eq_false_iff_not]
  omega

theorem plainReg_setting (h : Setting o) : PlainReg o := by
  refine plainReg_of_range ?_
  unfold Setting rMERR rSCRUB rNBCTL rFABCTL rLNKCLS hostWin rRTSEG rRTMOD modCtr at h
  unfold rBTNUM rPWRSTAT rNBCTL rFABNODE rFABRTF
  rcases h with h | h | h | h | ⟨i, hi, h⟩ | ⟨i, hi, h⟩ | ⟨i, hi, h⟩ | ⟨i, hi, h⟩ | ⟨i, hi, h⟩ <;> omega

theorem plainReg_readOnly (h : ReadOnly o) : PlainReg o := by
  refine plainReg_of_range ?_
  unfold ReadOnly rGLBBOOT rPWRSTAT rBTNUM rHPSTAT at h
  unfold rBTNUM rPWRSTAT rNBCTL rFABNODE rFABRTF
  omega

theorem rwMask_readOnly (h : ReadOnly o) : rwMask o = 0 := by
  rcases h with rfl | rfl | rfl | rfl | rfl <;> decide

theorem masked_readOnly (h : ReadOnly o) : masked s o v = s.reg o := by
  unfold masked; rw [rwMask_readOnly h, masked_none]

end Sys2Proof.Proofs
end

section
/-! SUPPORT. Register writes with an effect of their own: THCTL (R467), the node of the module, CLRDBG (R309), the registers of
a bank (R202) and BAR0 of the host (R429). -/
namespace Sys2Proof.Proofs

open Sys2Proof Sys2Proof.Machine Sys2Proof.Laws

variable {s : State} {r : RegSrc} {x : Who} {o : Nat} {v : Val}

theorem regWrite_thctl (hx : x.reeve = true) : s.regWrite x rTHCTL v =
    if 70 ≤ bits v 23 16 ∧ bits v 23 16 ≤ 110 then s.setReg rTHCTL (masked s rTHCTL v)
    else (s.setReg rTHCTL (masked s rTHCTL v)).setRegF rTHCTL 23 16 (s.regF rTHCTL 23 16) := by
  obtain ⟨hc, hk, hb, he, hm⟩ : NoBlock rTHCTL := by unfold NoBlock; decide
  have hl : ¬ 0x10000000 ≤ rTHCTL := by decide
  have h1 : rTHCTL ≠ rBTCTL := by decide
  unfold State.regWrite
  rw [evRedirect_plain he]
  simp [hc, hk, hb, he, hm, hx, hl, h1, masked]

/-- What a write of THCTL leaves in it (R467): a throttle point outside 70 to 110 keeps the old one (log entry 79). -/
theorem thctl_fields (hx : x.reeve = true) :
    let z := s.regWrite x rTHCTL v
    (z.mem = s.mem ∧ z.banks = s.banks ∧ z.cores = s.cores ∧ z.reeve = s.reeve) ∧
      z.regF rTHCTL 15 8 = bits v 15 8 ∧ bit (z.reg rTHCTL) 0 = bit v 0 ∧
      z.regF rTHCTL 23 16 =
        (if 70 ≤ bits v 23 16 ∧ bits v 23 16 ≤ 110 then bits v 23 16 else s.regF rTHCTL 23 16) ∧
      z.regF rTHCTL 31 24 = s.regF rTHCTL 31 24 := by
  intro z
  generalize ht : s.setReg rTHCTL (masked s rTHCTL v) = t
  have hr : t.reg rTHCTL = masked s rTHCTL v := by rw [← ht, reg_setReg_same]
  have hwarn : t.regF rTHCTL 15 8 = bits v 15 8 := by
    unfold State.regF; rw [hr]; exact bits_masked_in _ _ _ (by decide) (by decide)
  have hen : bit (t.reg rTHCTL) 0 = bit v 0 := by
    rw [hr]; exact (getLsbD_masked _ _ _ (by decide)).trans (if_pos (by decide))
  have hthrot : t.regF rTHCTL 23 16 = bits v 23 16 := by
    unfold State.regF; rw [hr]; exact bits_masked_in _ _ _ (by decide) (by decide)
  have htrip : t.regF rTHCTL 31 24 = s.regF rTHCTL 31 24 := by
    unfold State.regF; rw [hr]; exact bits_masked_out _ _ _ (by decide) (by decide)
  have hz : z = if 70 ≤ bits v 23 16 ∧ bits v 23 16 ≤ 110 then t else t.setRegF rTHCTL 23 16 (s.regF rTHCTL 23 16) := by
    rw [← ht]; exact regWrite_thctl hx
  by_cases hv : 70 ≤ bits v 23 16 ∧ bits v 23 16 ≤ 110
  · rw [if_pos hv] at hz ⊢
    rw [hz]
    exact ⟨by rw [← ht]; exact ⟨rfl, rfl, rfl, rfl⟩, hwarn, hen, hthrot, htrip⟩
  · rw [if_neg hv] at hz ⊢
    rw [hz]
    refine ⟨by rw [← ht]; exact ⟨rfl, rfl, rfl, rfl⟩, (regF_setRegF_apart t _ _ (by decide) (by decide)).trans hwarn, ?_, ?_,
      (regF_setRegF_apart t _ _ (by decide) (by decide)).trans htrip⟩
    · rw [reg_setRegF_same, bit_setBits_apart _ _ (by decide) (by decide), hen]
    · rw [regF_setRegF_same _ _ _ (by decide)]
      exact Nat.mod_eq_of_lt (bits_lt _ _ _)

/-- A module that has its node keeps it (R382). -/
theorem regWrite_fabnode (hx : x.reeve = true) (hu : s.fabUp = true) : s.regWrite x rFABNODE v = s := by
  obtain ⟨hc, hk, hb, he, hm⟩ : NoBlock rFABNODE := by unfold NoBlock; decide
  obtain ⟨hl, h1, h2, h3, h4, h5, h6, h7⟩ : ¬ 0x10000000 ≤ rFABNODE ∧ rFABNODE ≠ rBTCTL ∧ rFABNODE ≠ rTHCTL ∧ rFABNODE ≠ rVLCLR ∧
    ¬ rFABNODE < rFENCED 768 ∧ ¬ rFABNODE < rFENCEB 64 ∧ ¬ rFABNODE < pairBase 48 ∧ isLinkBlk rFABNODE = false := by decide
  unfold State.regWrite
  rw [evRedirect_plain he]
  simp [hc, hk, hb, he, hm, hx, hl, h1, h2, h3, h4, h5, h6, h7, hu]

section Pairs

variable {p : Nat} (hp : p < 48)
include hp

/-- CLRDBG is a register of a pair's part of the space. -/
theorem clrdbg_place : NoBlock (pairBase p + 8) ∧ pairBase p + 8 < 0x10000000 ∧ pairBase p + 8 ≠ rBTCTL ∧
    pairBase p + 8 ≠ rTHCTL ∧ pairBase p + 8 ≠ rVLCLR ∧ ¬ pairBase p + 8 < rFENCED 768 ∧ ¬ pairBase p + 8 < rFENCEB 64 ∧
    0x00400000 ≤ pairBase p + 8 ∧ pairBase p + 8 < pairBase 48 ∧ (pairBase p + 8) % 0x40 = 8 := by
  unfold NoBlock
  simp only [isCoreBlk, isClusterBlk, isBinBlk, isEvReg, isDbgBlk, isMailBlk, rBTCTL, rTHCTL, rVLCLR, rFENCED, rFENCEB,
    Bool.and_eq_false_iff, decide_eq_false_iff_not]
  unfold pairBase
  omega

/-- The control register of a pair takes its two writable bits; bit 2 of the write ends a debug break (R309). -/
theorem regWrite_clrdbg (hx : x.reeve = true) : s.regWrite x (pairBase p + 8) v =
    let t := s.setReg (pairBase p + 8) (masked s (pairBase p + 8) v)
    if bit v 2 = true then t.setRegF (pairBase p) 7 7 0 else t := by
  obtain ⟨⟨hc, hk, hb, he, hm⟩, hl, h1, h2, h3, h4, h5, h6, h7, h8⟩ := clrdbg_place hp
  unfold State.regWrite
  rw [evRedirect_plain he]
  simp [hc, hk, hb, he, hm, hx, Nat.not_le.2 hl, h1, h2, h3, h4, h5, h6, h7, h8, masked]

theorem rwMask_clrdbg : rwMask (pairBase p + 8) = 3 := by
  obtain ⟨-, -, h1, h2, -, h4, h5, h6, h7, h8⟩ := clrdbg_place hp
  have hn : pairBase p + 8 ≠ rNBCTL := by unfold pairBase rNBCTL; omega
  simp [rwMask, h1, h2, hn, h4, h5, h6, h7, h8]

theorem regViolation_clrdbg : s.regViolation x (pairBase p + 8) true = false := by
  obtain ⟨⟨hc, hk, hb, he, hm⟩, -⟩ := clrdbg_place hp
  refine regViolation_shared ?_ ?_
  · rw [evRedirect_plain he]; simp [State.regWorld, hc, hk, hb, he, hm]
  · simp [State.progIndex, hk]

/-- What CLRDBG leaves of the two registers of a pair, and of all others (R309). -/
theorem clrdbg_effect (hx : x.reeve = true) :
    let z := s.regWrite x (pairBase p + 8) v
    (z.mem = s.mem ∧ z.banks = s.banks ∧ z.cores = s.cores ∧ z.reeve = s.reeve) ∧
      bits (z.reg (pairBase p + 8)) 1 0 = bits v 1 0 ∧
      (bit v 2 = true → bit (z.reg (pairBase p)) 7 = false) ∧
      (bit v 2 = false → z.reg (pairBase p) = s.reg (pairBase p)) ∧ z.pairMode p = s.pairMode p ∧
      ∀ j, j ≠ pairBase p + 8 → j ≠ pairBase p → z.reg j = s.reg j := by
  intro z
  have hz : z = _ := regWrite_clrdbg hp hx
  generalize ht : s.setReg (pairBase p + 8) (masked s (pairBase p + 8) v) = t at hz
  have hne : pairBase p ≠ pairBase p + 8 := Nat.ne_of_lt (Nat.lt_add_of_pos_right (by decide))
  have hframe : t.mem = s.mem ∧ t.banks = s.banks ∧ t.cores = s.cores ∧ t.reeve = s.reeve := by
    rw [← ht]; exact ⟨rfl, rfl, rfl, rfl⟩
  have hctl : bits (t.reg (pairBase p + 8)) 1 0 = bits v 1 0 := by
    rw [← ht, reg_setReg_same]
    unfold masked
    rw [rwMask_clrdbg hp]
    exact bits_masked_in _ _ _ (by decide) (by decide)
  have hoth : ∀ j, j ≠ pairBase p + 8 → t.reg j = s.reg j := fun j hj => by rw [← ht, reg_setReg_other _ _ hj]
  have hmode : t.pairMode p = s.pairMode p := congrArg (bits · 1 0) (hoth _ hne)
  dsimp only at hz
  by_cases hb : bit v 2 = true
  · rw [if_pos hb] at hz
    rw [hz, reg_setRegF_other _ _ _ _ hne.symm, reg_setRegF_same, bit_setBits_field _ _ (by decide) (by decide)]
    refine ⟨hframe, hctl, fun _ => Nat.zero_testBit _, fun h => absurd hb (by rw [h]; decide), ?_,
      fun j hj hj' => (reg_setRegF_other _ _ _ _ hj').trans (hoth j hj)⟩
    exact (regF_setRegF_apart t _ _ (by decide) (by decide)).trans hmode
  · rw [if_neg hb] at hz
    rw [hz]
    exact ⟨hframe, hctl, fun h => absurd h hb, fun _ => hoth _ hne, hmode, fun j hj _ => hoth j hj⟩

end Pairs

section BankRegisters

variable {c : Fin 96} {b : Fin 4} {q : Nat}

/-- Where the registers of a bank lie in the block of its core (R202). -/
abbrev bankReg (c : Fin 96) (b : Fin 4) (q : Nat) : Nat := coreBase c + 0x100 + 0x40 * b.val + q

theorem bankReg_place (c : Fin 96) (b : Fin 4) (hq : q ≤ 0x20) :
    bankReg c b q < 0x10000000 ∧ isCoreBlk (bankReg c b q) = true ∧ isEvReg (bankReg c b q) = false ∧
      State.supervisorReg (bankReg c b q) = false ∧ blkCore (bankReg c b q) = c.val ∧ blkBank (bankReg c b q) = b ∧
      bankReg c b q % 0x100000 = 0x100 + 0x40 * b.val + q := by
  have hc := c.isLt
  have hb := b.isLt
  have hm : bankReg c b q % 0x100000 = 0x100 + 0x40 * b.val + q := by unfold bankReg coreBase; omega
  have hs : State.supervisorReg (bankReg c b q) = false := by
    simp only [State.supervisorReg, isBinBlk, isMailBlk, isClusterBlk, Bool.or_eq_false_iff, Bool.and_eq_false_iff,
      decide_eq_false_iff_not]
    unfold bankReg coreBase
    omega
  have he : isEvReg (bankReg c b q) = false := by
    simp only [isEvReg, isDbgBlk, Bool.and_eq_false_iff, decide_eq_false_iff_not]
    unfold bankReg coreBase
    omega
  have hk : isCoreBlk (bankReg c b q) = true := by
    simp only [isCoreBlk, Bool.and_eq_true, decide_eq_true_eq]
    unfold bankReg coreBase
    omega
  refine ⟨?_, hk, he, hs, ?_, ?_, hm⟩
  · unfold bankReg coreBase; omega
  · unfold blkCore bankReg coreBase; omega
  · unfold blkBank
    rw [hm]
    refine Fin.ext ?_
    show (0x100 + 0x40 * b.val + q - 0x100) / 0x40 % 4 = b.val
    omega

/-- The core of a register block that can be reached: its cluster is enabled and it stands for itself (R11, R296). -/
abbrev Reachable (s : State) (c : Nat) : Prop := s.coreEnabled c = true ∧ s.oddBound c = false

theorem regViolation_bankReg (hq : q ≤ 0x20) (hc : Reachable s c)
    (hx : x.reeve = true ∨ x.w = (s.bank c b).status.wld) : s.regViolation x (bankReg c b q) true = false := by
  obtain ⟨-, hk, he, -, hcc, hbb, hm⟩ := bankReg_place c b hq
  have hb := b.isLt
  have hon : s.coreBlkOn (bankReg c b q) = true := by unfold State.coreBlkOn; rw [hcc, hc.1, hc.2]; rfl
  have hw : s.regWorld (s.evRedirect (bankReg c b q)) = some (s.bank c b).status.wld := by
    have h1 : 0x100 ≤ bankReg c b q % 0x100000 ∧ bankReg c b q % 0x100000 < 0x200 ∧
      bankReg c b q % 0x40 ≤ 0x20 := by omega
    rw [evRedirect_plain he]
    unfold State.regWorld
    simp [hk, hon, hcc, hbb, h1]
  rw [regViolation_world hw]
  rcases hx with hx | hx <;> simp [hx]

/-- A write of a bank's register, by the register (R202). -/
def writtenBank (k : Bank) (q : Nat) (v : Val) : Bank :=
  if q = 0 then { k with pri := BitVec.ofNat 2 (bits v 5 4) }
  else if q = 0x18 then { k with btmr := v.setWidth 32 }
  else { k with bevt := k.bevt &&& ~~~(v.setWidth 4) }

/-- PRI, BTMR and BEVT of a bank are written with no other effect (R202). -/
theorem regWrite_bankReg (hq : q = 0 ∨ q = 0x18 ∨ q = 0x20) (hc : Reachable s c) :
    s.regWrite x (bankReg c b q) v = s.modBank c b fun k => writtenBank k q v := by
  obtain ⟨hl, hk, he, hs, hcc, hbb, hm⟩ := bankReg_place c b (q := q) (by omega)
  have hb := b.isLt
  have hon : s.coreBlkOn (bankReg c b q) = true := by unfold State.coreBlkOn; rw [hcc, hc.1, hc.2]; rfl
  obtain ⟨h8, h1, h2, h3⟩ : bankReg c b q % 0x100000 ≠ 8 ∧ 0x100 ≤ bankReg c b q % 0x100000 ∧
    bankReg c b q % 0x100000 < 0x200 ∧ bankReg c b q % 0x100000 % 0x40 = q := by rw [hm]; omega
  have hw : s.regWrite x (bankReg c b q) v = s.writeCoreBlk x (bankReg c b q) v := by
    unfold State.regWrite
    rw [evRedirect_plain he]
    simp [hk, hs, Nat.not_le.2 hl]
  rw [hw]
  generalize bankReg c b q = o at hon hcc hbb h8 h1 h2 h3 ⊢
  unfold State.writeCoreBlk
  rw [hon, hcc, hbb]
  dsimp only
  rw [h3]
  rcases hq with rfl | rfl | rfl <;> simp [h8, h1, h2, writtenBank]

/-- What a write of a bank's register leaves. -/
theorem modBank_effect (s : State) (c : Nat) (b : Fin 4) (f : Bank → Bank) :
    let z := s.modBank c b f
    z.mem = s.mem ∧ z.regs = s.regs ∧ z.bank c b = f (s.bank c b) ∧
      ∀ c' b', (c', b') ≠ (c, b) → z.bank c' b' = s.bank c' b' :=
  ⟨rfl, rfl, bank_modBank_same .., fun _ _ h => bank_modBank_other _ _ h⟩

end BankRegisters

section Host

/-- A port that is down or frozen discards what the host writes. -/
theorem bar0Write_dead (h : ¬ Live s) : s.bar0Write o v = s := if_pos ((live_iff s).2 h)

variable (h : Live s)
include h

theorem not_dead : ¬ (!s.hostUp || s.hostFrozen) = true := fun hd => (live_iff s).1 hd h

/-- The host's write at a slot release's place is a slot release (R429, R434). -/
theorem bar0Write_slot {n : Nat} (hn : n < 4096) : s.bar0Write (16 * n + 8) v = s.slotRelease n v := by
  refine (if_neg (not_dead h)).trans ((if_pos (by omega)).trans ((if_pos ?_).trans ?_))
  · rw [beq_iff_eq]; omega
  · rw [show (16 * n + 8) / 16 = n by omega]

theorem bar0Write_note {n : Nat} (hn : n < 16) : s.bar0Write (0x30000 + 8 * n) v =
    { s with host := { s.host with hnote := Tbl.set (0 : Val) s.host.hnote n (v64 (bits v 12 0)) } } := by
  refine (if_neg (not_dead h)).trans ((if_neg (by omega)).trans ((if_pos ?_).trans ?_))
  · simp only [Bool.and_eq_true, decide_eq_true_eq]; omega
  · rw [show (0x30000 + 8 * n - 0x30000) / 8 = n by omega]

theorem bar0Write_command {n : Nat} (hn : n < 129) : s.bar0Write (0x21000 + 8 * n) v =
    { s with host := { s.host with mbcmd := Tbl.set (0 : Val) s.host.mbcmd n v } } := by
  unfold State.bar0Write
  rw [if_neg (not_dead h), if_neg (by omega), if_neg (by simp only [Bool.and_eq_true, decide_eq_true_eq]; omega),
    if_neg (by rw [beq_iff_eq]; omega), if_neg (by rw [beq_iff_eq]; omega),
    if_pos (by simp only [Bool.and_eq_true, decide_eq_true_eq]; omega), show (0x21000 + 8 * n - 0x21000) / 8 = n by omega]

/-- Nothing stands between the parts of BAR0. -/
theorem bar0Write_nothing (ho : 0x10000 ≤ o ∧ o < 0x20000 ∨ 0x40000 ≤ o ∧ o < 0xF0000 ∨ 0xF0400 ≤ o) :
    s.bar0Write o v = s := by
  unfold State.bar0Write
  rw [if_neg (not_dead h), if_neg (by omega), if_neg (by simp only [Bool.and_eq_true, decide_eq_true_eq]; omega),
    if_neg (by rw [beq_iff_eq]; omega), if_neg (by rw [beq_iff_eq]; omega),
    if_neg (by simp only [Bool.and_eq_true, decide_eq_true_eq]; omega),
    if_neg (by simp only [Bool.and_eq_true, decide_eq_true_eq]; omega)]

/-- The control word of an entry of the MSI-X table (R436): a vector that was pending goes out when its mask is lifted. -/
theorem bar0Write_vector {n : Nat} (hn : n < 64) : s.bar0Write (0xF0000 + 16 * n + 8) v =
    let t : State := { s with host := { s.host with msix := Tbl.set (1 : Val) s.host.msix n (v >>> 32) } }
    if bit v 32 = true ∨ Tbl.get 0 s.host.pba n = 0 then t
    else ({ t with host := { t.host with pba := Tbl.set 0 s.host.pba n 0 } } : State).sendVector n := by
  unfold State.bar0Write
  rw [if_neg (not_dead h), if_neg (by omega), if_neg (by simp only [Bool.and_eq_true, decide_eq_true_eq]; omega),
    if_neg (by rw [beq_iff_eq]; omega), if_neg (by rw [beq_iff_eq]; omega),
    if_neg (by simp only [Bool.and_eq_true, decide_eq_true_eq]; omega),
    if_pos (by simp only [Bool.and_eq_true, decide_eq_true_eq, beq_iff_eq]; omega),
    show (0xF0000 + 16 * n + 8 - 0xF0000) / 16 = n by omega]
  refine ite_of_iff ?_ rfl rfl
  rw [Bool.or_eq_true, beq_iff_eq]

/-- What the host's write of a control word leaves. -/
theorem vector_effect {n : Nat} (hn : n < 64) :
    let z := s.bar0Write (0xF0000 + 16 * n + 8) v
    (z.mem = s.mem ∧ z.banks = s.banks ∧ z.cores = s.cores ∧ z.reeve = s.reeve) ∧ z.regs = s.regs ∧
      Tbl.get (1 : Val) z.host.msix n = v >>> 32 ∧
      ((bit v 32 = true ∨ Tbl.get 0 s.host.pba n = 0) → z.host.vectors = s.host.vectors) ∧
      (bit v 32 = false → Tbl.get 0 s.host.pba n ≠ 0 → z.host.vectors = s.host.vectors ++ [n] ∧
        Tbl.get 0 z.host.pba n = 0) := by
  intro z
  have hz : z = _ := bar0Write_vector h hn
  dsimp only at hz
  by_cases hc : bit v 32 = true ∨ Tbl.get 0 s.host.pba n = 0
  · rw [if_pos hc] at hz
    rw [hz]
    refine ⟨⟨rfl, rfl, rfl, rfl⟩, rfl, Tbl.get_set_same .., fun _ => rfl, fun h1 h2 => ?_⟩
    rcases hc with hc | hc
    · exact absurd hc (by rw [h1]; decide)
    · exact absurd hc h2
  · have hb : (v >>> 32).getLsbD 0 = false := by
      rw [BitVec.getLsbD_ushiftRight]
      exact Bool.eq_false_iff.2 fun hb => hc (.inl hb)
    have hm : bit (Tbl.get 1 (Tbl.set (1 : Val) s.host.msix n (v >>> 32)) n) 0 = false := by
      rw [Tbl.get_set_same]; exact hb
    rw [if_neg hc] at hz
    rw [hz.trans (sendVector_sent _ h.2 hm)]
    exact ⟨⟨rfl, rfl, rfl, rfl⟩, rfl, Tbl.get_set_same .., fun h1 => absurd h1 hc,
      fun _ _ => ⟨rfl, Tbl.get_set_same 0 s.host.pba n 0⟩⟩

end Host

end Sys2Proof.Proofs
end

section
/-! SUPPORT. The bout boundary (R13, R353, R379, R380, R443) and the edge of BOUTREF (R377). -/
namespace Sys2Proof.Proofs

open Sys2Proof Sys2Proof.Machine Sys2Proof.Laws

/-- A fold over the numbers below `n` whose step at `i` changes part `i` only: each part below `n` is changed once, from what
it was at the start. -/
theorem foldl_range_apart {σ β : Type} (get : σ → Nat → β) (step : σ → Nat → σ) (F : σ → Nat → β → β)
    (h1 : ∀ s i, get (step s i) i = F s i (get s i)) (h2 : ∀ s i j, j ≠ i → get (step s i) j = get s j) (s : σ) (n i : Nat) :
    get ((List.range n).foldl step s) i =
      if i < n then F ((List.range i).foldl step s) i (get s i) else get s i := by
  induction n with
  | zero => simp
  | succ n ih =>
    rw [List.range_succ, List.foldl_append, List.foldl_cons, List.foldl_nil]
    by_cases hi : i = n
    · subst hi
      rw [h1, ih, if_neg (Nat.lt_irrefl _), if_pos (Nat.lt_succ_self _)]
    · rw [h2 _ _ _ hi, ih]
      exact ite_of_iff (by omega) rfl rfl

section Boundary

variable (s : State)

/-- The state at which the bout number advances: the count frame is sent, the markers' echoes are fixed, the boundary is
counted. -/
def atBoundary : State := { s.sendFrame.markEchoes with bounds := s.bounds + 1 }

/-- Fixing the echoes touches the links only. -/
theorem markEchoes_keeps {β : Type} (p : State → β) (h : ∀ s i f, p (State.modLink s i f) = p s) :
    p s.markEchoes = p s :=
  foldl_keeps p _ (fun _ _ => h ..) _ s

theorem link_modLink_other {i j : Nat} (f : Link → Link) (h : j ≠ i) : (s.modLink i f).link j = s.link j :=
  Tbl.get_set_other _ _ _ h

/-- A link's marker is forgotten at the boundary; with none there is no echo (R353). -/
theorem markEchoes_link {l : Nat} (hl : l < 6) : (s.markEchoes.link l).markIn = false ∧
    ((s.link l).markIn = false → (s.markEchoes.link l).markEcho = 0) := by
  have h : s.markEchoes.link l = _ := foldl_range_apart State.link _ (fun t _ x => { x with
      markIn := false, markEcho := if x.markIn then (t.periodUI + t.fab.btAdj - (x.markTa % t.periodUI : Nat)).toNat else 0 })
    (fun t i => link_modLink_same t i _) (fun t i j hj => link_modLink_other t _ hj) s 6 l
  rw [h, if_pos hl]
  exact ⟨rfl, fun hm => if_neg (by rw [hm]; decide)⟩

/-- The bout number jumps forward to a parent's (R379). -/
abbrev Jumps : Prop := (s.bout + 1).toNat < s.fab.btJumpTo.toNat

/-- The first part of the advance: the bout number, and the count of jumps (R379). -/
def numbered : State :=
  if Jumps s then (s.setReg rBTNUM s.fab.btJumpTo).incF rBTJUMP 63 0 1 else s.setReg rBTNUM (s.bout + 1)

/-- The second part: a period that was asked for is the running one (R380). -/
def periodTaken : State := s.fab.nextPeriod.elim s fun p => s.setRegF rBTCTL 1 0 p.toNat

/-- The third part: what the fabric unit held for this boundary is used up. -/
def usedUp : State := { s with fab := { s.fab with nextPeriod := none, btAdj := 0 } }

/-- The advance is its parts, and the edge of BOUTOUT where it is driven. -/
theorem advanceBout_parts : let t := usedUp (periodTaken (numbered s))
    s.advanceBout = if bit (t.reg rBTCTL) 5 then { t with pins := { t.pins with boutout := t.pins.boutout + 1 } } else t := by
  have hn : (if decide (Jumps s) = true then (s.setReg rBTNUM s.fab.btJumpTo).incF rBTJUMP 63 0 1
      else s.setReg rBTNUM (s.bout + 1)) = numbered s := ite_of_iff decide_eq_true_iff rfl rfl
  unfold State.advanceBout
  dsimp only
  rw [hn]
  unfold periodTaken usedUp
  cases (numbered s).fab.nextPeriod <;> rfl

theorem numbered_keeps {β : Type} (p : State → β) (h : ∀ s o v, p (State.setReg s o v) = p s) : p (numbered s) = p s := by
  unfold numbered
  split
  · exact (h ..).trans (h ..)
  · exact h ..

theorem periodTaken_keeps {β : Type} (p : State → β) (h : ∀ s o v, p (State.setReg s o v) = p s) :
    p (periodTaken s) = p s := by
  unfold periodTaken
  cases s.fab.nextPeriod
  · rfl
  · exact h ..

/-- The advance changes registers, the fabric unit's settings for the boundary and the pin BOUTOUT. -/
theorem advanceBout_keeps {β : Type} (p : State → β) (h1 : ∀ s o v, p (State.setReg s o v) = p s)
    (h2 : ∀ s : State, p (usedUp s) = p s) (h3 : ∀ (s : State) x, p { s with pins := x } = p s) :
    p s.advanceBout = p s := by
  have ht : p (usedUp (periodTaken (numbered s))) = p s :=
    (h2 _).trans ((periodTaken_keeps _ p h1).trans (numbered_keeps s p h1))
  rw [advanceBout_parts]
  dsimp only
  split
  · exact (h3 ..).trans ht
  · exact ht

/-- A register after the advance. -/
theorem advanceBout_reg (o : Nat) : s.advanceBout.reg o = (periodTaken (numbered s)).reg o := by
  rw [advanceBout_parts]
  dsimp only
  split <;> rfl

theorem numbered_reg_bout : (numbered s).bout = if Jumps s then s.fab.btJumpTo else s.bout + 1 := by
  unfold numbered
  by_cases h : Jumps s
  · rw [if_pos h, if_pos h]
    exact (reg_incF_other _ _ _ _ (by decide)).trans (reg_setReg_same ..)
  · rw [if_neg h, if_neg h]
    exact reg_setReg_same ..

theorem numbered_reg_jump (h : Jumps s) : (numbered s).reg rBTJUMP = s.reg rBTJUMP + 1 := by
  unfold numbered
  rw [if_pos h, reg_incF_one, reg_setReg_other _ _ (by decide)]

theorem numbered_reg_other {o : Nat} (h1 : o ≠ rBTNUM) (h2 : o ≠ rBTJUMP) : (numbered s).reg o = s.reg o := by
  unfold numbered
  split
  · rw [reg_incF_other _ _ _ _ h2, reg_setReg_other _ _ h1]
  · rw [reg_setReg_other _ _ h1]

theorem periodTaken_reg_other {o : Nat} (h : o ≠ rBTCTL) : (periodTaken s).reg o = s.reg o := by
  unfold periodTaken
  cases s.fab.nextPeriod
  · rfl
  · exact reg_setRegF_other _ _ _ _ h

theorem periodTaken_period : (periodTaken s).regF rBTCTL 1 0 = s.fab.nextPeriod.elim (s.regF rBTCTL 1 0) BitVec.toNat := by
  unfold periodTaken
  cases s.fab.nextPeriod with
  | none => rfl
  | some q => exact (regF_setRegF_same _ _ _ (by decide)).trans (Nat.mod_eq_of_lt q.isLt)

/-- The bout number after the advance (R379). -/
theorem advanceBout_bout : s.advanceBout.bout = if Jumps s then s.fab.btJumpTo else s.bout + 1 := by
  rw [← numbered_reg_bout]
  exact (advanceBout_reg s _).trans (periodTaken_reg_other _ (by decide))

theorem advanceBout_jump (h : Jumps s) : s.advanceBout.reg rBTJUMP = s.reg rBTJUMP + 1 := by
  rw [advanceBout_reg, periodTaken_reg_other _ (by decide), numbered_reg_jump s h]

/-- The running period after the advance (R380). -/
theorem advanceBout_period :
    s.advanceBout.regF rBTCTL 1 0 = s.fab.nextPeriod.elim (s.regF rBTCTL 1 0) BitVec.toNat := by
  have hn : (numbered s).regF rBTCTL 1 0 = s.regF rBTCTL 1 0 :=
    congrArg (bits · 1 0) (numbered_reg_other s (by decide) (by decide))
  have hf : (numbered s).fab = s.fab := numbered_keeps s State.fab fun _ _ _ => rfl
  rw [← hn, ← hf, ← periodTaken_period]
  exact congrArg (bits · 1 0) (advanceBout_reg s _)

theorem advanceBout_nextPeriod : s.advanceBout.fab.nextPeriod = none := by
  rw [advanceBout_parts]
  dsimp only
  split <;> rfl

/-- What the state at the boundary still holds of the state before. -/
theorem atBoundary_keeps {β : Type} (p : State → β) (h1 : ∀ s i f, p (State.modLink s i f) = p s)
    (h2 : ∀ (s : State) b, p { s with bounds := b } = p s) (h3 : p s.sendFrame = p s) : p (atBoundary s) = p s :=
  (h2 ..).trans ((markEchoes_keeps _ p h1).trans h3)

/-- A state without what the advance of the bout number changes. -/
def untouched : State := { s with regs := [], fab := {}, pins := {}, act := [], frames := [], bounds := 0 }

theorem boundary_untouched : untouched (atBoundary s).advanceBout = untouched s :=
  (advanceBout_keeps _ untouched (fun _ _ _ => rfl) (fun _ => rfl) (fun _ _ => rfl)).trans
    (atBoundary_keeps s untouched (fun _ _ _ => rfl) (fun _ _ => rfl) rfl)

theorem boundary_keeps : let a := (atBoundary s).advanceBout
    a.mem = s.mem ∧ a.banks = s.banks ∧ a.cores = s.cores ∧ a.reeve = s.reeve := by
  have h := congrArg (fun t => (t.mem, t.banks, t.cores, t.reeve)) (boundary_untouched s)
  exact ⟨congrArg (·.1) h, congrArg (·.2.1) h, congrArg (·.2.2.1) h, congrArg (·.2.2.2) h⟩

/-- The count frame of the bout that ends is sent, and the boundary is counted (R443). -/
theorem boundary_frame : let a := (atBoundary s).advanceBout
    a.act = [] ∧ a.frames = s.frames ++ [countFrame s.bout (s.regF rBTCTL 1 0) s.act] ∧ a.bounds = s.bounds + 1 := by
  have ha := advanceBout_keeps (atBoundary s) (fun t => (t.act, t.frames, t.bounds))
    (fun _ _ _ => rfl) (fun _ => rfl) (fun _ _ => rfl)
  have hm := markEchoes_keeps s.sendFrame (fun t => (t.act, t.frames)) (fun _ _ _ => rfl)
  unfold atBoundary at ha ⊢
  simp only [Prod.mk.injEq] at ha hm
  rw [hm.1, hm.2] at ha
  exact ha

theorem atBoundary_reg (o : Nat) : (atBoundary s).reg o = s.reg o :=
  atBoundary_keeps s (State.reg · o) (fun _ _ _ => rfl) (fun _ _ => rfl) rfl

theorem atBoundary_jumpTo : (atBoundary s).fab.btJumpTo = s.fab.btJumpTo :=
  atBoundary_keeps s (fun t => t.fab.btJumpTo) (fun _ _ _ => rfl) (fun _ _ => rfl) rfl

theorem atBoundary_nextPeriod : (atBoundary s).fab.nextPeriod = s.fab.nextPeriod :=
  atBoundary_keeps s (fun t => t.fab.nextPeriod) (fun _ _ _ => rfl) (fun _ _ => rfl) rfl

theorem atBoundary_jumps : Jumps (atBoundary s) ↔ Jumps s := by
  unfold Jumps
  rw [atBoundary_jumpTo, show (atBoundary s).bout = s.bout from atBoundary_reg s _]

/-- The bout number, its jumps and the period at a boundary (R379, R380). -/
theorem boundary_number : let a := (atBoundary s).advanceBout
    a.bout = (if Jumps s then s.fab.btJumpTo else s.bout + 1) ∧
      a.regF rBTCTL 1 0 = s.fab.nextPeriod.elim (s.regF rBTCTL 1 0) BitVec.toNat ∧ a.fab.nextPeriod = none ∧
      (Jumps s → a.reg rBTJUMP = s.reg rBTJUMP + 1) := by
  refine ⟨?_, ?_, advanceBout_nextPeriod _, fun h => ?_⟩
  · refine (advanceBout_bout _).trans (ite_of_iff (atBoundary_jumps s) (atBoundary_jumpTo s) ?_)
    exact congrArg (· + 1) (atBoundary_reg s _)
  · rw [advanceBout_period, atBoundary_nextPeriod]
    unfold State.regF
    rw [atBoundary_reg]
  · rw [advanceBout_jump _ ((atBoundary_jumps s).2 h), atBoundary_reg]

/-- The links at a boundary (R353). -/
theorem boundary_link {l : Nat} (hl : l < 6) : let a := (atBoundary s).advanceBout
    (a.link l).markIn = false ∧ ((s.link l).markIn = false → (a.link l).markEcho = 0) := by
  have ha : (atBoundary s).advanceBout.link l = (atBoundary s).link l :=
    advanceBout_keeps _ (State.link · l) (fun _ _ _ => rfl) (fun _ => rfl) (fun _ _ => rfl)
  have hf : (atBoundary s).link l = s.sendFrame.markEchoes.link l := by unfold atBoundary State.link; rfl
  have hs : s.sendFrame.link l = s.link l := by unfold State.sendFrame State.link; rfl
  intro a
  rw [ha, hf, ← hs]
  exact markEchoes_link s.sendFrame hl

section Commands

variable {s : State} {dev : Int}

theorem exec_boundary_reset (h : s.running = false) :
    exec .boutBoundary s = .next s ∧ exec (.boutrefEdge dev) s = .next s :=
  ⟨congrArg _ (if_pos (by simp [h])), congrArg _ (if_pos (by simp [h]))⟩

/-- What follows the advance: the units, unless the module is Tripped (R467), then the scripts and the Reeve. -/
theorem exec_boundary (h : s.running = true) : let a := (atBoundary s).advanceBout
    exec .boutBoundary s =
      .next ((if s.tripped then a else a.unitsBoundary.countFree).scriptAge.scriptSlice.reeveWake) := by
  have ht : (atBoundary s).advanceBout.tripped = s.tripped := by
    have hu := congrArg State.tripped (boundary_untouched s)
    exact hu
  intro a
  rw [← ht]
  exact congrArg _ (if_neg (by simp [h]))

/-- A module that is not the root, or takes no reference, ignores BOUTREF (R377). -/
theorem exec_boutref_ignored (h : s.isRoot = false ∨ s.regF rBTCTL 3 2 = 2) : exec (.boutrefEdge dev) s = .next s :=
  congrArg _ (if_pos (by rcases h with h | h <;> simp [h]))

theorem exec_boutref (h1 : s.running = true) (h2 : s.isRoot = true) (h3 : s.regF rBTCTL 3 2 ≠ 2) :
    exec (.boutrefEdge dev) s =
      if s.period < 100 * dev.natAbs then .next (s.incF rBTSTEP 31 0 1) else exec .boutBoundary s := by
  refine (congrArg _ (if_neg (by simp [h1, h2, h3]))).trans ?_
  split <;> rfl

theorem allFree_modCore (s : State) (i c : Nat) (f : Core → Core) : (s.modCore i f).allFree c = s.allFree c := rfl

/-- A core that is free at this boundary counts it, up to the most that PGDLY can ask for (R205). -/
def freeCounted (t : State) (i : Nat) (x : Core) : Core :=
  { x with freeBouts := if t.allFree i then min 256 (x.freeBouts + 1) else 0 }

theorem countFree_eq (s : State) :
    s.countFree = (List.range 96).foldl (fun t i => t.modCore i (freeCounted t i)) s := rfl

/-- A core's count of boundaries at which it was free (R205). -/
theorem countFree_core {c : Nat} (hc : c < 96) : (s.countFree.core c).freeBouts =
    if s.allFree c then min 256 ((s.core c).freeBouts + 1) else 0 := by
  have hf := foldl_keeps (State.allFree · c) (fun (t : State) i => t.modCore i (freeCounted t i))
    (fun _ _ => allFree_modCore ..) (List.range c) s
  have h := foldl_range_apart State.core (fun (t : State) i => t.modCore i (freeCounted t i)) freeCounted
    (fun _ _ => core_modCore_same ..) (fun _ _ _ hj => core_modCore_other _ _ hj) s 96 c
  rw [countFree_eq, h, if_pos hc]
  unfold freeCounted at hf ⊢
  dsimp only at hf ⊢
  rw [hf]

end Commands

end Boundary
end Sys2Proof.Proofs
end

section
/-! SUPPORT. A cycle with no command (log entry 1): what passes in it, the timers of the banks (R202, R203), and the account
to which a core's cycle counts (R442). -/
namespace Sys2Proof.Proofs

open Sys2Proof Sys2Proof.Machine Sys2Proof.Laws

variable {s : State} {c : Nat} {b : Fin 4}

theorem step_no_command (h : s.pending = []) : step s = .next (Machine.idle s) := by
  unfold step; rw [h]

theorem idle_reset (h : s.running = false) : Machine.idle s = s := if_pos (by rw [h]; rfl)

/-- One cycle later. -/
abbrev nextCycle (s : State) : State := { s with cycle := s.cycle + 1 }

theorem idle_running (h : s.running = true) : Machine.idle s =
    if (nextCycle s).tripped then (nextCycle s).serveInbox.reeveWake
    else ((List.range 96).foldl (fun z n => z.tickCore n) (nextCycle s)).tickPairs.resume := by
  unfold Machine.idle
  rw [h]
  rfl

/-- A Tripped module runs its inbox and its Reeve only (R467). -/
theorem idle_tripped (h : s.running = true) (ht : s.tripped = true) :
    Machine.idle s = (nextCycle s).serveInbox.reeveWake :=
  (idle_running h).trans (if_pos ht)

theorem idle_untripped (h : s.running = true) (ht : s.tripped = false) : Machine.idle s =
    ((List.range 96).foldl (fun z n => z.tickCore n) (nextCycle s)).tickPairs.resume :=
  (idle_running h).trans (if_neg (Bool.eq_false_iff.1 ht))

theorem tickPairs_eq (s : State) :
    s.tickPairs = if s.cycle % 256 = 0 then (List.range 48).foldl (fun z n => z.yokeTick n) s else s :=
  ite_of_iff beq_iff_eq rfl rfl

section Timer

theorem tickTimer_stopped (h : (s.bank c b).btmr = 0) : s.tickTimer c b = s := if_pos (by rw [h]; rfl)

theorem tickTimer_expires (h : (s.bank c b).btmr = 1) : s.tickTimer c b = s.btmrExpire c b :=
  (if_neg (by rw [h]; decide)).trans (if_pos (by rw [h]; rfl))

theorem tickTimer_counts (h0 : (s.bank c b).btmr ≠ 0) (h1 : (s.bank c b).btmr ≠ 1) :
    s.tickTimer c b = s.modBank c b fun k => { k with btmr := (s.bank c b).btmr - 1 } :=
  (if_neg fun h => h0 (beq_iff_eq.1 h)).trans (if_neg fun h => h1 (beq_iff_eq.1 h))

end Timer

section Account

/-- A cycle is counted at its core's account, and nothing else of that account changes (R442). -/
theorem countCycle_account (s : State) (c : Nat) : let t := s.cycleAccount c
    (Tbl.get {} (s.countCycle c).act t).c = (Tbl.get {} s.act t).c + 1 ∧
      (Tbl.get {} (s.countCycle c).act t).w = (Tbl.get {} s.act t).w := by
  intro t
  have h : (s.countCycle c).act = Tbl.set {} s.act t { Tbl.get {} s.act t with c := (Tbl.get {} s.act t).c + 1 } := rfl
  rw [h, Tbl.get_set_same]
  exact ⟨rfl, rfl⟩

/-- A core of a free pair counts for itself (R296). -/
theorem rep_of_free_pair (h : s.pairMode (c / 2) = 0) : s.rep c = c := by
  have hm : s.oddBound c = false := by
    unfold State.oddBound pairOf
    rw [h, Bool.and_eq_false_iff]
    exact .inr rfl
  exact if_neg (by rw [hm]; decide)

/-- The account of a core that is neither frozen nor in a yoked or lockstep pair, by what it runs. -/
theorem cycleAccount_alone (hf : (s.core c).frozen = false) (hm : s.pairMode (c / 2) = 0) : s.cycleAccount c =
    (s.core c).run.elim 65 fun b => if bit (s.bank c b).tenant 7 then bits (s.bank c b).tenant 5 0 else 64 := by
  unfold State.cycleAccount
  dsimp only
  rw [rep_of_free_pair hm, hf, show s.pairMode (pairOf c) = 0 from hm]
  cases (s.core c).run <;> rfl

end Account

end Sys2Proof.Proofs
end

section
/-! Plain register writes, bout boundaries, BOUTREF and an idle cycle (O55). -/
namespace Sys2Proof.Proofs

open Sys2Proof Sys2Proof.Machine Sys2Proof.Laws

section Parts

variable {s : State} {r : RegSrc} {x : Who} {off : BitVec 32} {v : Val}

/-- The write is of an aligned offset in the space, by the Reeve or a bank. -/
abbrev Mapped (r : RegSrc) (off : BitVec 32) : Prop :=
  r ≠ .host ∧ off.toNat % 8 = 0 ∧ off.toNat < 0x10000000

theorem exec_mapped_none (hr : r ≠ .host) (h : off.toNat % 8 ≠ 0 ∨ 0x10000000 ≤ off.toNat ∨ s.whoOf r = none) :
    exec (.registerWrite r off v) s = .next s := by
  by_cases hm : off.toNat % 8 ≠ 0 ∨ 0x10000000 ≤ off.toNat
  · exact exec_unmapped hr hm
  · have hw : s.whoOf r = none := (h.resolve_left fun h => hm (.inl h)).resolve_left fun h => hm (.inr h)
    rw [exec_regCmd hr (by omega) (by omega), regCmd_none hw]

theorem exec_mapped_violation (hm : Mapped r off) (h : s.whoOf r = some x)
    (hv : s.regViolation x off.toNat true = true) :
    exec (.registerWrite r off v) s = .next (s.freezeCore x.c x.b 0x05 (v64 off.toNat)) := by
  obtain ⟨hr, h8, hl⟩ := hm
  rw [exec_regCmd hr h8 hl, regCmd_violation h hv]

theorem exec_mapped_write (hm : Mapped r off) (h : s.whoOf r = some x)
    (hv : s.regViolation x off.toNat true = false) :
    exec (.registerWrite r off v) s = .next (s.regWrite x off.toNat v) := by
  obtain ⟨hr, h8, hl⟩ := hm
  rw [exec_regCmd hr h8 hl, regCmd_write h hv]

theorem exec_reeve_write (hm : Mapped r off) (h : s.whoOf r = some x) (hx : x.reeve = true) :
    exec (.registerWrite r off v) s = .next (s.regWrite x off.toNat v) :=
  exec_mapped_write hm h (regViolation_reeve hx)

/-- A write of a register of a bank, of core `c` and place `q`, is a write of that bank (R202). -/
theorem exec_bankReg {c : Fin 96} {b : Fin 4} {q : Nat} (hq : q = 0 ∨ q = 0x18 ∨ q = 0x20) (hm : Mapped r off)
    (h : s.whoOf r = some x) (hc : Reachable s c) (hx : x.reeve = true ∨ x.w = (s.bank c b).status.wld)
    (ho : off.toNat = bankReg c b q) :
    ∃ z, exec (.registerWrite r off v) s = .next z ∧ z.mem = s.mem ∧ z.regs = s.regs ∧
      z.bank c b = writtenBank (s.bank c b) q v ∧ ∀ c' b', (c', b') ≠ (c.val, b) → z.bank c' b' = s.bank c' b' := by
  have hv : s.regViolation x off.toNat true = false := by
    rw [ho]; exact regViolation_bankReg (by omega) hc hx
  refine ⟨_, exec_mapped_write hm h hv, ?_⟩
  rw [ho, regWrite_bankReg hq hc]
  exact modBank_effect s c b _

theorem exec_clrdbg {p : Fin 48} : exec (.clrdbgWrite r p v) s = .next (s.regCmd r (pairBase p.val + 8) v) := rfl

/-- CLRDBG by a source that is not there, or by a bank, changes nothing (R309). -/
theorem exec_clrdbg_core {p : Fin 48} (h : s.whoOf r = none ∨ ∃ y, s.whoOf r = some y ∧ y.reeve = false) :
    exec (.clrdbgWrite r p v) s = .next s := by
  rw [exec_clrdbg]
  rcases h with h | ⟨y, h, hy⟩
  · rw [regCmd_none h]
  · rw [regCmd_write h (regViolation_clrdbg p.isLt), regWrite_core hy (clrdbg_place p.isLt).1]

/-- No write of CLRDBG is a violation: the register belongs to no world. -/
theorem exec_clrdbg_shared {p : Fin 48} (h : s.whoOf r = some x) :
    exec (.clrdbgWrite r p v) s = .next (s.regWrite x (pairBase p.val + 8) v) := by
  rw [exec_clrdbg]
  rw [regCmd_write h (regViolation_clrdbg p.isLt)]

theorem exec_bar0 : exec (.registerWrite .host off v) s = .next (s.bar0Write off.toNat v) := rfl

end Parts

/-- Settles O55: each register write through the rule of its class, the boundary through the parts of the bout's advance, the
idle cycle by the timer's and the account's own rules. -/
theorem registerWritesAndTime : Obligations.RegisterWritesAndTime := by
  unfold Obligations.RegisterWritesAndTime
  intro s r x off v p dev c b
  dsimp only
  refine ⟨exec_mapped_none, exec_mapped_violation, exec_mapped_write,
    fun hx hc hk hb he hm => regWrite_core hx ⟨hc, hk, hb, he, hm⟩, ?settings, ?thctl, ?fabnode, ?readOnly, ?bank, ?clrdbg,
    ?host, ?boundary, ?idle, fun h0 h1 => ?timer, tickTimer_stopped, tickTimer_expires, ?account⟩
  case settings =>
    intro hm h hx ho
    refine ⟨_, exec_reeve_write hm h hx, ?_⟩
    rw [regWrite_plain hx (plainReg_setting ho)]
    exact ⟨⟨rfl, rfl, rfl, rfl⟩, masked_effect s off.toNat v⟩
  case thctl =>
    intro hm h hx ho
    refine ⟨_, exec_reeve_write hm h hx, ?_⟩
    rw [ho]
    exact thctl_fields hx
  case fabnode =>
    intro hm h hx ho hu
    rw [exec_reeve_write hm h hx, ho, regWrite_fabnode hx hu]
  case readOnly =>
    intro hm h hx ho
    refine ⟨_, exec_reeve_write hm h hx, ?_⟩
    rw [regWrite_plain hx (plainReg_readOnly ho), masked_readOnly ho]
    exact ⟨⟨rfl, rfl, rfl, rfl⟩, reg_setReg_self s off.toNat⟩
  case bank =>
    refine ⟨?_, ?_, ?_⟩ <;> rintro ⟨hm, h, hon, hodd, hx⟩ ho
    · exact exec_bankReg (q := 0) (.inl rfl) hm h ⟨hon, hodd⟩ hx ho
    · exact exec_bankReg (q := 0x18) (.inr (.inl rfl)) hm h ⟨hon, hodd⟩ hx ho
    · exact exec_bankReg (q := 0x20) (.inr (.inr rfl)) hm h ⟨hon, hodd⟩ hx ho
  case clrdbg =>
    exact ⟨exec_clrdbg_core, fun y h hy => ⟨_, exec_clrdbg_shared h, clrdbg_effect p.isLt hy⟩⟩
  case host =>
    refine ⟨fun h => ?_, fun h n hn ho => ⟨_, exec_bar0, ?_⟩, fun h n hn ho => ⟨_, exec_bar0, ?_⟩,
      fun h n hn ho => ⟨_, exec_bar0, ?_⟩, fun h n ho => ?_, fun h ho => ?_⟩
    · rw [exec_bar0, bar0Write_dead h]
    · rw [ho, bar0Write_note h hn]
      exact ⟨⟨rfl, rfl, rfl, rfl⟩, rfl, Tbl.get_set_same ..⟩
    · rw [ho, bar0Write_command h hn]
      exact ⟨⟨rfl, rfl, rfl, rfl⟩, rfl, Tbl.get_set_same ..⟩
    · rw [ho]
      exact vector_effect h hn
    · rw [exec_bar0, ho, bar0Write_slot h n.isLt, exec_slotRelease_live h]
    · rw [exec_bar0, bar0Write_nothing h ho]
  case boundary =>
    obtain ⟨hbout, hperiod, hnext, hjump⟩ := boundary_number s
    obtain ⟨hact, hframes, hbounds⟩ := boundary_frame s
    refine ⟨hbout, hperiod.trans ?_, hnext, hact, hframes, boundary_keeps s, hbounds, fun l hl => boundary_link s hl, hjump,
      exec_boundary_reset, fun hr ht => ?_, fun hr ht => ?_, exec_boutref_ignored,
      fun hr hroot href => ⟨fun hd => ?_, fun hd => ?_⟩, countFree_core c.isLt⟩
    · cases s.fab.nextPeriod <;> rfl
    · refine (exec_boundary hr).trans ?_
      rw [ht]
      rfl
    · refine (exec_boundary hr).trans ?_
      rw [ht]
      rfl
    · rw [exec_boutref hr hroot href, if_neg (Nat.not_lt.2 hd)]
    · refine ⟨_, (exec_boutref hr hroot href).trans (if_pos hd), ⟨rfl, rfl, rfl, rfl⟩, regF_setRegF_same _ _ _ (by decide),
        fun j hj => reg_incF_other s 31 0 1 hj⟩
  case idle =>
    exact fun h => ⟨step_no_command h, idle_reset, idle_tripped, idle_untripped, tickPairs_eq s⟩
  case timer =>
    rw [tickTimer_counts h0 h1, bank_modBank_same]
    exact ⟨rfl, rfl⟩
  case account =>
    obtain ⟨hc, hw⟩ := countCycle_account s c.val
    refine ⟨hc, hw, fun hf hm hr => ?_, fun hf hm hr => ?_⟩
    · rw [cycleAccount_alone hf hm, hr, Option.elim_none]
    · rw [cycleAccount_alone hf hm, hr, Option.elim_some]

end Sys2Proof.Proofs
end

section
/-! PLOTSYNC and WCS (R135, R136, R225, R226). -/
namespace Sys2Proof.Proofs

open Sys2Proof Sys2Proof.Machine Sys2Proof.Laws Sys2Proof.Safety

theorem plotState_setReg (s : State) (n : Nat) (e : Val) : (s.setReg (rPLOT n) e).plotState n = bits e 1 0 := by
  unfold State.plotState State.regF; rw [reg_setReg_same]

/-- No plot enters or leaves Evacuating by PLOTSYNC (R136). -/
theorem plotChangeOk_evacuating {old new : Val} (phase : Nat) (h : bits old 1 0 = 3 ∨ bits new 1 0 = 3) :
    plotChangeOk phase old new = false := by
  unfold plotChangeOk
  rcases h with h | h <;> simp [h]

section Plotsync

variable {s s1 : State} {c : Fin 96} {b : Fin 4} {f : TForm} {n : Nat} {e : Val}
  (hi : Issued s c b (tEnc 0x15 5 f false true true 0) s1)
  (hp : Src s1 c b f.rs1.toNat (fixWord (v64 n))) (hn : n < 32768) (he : Src s1 c b f.rs2.toNat (rawWord e))
  (hold : bit (s1.reg (rPLOT n)) 8 = (s.bank c b).status.wld) (hnew : bit e 8 = (s.bank c b).status.wld)
  (hgood : (bits e 63 32 == 0 && !(bit e 30) && bits e 23 20 == 0 && bits e 15 10 == 0 && bits e 7 5 == 0 &&
    decide (bits e 19 16 ≤ 11) && bit (s1.reg (wnwBase (bits e 19 16))) 1) = true)
include hi hp hn he hold hnew hgood

/-- What PLOTSYNC does with a plot number and an entry of its world that names a Winnower in service (R135). -/
theorem exec_plotsync_entry : exec (.plotsync c f) s =
    finish s c b (tEnc 0x15 5 f false true true 0).word
      (if plotChangeOk (s1.gcPhase (s.bank c b).status.wld) (s1.reg (rPLOT n)) e
       then .ok .fall (s1.setReg (rPLOT n) e) else .error (.trap cTYPE (regTval f.rs2.toNat)) s1) := by
  have hv : (fixWord (v64 n)).val.toNat = n := Nat.mod_eq_of_lt (Nat.lt_trans hn (by decide))
  rw [exec_plotsync, execPlotsync, runInstr_issued hi]
  congr 1
  rw [bind_ok (srcReg_ctx hp), bind_ok (srcReg_ctx he), bind_ok (want_true (by rw [hv]; simp [hn, fixWord])),
    bind_ok (want_true (by rfl)), bind_ok (get_apply s1)]
  simp only [hv]
  rw [bind_ok (faultIf_false (by simp [hold, hnew, rawWord]))]
  cases h : plotChangeOk (s1.gcPhase (s.bank c b).status.wld) (s1.reg (rPLOT n)) e with
  | true => exact (bind_ok (want_true (by exact Bool.and_eq_true_iff.2 ⟨hgood, h⟩))).trans rfl
  | false => exact bind_error ((want_apply ..).trans (if_neg (by simp [rawWord, h])))

end Plotsync
section Wcs

variable {s s1 s2 : State} {c : Fin 96} {b : Fin 4} {f : TForm} {d : Val} {w a : Word}
  (hi : Issued s c b (tEnc 0x15 6 f false true true 0) s1)
  (hg : bit (s1.reg rCSGRANT) (wn (s.bank c b).status.wld) = true)
  (hd : Src s1 c b f.rs1.toNat (fixWord d)) (hw : Src s1 c b f.rs2.toNat w) (ha : await (s.ctx c b) w s1 = .ok a s1)
  (hat : s1.isPtr a.type = true ∨ a.type = tyRAW)
  (hres : (bits d 63 48 == 0 && bits d 31 18 == 0 && bits d 15 14 == 0) = true)
include hi hg hd hw ha hat hres

/-- A WCS whose operands its checks accept finishes at COUNT 0; otherwise, with a target of its world's share and words
that pass the load check, it commits the target in every copy, with both progress registers (R225, R226). -/
theorem exec_wcs_accepted :
    (bits d 47 32 = 0 → exec (.wcs c f) s = .next (s1.retire c b .fall)) ∧
    (∀ {j : Nat} {xs : List Val}, bits d 47 32 ≠ 0 → targetShare (bits d 17 16) (bits d 13 0) = some j →
      shareOwner s1 j = 1 + wn (s.bank c b).status.wld →
      wcsWords (s.ctx c b) (if bits d 17 16 = 1 then 3 else 1) a.val s1 = .ok xs s2 →
      loadOk s2 (1 + wn (s.bank c b).status.wld) (bits d 17 16) (bits d 13 0) xs = true →
      exec (.wcs c f) s = .next ((((s2.csWrite (bits d 17 16) (bits d 13 0) xs).wrReg c b f.rs1.toNat
        (fixWord (v64 (fld 32 (bits d 47 32 - 1) + fld 16 (bits d 17 16) + (bits d 13 0 + 1) % 2 ^ 14)))).wrReg c b
        f.rs2.toNat (rawWord (a.val + v64 (8 * (if bits d 17 16 = 1 then 3 else 1))))).retire c b .again)) := by
  rw [exec_wcs, execWcs, runInstr_issued hi, bind_ok (get_apply s1), bind_ok (faultIf_false (by simp [hg])),
    bind_ok (srcReg_ctx hd), bind_ok (srcReg_ctx hw), bind_ok ha, bind_ok (want_true (by simpa [fixWord] using hres)),
    bind_ok (get_apply s1), bind_ok (want_true (by simpa [isRw] using hat))]
  simp only [show (fixWord d).val = d from rfl, beq_iff_eq]
  refine ⟨fun h0 => ?_, fun h0 hj ho hx hl => ?_⟩
  · rw [if_pos h0]; rfl
  · rw [if_neg h0, bind_ok (get_apply s1)]
    simp only [hj, ho]
    rw [bind_ok (faultIf_false (by simp)), bind_ok hx, bind_ok (get_apply s2), bind_ok (faultIf_false (by simp [hl]))]
    rfl

end Wcs

/-- Settles O26: PLOTSYNC and WCS by what each does with operands that its checks accept. -/
theorem plotsAndControlStore : Obligations.PlotsAndControlStore := by
  unfold Obligations.PlotsAndControlStore
  intro s s1 s2 c b f n j e d a w xs
  refine ⟨fun hi hp hn he hold hnew g1 g2 g3 g4 g5 g6 g7 => ?_, fun old new phase h => plotChangeOk_evacuating phase h,
    fun hi hg hd hw ha hat h1 h2 h3 => ?_⟩
  · have hx := exec_plotsync_entry hi hp hn he hold hnew (by simp [g1, g2, g3, g4, g5, g6, g7])
    exact ⟨fun h => ⟨hx.trans (by rw [if_pos h]; rfl), plotState_setReg ..⟩, fun h => hx.trans (by rw [h]; rfl)⟩
  · obtain ⟨h0, hc⟩ := exec_wcs_accepted (s2 := s2) hi hg hd hw ha hat (by simp [h1, h2, h3])
    exact ⟨h0, fun hn hj ho hx hl => hc hn hj ho hx hl⟩

end Sys2Proof.Proofs
end

section
/-! SUPPORT. How Winnower work is evaluated on a state, and what becomes of work that does not complete (R150). -/
namespace Sys2Proof.Proofs

open Sys2Proof Sys2Proof.Machine Sys2Proof.Laws

section Work

variable {α β : Type} {s t : State} {m : WM α} {f : α → WM β} {a : α}

theorem work_ok (h : m s = .ok a t) : (m >>= f) s = f a t := by
  simp only [bind, EStateM.bind, h]

theorem work_get (f : State → WM β) : (get >>= f) s = f s s := rfl

theorem work_pure (a : α) (f : α → WM β) : (pure a >>= f) s = f a s := rfl

theorem work_modify (g : State → State) (f : PUnit → WM β) : (modify g >>= f) s = f ⟨⟩ (g s) := rfl

end Work

section Rows

variable {s t : State} {k : Nat} {w : Bool} {m : WM Unit}

theorem runW_ok (h : m s = .ok () t) : runW s w m = t := by
  unfold runW; rw [h]

theorem runW_error {e : WnwErr} {va : Nat} (h : m s = .error (e, va) t) : runW s w m = wnwStop s w va e := by
  unfold runW; rw [h]

/-- Work that waits for nothing has failed: a machine check, and the phase is held (R150). -/
theorem wnwStop_failed {e : WnwErr} (h : e.waits = false) (va : Nat) :
    wnwStop s w va e = (wnwFail s w va e).modGcW w fun g => { g with failing := true } := by
  cases e with
  | xlate => rfl
  | fence => rfl
  | poison => rfl
  | stall => cases h
  | wait => cases h
  | noDest => cases h
  | full => cases h

/-- A Winnower works for a world in phase `n`: the module is not tripped, the world is in the phase, no access of it has
failed since the last boundary, and the Winnower is in service (R150, R155, R163). -/
def Works (s : State) (k : Nat) (w : Bool) (n : Nat) : Prop :=
  s.tripped = false ∧ s.gcPhase w = n ∧ (s.gcW w).failing = false ∧ bit (s.reg (wnwBase k)) 1 = true

theorem wnwRow_works {n : Nat} (h : Works s k w n) : wnwRow s k w n m = .next (runW s w m) := by
  obtain ⟨h1, h2, h3, h4⟩ := h
  simp [wnwRow, h1, h2, h3, h4]

theorem wnwRow_idle {n : Nat} (h : ¬ Works s k w n) : wnwRow s k w n m = .next s := by
  unfold wnwRow
  rw [if_neg fun hc => h (by simpa [Works, and_assoc] using hc)]

theorem drained_settled (h : (s.gcW w).draining = false) : s.drained w = s := by
  simp [State.drained, h]

theorem drained_waits (h : s.storesLeft w = true) : s.drained w = s := by
  simp [State.drained, h]

theorem exec_winnowerCopy_settled {k : Fin 12} {w : Fin 2} (h : (s.gcW (w == 1)).draining = false) :
    exec (.winnowerCopy k w) s = wnwRow s k (w == 1) 2 (copyStepW k (w == 1)) := by
  rw [exec_winnowerCopy, execWinnowerCopy, drained_settled h]
  simp [h]

theorem exec_winnowerCopy_waits {k : Fin 12} {w : Fin 2} (h : (s.gcW (w == 1)).draining = true)
    (hl : s.storesLeft (w == 1) = true) : exec (.winnowerCopy k w) s = .next s := by
  rw [exec_winnowerCopy, execWinnowerCopy, drained_waits hl]
  simp [h]

end Rows

end Sys2Proof.Proofs
end

section
/-! SUPPORT. Marking (R154, R157, R158). -/
namespace Sys2Proof.Proofs

open Sys2Proof Sys2Proof.Machine Sys2Proof.Laws

variable {s s1 s2 : State} {k : Nat} {w : Bool}

/-- A change that counts engine work for the plot that holds an address, if one does (R152). -/
def atPlot (w : Bool) (s : State) (a : Nat) (f : State → Nat → State) : State := (s.plotOf w a).elim s (f s)

theorem workAt_apply (a : Nat) : workAt w a s = .ok () (atPlot w s a State.addWork) := by
  unfold workAt atPlot
  cases h : s.plotOf w a <;> simp [modify, modifyGet, MonadStateOf.modifyGet, EStateM.modifyGet, h]

theorem markStep_full (h : (s.wnw k w).full = true) : markStep k w s = .ok () s := by
  unfold markStep
  rw [work_get, if_pos h]
  rfl

theorem markStep_stack {p : Word} {q : List Word} (hf : (s.wnw k w).full = false) (hs : (s.wnw k w).stack = p :: q) :
    markStep k w s = scanObj k w p (s.modWnw k w fun y => { y with stack := q }) := by
  unfold markStep
  rw [work_get]
  simp only [hf, hs]
  rfl

theorem markStep_nothing (hf : (s.wnw k w).full = false) (hs : (s.wnw k w).stack = []) (hp : spillOf s k w = none)
    (hr : (s.gcW w).roots.find? (fun n => s.inService (n % 12) == k) = none)
    (he : (s.gcW w).exports.find? (fun n => s.inService (n % 12) == k) = none) : markStep k w s = .ok () s := by
  unfold markStep
  rw [work_get]
  simp only [hf, hs, hp, hr, he]
  rfl

theorem pushMark_room {p : Word} (hf : (s.wnw k w).full = false) (hl : (s.wnw k w).stack.length < 4096) :
    pushMark k w p s = .ok () (s.modWnw k w fun z => { z with stack := p :: z.stack }) := by
  unfold pushMark
  rw [work_get]
  simp only [hf, if_pos hl]
  rfl

/-- What marking an object leaves: it stands on the mark stack of its Winnower and in the list of marked objects, and the
work is counted. -/
def objectMarked (h : Nat) (w : Bool) (y : Word) (s : State) : State :=
  atPlot w ((s.modWnw h w fun z => { z with stack := y :: z.stack }).modGcW w fun g => { g with
    marked := g.marked ++ [(y.val.toNat, y)] }) y.val.toNat State.addWork

/-- An unmarked object that is no SYMBOL and has no header is marked (R158). -/
theorem markFor_unmarked {who : Option Nat} {y : Word} (hh : s.isHeadered y.type = false) (hy : y.type ≠ tySYMBOL)
    (hm : markBit (wnwOf s w y.val.toNat) w y.val.toNat s = .ok false s1)
    (hs : setMarkBit (wnwOf s w y.val.toNat) w y.val.toNat true s1 = .ok () s2)
    (hf : (s2.wnw (wnwOf s w y.val.toNat) w).full = false)
    (hl : (s2.wnw (wnwOf s w y.val.toNat) w).stack.length < 4096) :
    markFor who w y s = .ok () (objectMarked (wnwOf s w y.val.toNat) w y s2) := by
  unfold markFor
  rw [work_get, work_get]
  have hy' : (y.type == tySYMBOL) = false := by simpa using hy
  simp only [hh, hy', Bool.false_eq_true, if_false, work_pure, Bool.not_true]
  rw [work_ok hm, if_neg Bool.false_ne_true, work_ok hs, work_ok (pushMark_room hf hl), work_modify, workAt_apply]
  rfl

theorem scanWords_one {y : Word} {who : Option Nat} {a : Nat} (hr : wRead k w a s = .ok y s) (hb : s.badWord y = none)
    (ht : traced s w y = true) (hm : markFor who w y s = .ok () s1) : scanWords who k w 1 a s = .ok () s1 := by
  unfold scanWords
  rw [work_ok hr, work_get, if_neg (by simp [hb]), if_pos ht, work_ok hm]
  rfl

end Sys2Proof.Proofs
end

section
/-! SUPPORT. Destination space and copying (R156, R158). -/
namespace Sys2Proof.Proofs

open Sys2Proof Sys2Proof.Machine Sys2Proof.Laws

variable {s s1 s2 s3 s4 s5 s6 : State} {k : Nat} {w : Bool}

/-- The number of the plot that an address of the heap window lies in (R132). -/
def plotIndex (s : State) (w : Bool) (a : Nat) : Nat := (a - s.heapBase w) / 2 ^ 21

/-- The current destination of the Winnower has room for `n` words. -/
def Fits (s : State) (k : Nat) (w : Bool) (n : Nat) : Prop :=
  (s.wnw k w).cur ≠ 0 ∧ plotIndex s w (s.wnw k w).cur = plotIndex s w ((s.wnw k w).cur + 8 * n - 8)

/-- What the taking of `n` words at `d` leaves, `r` being the queue: DESTS.CUR is 0 once its plot is full (R158). -/
def destTaken (s : State) (k : Nat) (w : Bool) (n d : Nat) (r : List Nat) : State :=
  (s.modWnw k w fun y => { y with
    destq := r, cur := if plotIndex s w (d + 8 * n) = plotIndex s w d then d + 8 * n else 0 }).modGcW w
      fun g => { g with dests := if g.dests.contains (plotIndex s w d) then g.dests else g.dests ++ [plotIndex s w d] }

theorem takeDest_current {n : Nat} (h : Fits s k w n) :
    takeDest k w n s = .ok (s.wnw k w).cur (destTaken s k w n (s.wnw k w).cur (s.wnw k w).destq) := by
  obtain ⟨h1, h2⟩ := h
  unfold plotIndex at h2
  unfold takeDest destTaken plotIndex
  rw [work_get, if_pos (by simpa using ⟨h1, h2⟩)]
  simp only [beq_iff_eq]
  rfl

theorem takeDest_queued {n p : Nat} {r : List Nat} (h : ¬ Fits s k w n) (hq : (s.wnw k w).destq = p :: r) :
    takeDest k w n s = .ok (s.heapBase w + 2 ^ 21 * p) (destTaken s k w n (s.heapBase w + 2 ^ 21 * p) r) := by
  unfold Fits plotIndex at h
  unfold takeDest destTaken plotIndex
  rw [work_get, if_neg (by simpa using h)]
  simp only [hq, beq_iff_eq]
  rfl

theorem takeDest_waits {n : Nat} (h : ¬ Fits s k w n) (hq : (s.wnw k w).destq = []) :
    takeDest k w n s = .error (.noDest k, 0) s := by
  unfold Fits plotIndex at h
  unfold takeDest
  rw [work_get, if_neg (by simpa using h)]
  simp only [hq]
  rfl

/-- An object that was copied before is not copied again (R158). -/
theorem copyObj_forwarded {a : Nat} {w0 : Word} {code headered sym : Bool} (hr : wRead k w a s = .ok w0 s1)
    (hf : w0.type = tyFORWARD) : copyObj k w a code headered sym s = .ok (.moved w0.val.toNat) s1 := by
  unfold copyObj
  rw [work_ok hr, if_pos (by simpa using hf)]
  rfl

theorem wn_le (w : Bool) : wn w ≤ 1 := by cases w <;> decide

/-- The registers of a Winnower are none of the collection control's (R17). -/
theorem wnwReg_ne_gcReg {k p q : Nat} (w : Bool) (hp : p < 0x100) (hq : q < 0x100) :
    gcBase (wn w) + q ≠ wnwBase k + p := by
  have := Nat.lt_succ_of_le (wn_le w)
  simp only [gcBase, wnwBase, clusterBase]
  omega

/-- The copy of a pair of words from `a` to `d` is counted and noted (R159). -/
def pairNoted (s : State) (k : Nat) (w : Bool) (a d : Nat) : State :=
  (s.incF (wnwBase k + 0x18) 63 0 16).modGcW w fun g => { g with copied := g.copied ++ [(a, ⟨0, v64 d⟩)] }

theorem reg_modGcW (s : State) (w : Bool) (f : GcWorld → GcWorld) (o : Nat) : (s.modGcW w f).reg o = s.reg o := by
  cases w <;> rfl

theorem pairNoted_gcPhase {a d : Nat} : (pairNoted s k w a d).gcPhase w = s.gcPhase w := by
  unfold State.gcPhase State.regF pairNoted
  rw [reg_modGcW, reg_incF_other _ _ _ _ (wnwReg_ne_gcReg w (by decide) (by decide))]

/-- What the copying of a pair of words leaves, the engine work of it included (R152). -/
def pairCopied (s : State) (k : Nat) (w : Bool) (a d : Nat) : State :=
  atPlot w (pairNoted s k w a d) a fun u p => u.addW p 1

theorem objSize_pair {a : Nat} {w0 : Word} (hh : w0.type ≠ tyHEADER) (hm : markBit k w (a + 8) s = .ok false s1) :
    objSize k w a w0 s = .ok 2 s1 := by
  unfold objSize
  rw [if_neg (by simpa using hh), work_ok hm]
  rfl

/-- The copy of an object of two words (R158): destination space, the words, its mark bit, the FORWARD word. -/
theorem copyObj_pair {a d : Nat} {w0 : Word} (hr : wRead k w a s = .ok w0 s1) (hf : w0.type ≠ tyFORWARD)
    (hh : w0.type ≠ tyHEADER) (hm : markBit k w (a + 8) s1 = .ok false s2) (hd : (s2.gcW w).draining = false)
    (ht : takeDest k w 2 s2 = .ok d s3) (hc : copyWords k w 2 a d (setDestWait s3 k w false) = .ok () s4)
    (hb : setMarkBit k w d true s4 = .ok () s5) (hw : wWrite k w a ⟨BitVec.ofNat 8 tyFORWARD, v64 d⟩ s5 = .ok () s6)
    (h2 : s6.gcPhase w = 2) : copyObj k w a false false false s = .ok (.moved d) (pairCopied s6 k w a d) := by
  unfold copyObj
  rw [work_ok hr, if_neg (by simpa using hf), if_neg (by simp), work_ok (objSize_pair hh hm)]
  simp only [Bool.false_and, Bool.false_eq_true, if_false]
  rw [if_neg (by simp), work_modify, drained_settled hd, work_get, if_neg (by simp [hd]), work_ok ht, work_modify,
    work_ok hc, work_ok hb, if_neg (by simp), work_ok hw, work_modify]
  have hg : (pairNoted s6 k w a d).gcPhase w = 2 := pairNoted_gcPhase.trans h2
  unfold pairNoted at hg
  simp only [Nat.reduceMul, hg, Nat.reduceBEq, Bool.false_eq_true, if_false]
  unfold pairCopied atPlot pairNoted
  generalize State.plotOf _ w a = o
  cases o <;> rfl

/-- Whether the pointers of some types name CODE, headered or SYMBOL objects decides how the object is copied. -/
theorem copyStepW_copies {a : Nat} {q : List Nat} {ty : List Nat} {r : CopyRes} (hq : (s.wnw k w).toCopy = a :: q)
    (hty : ((s.gcW w).marked.filter (·.1 == a)).map (·.2.type) = ty)
    (hc : copyObj k w a (ty.contains tyCODE) (ty.any fun t => s.isHeadered t) (ty.contains tySYMBOL) s = .ok r s1) :
    copyStepW k w s = .ok () (s1.modWnw k w fun y => { y with toCopy := q }) := by
  unfold copyStepW
  rw [work_get]
  simp only [hq]
  rw [hty, work_ok hc]
  rfl

theorem copyStepW_forwarded {a : Nat} {q : List Nat} {w0 : Word} (hq : (s.wnw k w).toCopy = a :: q)
    (hr : wRead k w a s = .ok w0 s1) (hf : w0.type = tyFORWARD) :
    copyStepW k w s = .ok () (s1.modWnw k w fun y => { y with toCopy := q }) :=
  copyStepW_copies hq rfl (copyObj_forwarded hr hf)

theorem isHeadered_cons (s : State) : s.isHeadered tyCONS = false := by
  simp [State.isHeadered, State.isAllotPtr, tyCONS, tyVECTOR, tySTRING, tyBIGNUM, tyCLOSURE, tyCODE]

theorem copyStepW_cons {a : Nat} {q : List Nat} (hq : (s.wnw k w).toCopy = a :: q)
    (hty : ((s.gcW w).marked.filter (·.1 == a)).map (·.2.type) = [tyCONS]) {r : CopyRes}
    (hc : copyObj k w a false false false s = .ok r s1) :
    copyStepW k w s = .ok () (s1.modWnw k w fun y => { y with toCopy := q }) := by
  refine copyStepW_copies (r := r) hq hty ?_
  rw [List.any_cons, isHeadered_cons]
  exact hc

end Sys2Proof.Proofs
end

section
/-! SUPPORT. Fix-up, load-assists and the clearing of bitmaps (R147, R159, R162). -/
namespace Sys2Proof.Proofs

open Sys2Proof Sys2Proof.Machine Sys2Proof.Laws

variable {s s1 s2 s3 : State} {k : Nat} {w : Bool}

theorem fixStep_nothing (hq : (s.wnw k w).toFix = []) : fixStep k w s = .ok () s := by
  unfold fixStep
  rw [work_get]
  simp only [hq]
  rfl

/-- A root range that names no slots needs no fix-up (R157). -/
theorem fixStep_noRange {v : Nat} {q : List (Nat × Nat)} (hq : (s.wnw k w).toFix = (1, v) :: q)
    (hr : rootRange k w v s = .ok none s1) :
    fixStep k w s = .ok () (s1.modWnw k w fun y => { y with toFix := q }) := by
  unfold fixStep
  rw [work_get]
  simp only [hq]
  rw [if_neg (by decide), if_pos (by decide), work_ok hr]
  rfl

/-- A slot that points at a FORWARD word gets the new address, and keeps its tag byte (R28, R159). -/
theorem fixSlot_forwarded {a : Nat} {y f : Word} (hr : wRead k w a (atPlot w s a State.addWork) = .ok y s1)
    (hb : s1.badWord y = none) (hp : s1.isPtr y.type = true) (he : s1.inEvac w y.val.toNat = true)
    (hf : wRead k w y.val.toNat s1 = .ok f s2) (ht : f.type = tyFORWARD)
    (hw : wWrite k w a ⟨y.tag, f.val⟩ s2 = .ok () s3) : fixSlot k w a s = .ok () s3 := by
  unfold fixSlot
  rw [work_ok (workAt_apply a), work_ok hr, work_get, if_neg (by simp [hb, hp]), he, if_pos rfl]
  simp only [ht, beq_self_eq_true, if_true, work_ok hf, work_pure]
  exact hw

/-- A bitmap that is cleared leaves nothing to clear (R162). -/
theorem exec_bitmapClearDone_held {w : Fin 2} (h : bit (s.reg (gcBase w.val + 8)) 7 = false) :
    exec (.bitmapClearDone w) s = .next s := by
  rw [exec_bitmapClearDone, execBitmapClearDone]
  simp [h]

/-- What the clearing of the bitmaps after an abort leaves: BUSY is clear (R162). -/
def mapsCleared (s : State) (w : Fin 2) : State :=
  (s.modGcW (w == 1) fun g => { g with clearing := [] }).setRegF (gcBase w.val + 8) 7 7 0

theorem exec_bitmapClearDone_clears {w : Fin 2} (h : bit (s.reg (gcBase w.val + 8)) 7 = true)
    (hf : (s.gcW (w == 1)).failing = false) (ht : s.tripped = false)
    (hc : State.clearMaps (w == 1) (s.gcW (w == 1)).clearing s = .ok () s1) :
    exec (.bitmapClearDone w) s = .next (mapsCleared s1 w) := by
  rw [exec_bitmapClearDone, execBitmapClearDone]
  rw [if_pos (by simp [h, hf, ht])]
  exact congrArg _ (runW_ok ((work_ok hc).trans rfl))

theorem mapsCleared_effect (s : State) (w : Fin 2) :
    bit ((mapsCleared s w).reg (gcBase w.val + 8)) 7 = false ∧ ((mapsCleared s w).gcW (w == 1)).clearing = [] ∧
      (mapsCleared s w).mem = s.mem ∧ (mapsCleared s w).banks = s.banks := by
  unfold mapsCleared
  refine ⟨?_, ?_, ?_, ?_⟩
  · rw [reg_setRegF_same, bit_setBits_field _ _ (by decide) (by decide)]; rfl
  · exact congrArg GcWorld.clearing (gcW_modGcW_same ..)
  · cases w == 1 <;> rfl
  · cases w == 1 <;> rfl

theorem exec_winnowerAssist_none {k : Fin 12}
    (h : s.gc.assists.find? (fun r => r.k == k.val && r.result.isNone) = none) :
    exec (.winnowerAssist k) s = .next s := by
  rw [exec_winnowerAssist, execWinnowerAssist, h]

theorem exec_winnowerAssist_serves {k : Fin 12} {r : Assist}
    (h : s.gc.assists.find? (fun r => r.k == k.val && r.result.isNone) = some r)
    (hd : (s.gcW r.world).draining = false) (hf : (s.gcW r.world).failing = false) (ht : s.tripped = false) :
    exec (.winnowerAssist k) s = .next (runW s r.world (assistStep k)) := by
  rw [exec_winnowerAssist, execWinnowerAssist, h]
  simp [drained_settled hd, hd, hf, ht]

section Reply

variable {c : Fin 96} {b : Fin 4} {y : WaitRec} (hy : (s.bank c b).wait = some y)
include hy

/-- The answer of an assist wakes the bank that waits for it (R147). -/
theorem exec_assistReply_answered (hc : y.cause = 4) (hd : y.done = false)
    (h : ∃ r ∈ s.gc.assists,
      r.core = c.val ∧ r.bank = b ∧ r.addr = y.key ∧ r.tagb = y.tagb ∧ r.result.isSome = true) :
    exec (.assistReply c b) s = .next (s.deliver c (.waitDone b .none)) := by
  rw [exec_assistReply, execAssistReply, hy]
  dsimp only
  rw [if_pos (by simpa [hc, hd, and_assoc] using h)]

theorem exec_assistReply_pending (h : ∀ r ∈ s.gc.assists, r.core = c.val → r.bank = b → r.result = none) :
    exec (.assistReply c b) s = .next s := by
  rw [exec_assistReply, execAssistReply, hy]
  dsimp only
  rw [if_neg ?_]
  simp only [Bool.and_eq_true, List.any_eq_true, beq_iff_eq, not_and, not_exists]
  intro _ r hr ⟨⟨⟨hc, hb⟩, _⟩, _⟩
  simp [h r hr hc hb]

end Reply

end Sys2Proof.Proofs
end

section
/-! SUPPORT. Register scans, register flips and the SATBLOG (R142, R144, R156). -/
namespace Sys2Proof.Proofs

open Sys2Proof Sys2Proof.Machine Sys2Proof.Laws

variable {s s1 : State} {c : Nat} {b : Fin 4}

/-- The words that a scan of a bank appends to its SATBLOG. -/
abbrev scannedWords (s : State) (c : Nat) (b : Fin 4) : List Word :=
  scanGo s (s.bank c b).status.wld (s.bank c b) (scanRegs (s.bank c b))

theorem scanRow_waits (hp : (s.bank c b).scanPend = true)
    (h : 256 < (s.bank c b).satblog.length + (scannedWords s c b).length) : s.scanRow c b = s := by
  unfold State.scanRow State.scanBank
  simp [hp, h]

/-- The wait for a scan or flip changes no more than the bank's state (R144, R194). -/
theorem endScanWait_keeps {β : Type} (p : Bank → β)
    (h : ∀ (k : Bank) st wc pv, p { k with st := st, wcause := wc, prev := pv } = p k)
    (k : Bank) : p (State.endScanWait k) = p k := by
  unfold State.endScanWait Bank.ready
  split
  · split
    · split
      · exact h k _ _ k.prev
      · exact h k _ _ k.prev
    · split
      · exact h k k.st _ _
      · rfl
  · rfl

theorem endScanWait_other {k : Bank} (h : k.wcause ≠ 7) : State.endScanWait k = k := by
  unfold State.endScanWait
  rw [beq_false_of_ne h]
  rfl

theorem endScanWait_ready {k : Bank} (h1 : k.st = 3) (h2 : k.wcause = 7) (h3 : k.scanPend = false)
    (h4 : k.flipPend = false) : (State.endScanWait k).st = 1 := by
  simp [State.endScanWait, Bank.ready, h1, h2, h3, h4]

/-- The bank after its scan. -/
def scannedBank (s : State) (c : Nat) (b : Fin 4) : Bank :=
  { s.bank c b with scanPend := false, satblog := (s.bank c b).satblog ++ scannedWords s c b }

section Scan

variable (hp : (s.bank c b).scanPend = true) (h : (s.bank c b).satblog.length + (scannedWords s c b).length ≤ 256)
include hp h

theorem scanBank_scans :
    s.scanBank c b = some ((s.setBank c b (scannedBank s c b)).countEvent c 12 (scannedWords s c b).length) := by
  unfold State.scanBank
  dsimp only
  rw [hp, if_neg (by decide), if_neg (Nat.not_lt.2 h)]
  rfl

theorem scanRow_scans : s.scanRow c b =
    ((s.setBank c b (scannedBank s c b)).countEvent c 12 (scannedWords s c b).length).modBank c b State.endScanWait := by
  unfold State.scanRow
  rw [scanBank_scans hp h]

theorem scanRow_bank : (s.scanRow c b).bank c b = State.endScanWait (scannedBank s c b) := by
  rw [scanRow_scans hp h, bank_modBank_same, countEvent_bank, bank_setBank_same]

theorem scanRow_mem : (s.scanRow c b).mem = s.mem := by
  rw [scanRow_scans hp h, modBank_mem, countEvent_mem, setBank_mem]

theorem scanRow_other {c' : Nat} {b' : Fin 4} (hne : (c', b') ≠ (c, b)) :
    (s.scanRow c b).bank c' b' = s.bank c' b' := by
  rw [scanRow_scans hp h, bank_modBank_other _ _ hne, countEvent_bank, bank_setBank_other _ _ hne]

end Scan

/-- A flip that reaches no failed access replaces the pointers and ends (R156). -/
theorem flipRow_flips (hp : (s.bank c b).flipPend = true) (hf : (s.gcW (s.bank c b).status.wld).failing = false)
    (hg : flipGo c b (s.bank c b).status.wld (scanRegs (s.bank c b)) s = .ok () s1) :
    s.flipRow c b = s1.modBank c b fun k => State.endScanWait { k with flipPend := false } := by
  have hb : s.flipBank c b = some (s1.modBank c b fun k => { k with flipPend := false }) := by
    unfold State.flipBank
    dsimp only
    rw [hp, if_neg (by decide), hf, if_neg Bool.false_ne_true, hg]
  unfold State.flipRow
  rw [hb]
  exact modBank_modBank ..

theorem satTake_skips {w : Bool} {y : Word} {q : List Word} (hq : (s.bank c b).satblog = y :: q)
    (h : s.isPtr y.type = false ∨ s.inScope w y.val.toNat = false) :
    satTake c b w s = .ok () (s.modBank c b fun k => { k with satblog := q }) := by
  unfold satTake
  rw [work_get]
  simp only [hq]
  rw [work_get, if_neg (by rcases h with h | h <;> simp [h])]
  rfl

/-- What an entry of a SATBLOG names is marked (R142). -/
theorem satTake_marks {w : Bool} {y : Word} {q : List Word} (hq : (s.bank c b).satblog = y :: q)
    (hp : s.isPtr y.type = true) (hs : s.inScope w y.val.toNat = true) (hm : markObj w y s = .ok () s1) :
    satTake c b w s = .ok () (s1.modBank c b fun k => { k with satblog := q }) := by
  unfold satTake
  rw [work_get]
  simp only [hq]
  rw [work_get, if_pos (by simp [hp, hs]), work_ok hm]
  rfl

theorem exec_satblogTake_phase {c : Fin 96} (h : s.gcPhase (s.bank c b).status.wld ≠ 1) :
    exec (.satblogTake c b) s = .next s := by
  rw [exec_satblogTake, execSatblogTake]
  rw [if_neg (by simp [h])]

theorem exec_satblogTake_runs {c : Fin 96} (h1 : s.gcPhase (s.bank c b).status.wld = 1)
    (h2 : (s.gcW (s.bank c b).status.wld).failing = false) (h3 : s.tripped = false)
    (h4 : (s.wnw (s.inService (clusterOf c)) (s.bank c b).status.wld).full = false) :
    exec (.satblogTake c b) s = .next (runW s (s.bank c b).status.wld (satTake c b (s.bank c b).status.wld)) := by
  rw [exec_satblogTake, execSatblogTake]
  rw [if_pos (by simp [h1, h2, h3, h4])]

end Sys2Proof.Proofs
end

section
/-! The work of a collection (R142, R144, R147, R150, R154, R157, R158, R159, R162). -/
namespace Sys2Proof.Proofs

open Sys2Proof Sys2Proof.Machine Sys2Proof.Laws

/-- Settles O40, by what each piece of the work does to the state, one lemma per piece. -/
theorem collectionWork : Obligations.CollectionWork := by
  unfold Obligations.CollectionWork
  intro s s1 s2 s3 s4 s5 s6 k w c b wd o x on counted
  have hcount : ∀ u a f, counted u a f = atPlot wd u a f := fun u a f => by
    unfold atPlot
    show (match u.plotOf wd a with | some p => f u p | none => u) = _
    cases u.plotOf wd a <;> rfl
  have hon : ∀ n, on n → Works s k wd n := fun n ⟨h1, h2, h3, h4, _⟩ => ⟨h1, h2, h3, h4⟩
  have hoff : ∀ n, ¬ on n → (s.gcW wd).draining = false → ¬ Works s k wd n := fun n h hd ⟨h1, h2, h3, h4⟩ =>
    h ⟨h1, h2, h3, h4, hd⟩
  have hsettled : ∀ n, on n → (s.gcW wd).draining = false := fun n ⟨_, _, _, _, hd⟩ => hd
  have hmark : on 1 → exec (.winnowerMark k w) s = .next (runW s wd (markStep k wd)) := fun h =>
    (exec_winnowerMark k w s).trans (wnwRow_works (hon 1 h))
  have hcopy : on 2 → exec (.winnowerCopy k w) s = .next (runW s wd (copyStepW k wd)) := fun h =>
    (exec_winnowerCopy_settled (hsettled 2 h)).trans (wnwRow_works (hon 2 h))
  have hfix : on 3 → exec (.winnowerFixup k w) s = .next (runW s wd (fixStep k wd)) := fun h =>
    (exec_winnowerFixup k w s).trans (wnwRow_works (hon 3 h))
  refine ⟨fun h hd => (exec_winnowerMark k w s).trans (wnwRow_idle (hoff 1 h hd)),
    fun h hd => (exec_winnowerCopy_settled hd).trans (wnwRow_idle (hoff 2 h hd)),
    fun h hd => (exec_winnowerFixup k w s).trans (wnwRow_idle (hoff 3 h hd)), exec_winnowerCopy_waits,
    fun h hf => ?full, fun p q h hf hs => ?stack, fun va e he => wnwStop_failed he va,
    fun h hf hs hp hr he => ?nothing, fun p y hb ht hh hy => ?mark, fun n => ?dest, fun a d q w0 h hq hr => ?copy,
    fun v q h hq hr => ?root, fun a y f hr hb hp he hf ht hw => ?slot, fun h hq => ?fixed, exec_winnowerAssist_none,
    fun r hr hd hf ht => ?assist, fun y hy hc hd => ?reply, ?banks, exec_bitmapClearDone_held,
    fun h hf ht hc => ⟨_, exec_bitmapClearDone_clears h hf ht hc, mapsCleared_effect s1 w⟩⟩
  case full => rw [hmark h, runW_ok (markStep_full hf)]
  case stack =>
    intro u
    rw [hmark h]
    exact ⟨fun hk => by rw [runW_ok ((markStep_stack hf hs).trans hk)],
      fun e va hk => by rw [runW_error ((markStep_stack hf hs).trans hk)]⟩
  case nothing => rw [hmark h, runW_ok (markStep_nothing hf hs hp hr he)]
  case mark =>
    intro h hr hm hs hf hl
    rw [hcount]
    exact scanWords_one hr hb ht (markFor_unmarked hh hy hm hs hf hl)
  case dest => exact ⟨takeDest_current, fun hn p r hq => takeDest_queued hn hq, takeDest_waits⟩
  case copy =>
    rw [hcopy h]
    refine ⟨fun hf => by rw [runW_ok (copyStepW_forwarded hq hr hf)], fun hf hh hty hm hd ht hc hb hw h2 => ?_⟩
    rw [runW_ok (copyStepW_cons hq hty (copyObj_pair hr hf hh hm hd ht hc hb hw h2)), pairCopied, ← hcount, pairNoted]
  case root => rw [hfix h, runW_ok (fixStep_noRange hq hr)]
  case slot => exact fixSlot_forwarded (by rwa [← hcount]) hb hp he hf ht hw
  case fixed => rw [hfix h, runW_ok (fixStep_nothing hq)]
  case assist =>
    rw [exec_winnowerAssist_serves hr hd hf ht]
    exact ⟨fun h => by rw [runW_ok h], fun e va h => by rw [runW_error h]⟩
  case reply => exact ⟨exec_assistReply_answered hy hc hd, exec_assistReply_pending hy⟩
  case banks =>
    refine ⟨fun hp hl => ⟨_, exec_registerScan c b s, ?scanned, ?appended, scanRow_mem hp hl,
        fun h1 h2 h3 => ?woken, fun hw => ?same, fun c' b' hne => scanRow_other hp hl hne⟩,
      fun hp hl => (exec_registerScan c b s).trans (congrArg Host.Outcome.next (scanRow_waits hp hl)),
      fun hp hf hg => ⟨_, (exec_registerFlip c b s).trans (congrArg Host.Outcome.next (flipRow_flips hp hf hg)),
        ?flipped, rfl, ?flippedRegs⟩,
      fun h1 h2 h3 h4 y q hq => ?sat, exec_satblogTake_phase⟩
    case scanned => rw [scanRow_bank hp hl, endScanWait_keeps Bank.scanPend fun _ _ _ _ => rfl]; rfl
    case appended => rw [scanRow_bank hp hl, endScanWait_keeps Bank.satblog fun _ _ _ _ => rfl]; rfl
    case woken => rw [scanRow_bank hp hl]; exact endScanWait_ready h1 h2 rfl h3
    case same => rw [scanRow_bank hp hl, endScanWait_other (k := scannedBank s c b) hw]; rfl
    case flipped => rw [bank_modBank_same, endScanWait_keeps Bank.flipPend fun _ _ _ _ => rfl]
    case flippedRegs => rw [bank_modBank_same, endScanWait_keeps Bank.gr fun _ _ _ _ => rfl]
    case sat =>
      rw [exec_satblogTake_runs h1 h2 h3 h4]
      exact ⟨fun h => by rw [runW_ok (satTake_skips hq h)],
        fun hp hs hm => by rw [runW_ok (satTake_marks hq hp hs hm)]⟩

end Sys2Proof.Proofs
end

section
/-! GO, ABORT, SCOPE, DESTQ, WCTL and the phase changes at a boundary (R150, R153-R155, R162, R163). -/
namespace Sys2Proof.Proofs

open Sys2Proof Sys2Proof.Machine

/-- World 0 is in Mark with an ABORT held, and its table of banks is not in its one form: bank 0 of core 0 stands in it
twice, first as the default bank, of world 0, then as a bank of world 1 whose STATUS.MK is set. -/
def doubledBank : State :=
  { regs := [(gcBase 0 + 8, 1)], gc := { w0 := { abort := true } },
    banks := [(0, {}), (0, { status := { wld := true, mrk := true } })] }

theorem gcPhase_doubledBank : doubledBank.gcPhase false = 1 := by decide

/-- The abort drops the entries that hold the default, so that the second entry of the key shows, with MK set. -/
theorem gcBoundary_doubledBank : ((doubledBank.gcBoundary false).bank 0 0).status.mrk = true := by decide +kernel

/-- Refutes O39: the statement is about every state, also one whose table of banks is not in its one form (`Tbl.wf`).
Where the table lists a bank twice, a boundary that aborts Mark can leave STATUS.MK set in a bank of the world. -/
theorem not_collectionControl : ¬ Obligations.CollectionControl := by
  unfold Obligations.CollectionControl
  intro h
  obtain ⟨-, -, -, -, -, hboundary⟩ := h doubledBank .reeve whoReeve 0 0 0
  obtain ⟨-, -, habort, -⟩ := hboundary rfl
  obtain ⟨-, -, -, hbanks⟩ := habort gcPhase_doubledBank rfl
  obtain ⟨hmk, -⟩ := (hbanks 0).1 0 rfl
  simp [gcBoundary_doubledBank] at hmk

end Sys2Proof.Proofs
end
